-- ==== Sys2Proof/Word.lean ====
section
/-! DEFINITION. The word types of the spec: bytes, 64-bit register words, node numbers and the unit numbers of R22. -/

namespace Sys2Proof

/-- A byte; bit 7 is the most significant (R14). -/
abbrev Byte := BitVec 8
/-- A 64-bit register word (R6). -/
abbrev W64 := BitVec 64
/-- A 24-bit node number (R49). -/
abbrev Node := BitVec 24
/-- An external lane, or a port named by its first lane (R22). -/
abbrev Port := Fin 1024
/-- A quadrant, P-die or C-die number (R22). -/
abbrev Quad := Fin 4
/-- An octet (R22). -/
abbrev Octet := Fin 128
/-- A traffic class (R54). -/
abbrev Cls := Fin 8
/-- A ring pair (R257). -/
abbrev Ring := Fin 256
/-- A Bridle index (R128). -/
abbrev BridleIx := Fin 16384
/-- A direction of a floor path, numbered k as *Light, lanes and links* does. -/
abbrev FloorPath := Fin 20
/-- A laser emitter (R22). -/
abbrev Emitter := Fin 144
/-- A reduction lane (R22). -/
abbrev RedLane := Fin 64
/-- An HBM stack (R22). -/
abbrev Stack := Fin 12
/-- A core of the management plane, or a target of the interrupt controller (R283). -/
abbrev Core := Fin 4

/-- One value for each of the four quadrants. -/
structure Four (α : Type) where
  q0 : α
  q1 : α
  q2 : α
  q3 : α
deriving DecidableEq, Repr

/-- The value of quadrant `q` (taken modulo 4). -/
def Four.get {α : Type} (f : Four α) (q : Nat) : α :=
  match q % 4 with
  | 0 => f.q0
  | 1 => f.q1
  | 2 => f.q2
  | _ => f.q3

/-- `f` with the value of quadrant `q` (taken modulo 4) replaced. -/
def Four.set {α : Type} (f : Four α) (q : Nat) (v : α) : Four α :=
  match q % 4 with
  | 0 => { f with q0 := v }
  | 1 => { f with q1 := v }
  | 2 => { f with q2 := v }
  | _ => { f with q3 := v }

/-- The same value in every quadrant. -/
def Four.all {α : Type} (v : α) : Four α := ⟨v, v, v, v⟩

/-- Apply a function in every quadrant. -/
def Four.map {α β : Type} (g : α → β) (f : Four α) : Four β := ⟨g f.q0, g f.q1, g f.q2, g f.q3⟩

/-- The four values in quadrant order. -/
def Four.toList {α : Type} (f : Four α) : List α := [f.q0, f.q1, f.q2, f.q3]

end Sys2Proof
end

