-- ==== Sys2Proof/Syntax.lean ====
section
/-! DEFINITION. The commands of the block: one constructor of `Instr` for each row of spec/opcode_table.json, with the
operands that say which unit the event befalls and what comes in from outside with it. -/

namespace Sys2Proof

/-- A frame of an external lane as it stands on the wire (spec/02): the addresses, the 802.1Q tags (TPID and TCI), the
EtherType after them, every byte from there to the FCS, and whether the FCS is right. -/
structure Frame where
  dmac : BitVec 48
  smac : BitVec 48
  tags : List (BitVec 32)
  etype : BitVec 16
  body : List Byte
  fcsOk : Bool
deriving DecidableEq, Repr

/-- What an ingress MAC receives: the seven bytes that stand for the preamble, the first sent most significant (R13, R230); the
codewords with errors that the frame overlaps, by lane of the port, with whether FEC corrected them (R228, R250); and the frame. -/
structure RxFrame where
  pre : BitVec 56
  codewords : List (Fin 4 × Bool)
  frame : Frame
deriving DecidableEq, Repr

/-- The spaces of the PCI Express function that an access may reach (R251): three BARs and configuration space. -/
inductive Space where
  | bar0 | bar2 | bar4 | config
deriving DecidableEq, Repr

/-- Where an access goes: a space, and the offset of the register in it. -/
structure BusAddr where
  space : Space
  off : BitVec 26
deriving DecidableEq, Repr

/-- Which half or halves of a register an access reaches (R7). -/
inductive Acc where
  /-- a 64-bit access -/
  | full
  /-- a 32-bit access to bits [31:0] -/
  | lo
  /-- a 32-bit access to bits [63:32] -/
  | hi
deriving DecidableEq, Repr

/-- Who makes a register access (R287, R298). -/
inductive Agent where
  | host
  | core (c : Core)
  | regAccess
deriving DecidableEq, Repr

/-- The level tables (R64). -/
inductive Level where
  | zone | row | rack
deriving DecidableEq, Repr

/-- The tables that carry parity (R70, R128, R164), numbered for UNIT of TABLE_PARITY in R329. -/
inductive Tbl where
  | level (l : Level)
  | spar
  | exc
  | mcast
  | circuit
  | bridle
  | member
  | recipe
deriving DecidableEq, Repr

/-- An entry of a table that carries parity. For the exception table the index is the node number. -/
structure TblRef where
  tbl : Tbl
  ix : Nat
deriving DecidableEq, Repr

/-- What HBM's ECC-72 finds in a line (R215). -/
inductive HbmErr where
  | none | corrected | uncorrectable
deriving DecidableEq, Repr

/-- What a directory operation finds in the bucket it reads (R209): nothing amiss, an error of ECC-72 in the bucket's line, or one entry
with bad parity: entry 0 to 3 of the bucket, or 4 + an overflow index. -/
inductive DirErr where
  | none | corrected | uncorrectable
  | parity (i : Nat)
deriving DecidableEq, Repr

/-- A line of HBM (R192, R215): the pseudo-channel, the byte address in it, its bank and row. -/
structure HbmLine where
  pc : Fin 384
  addr : BitVec 30
  bank : BitVec 8
  row : BitVec 16
deriving DecidableEq, Repr

/-- A try of a frame's admission (R98), with whether a word of the queue descriptors or buffer pointers that it needs is uncorrectable
(R322, cause 2). -/
structure AdmitTry where
  id : Nat
  ue : Bool
deriving DecidableEq, Repr

/-- The read of a spilled frame's head (R104): its class, the line of the spill area it lies in, and what ECC-72 finds there (R215). -/
structure SpillRead where
  cls : Cls
  line : HbmLine
  err : HbmErr
deriving DecidableEq, Repr

/-- The arrival of an atomic request on a port, with what ECC-72 finds in the record of its requester (R213). -/
structure AtomIn where
  port : Port
  err : HbmErr
deriving DecidableEq, Repr

/-- What a descriptor fetch gets: the descriptor's bytes, no answer or a poisoned one (R257), or an uncorrectable word in the hub memory
that the command engine uses (R322, cause 18). -/
inductive Fetched where
  | bytes (l : List Byte)
  | failed
  | hubUe
deriving DecidableEq, Repr

/-- A DIR_CMD of a ring, with what it finds in the directory (R209). -/
structure DirRun where
  ring : Ring
  err : DirErr
deriving DecidableEq, Repr

/-- A ring of the photonic layer (R241): an external modulator, or a ring of a floor path's group or hub lane. -/
inductive RingRef where
  | lane (n : Port)
  | floor (k : FloorPath) (g : Fin 16)
deriving DecidableEq, Repr

/-- The long operations of the command engine (R268). -/
inductive LongOp where
  | excDump | excRehash | dirRehash | hbmWipe | counterSnapshot | fwStage | fwCommit
deriving DecidableEq, Repr

/-- The carriers of Tether (R289). -/
inductive Carrier where
  | inband (p : Port)
  | inbandIpv6 (p : Port)
  | mgmtEth (e : Fin 2)
deriving DecidableEq, Repr

/-- A frame on a management Ethernet port (R288), with the Ethernet and IPv6 addresses it comes from: a Tether datagram, an ICMPv6 echo
request with what follows its checksum, a neighbor solicitation of a target, or another frame. -/
inductive MgmtFrame where
  | other
  | tether (msg : List Byte)
  | echo (mac : BitVec 48) (src dst : BitVec 128) (body : List Byte)
  | solicit (mac : BitVec 48) (src target : BitVec 128)
deriving DecidableEq, Repr

/-- What ends a link (R229): the receive lanes dark or misaligned for 2 µs, or RX_LOST from the peer. -/
inductive LossCause where
  | dark | peerLost
deriving DecidableEq, Repr

/-- What asserts a power-on reset, or starts a chip reset (R364). -/
inductive PorCause where
  | power | pin
deriving DecidableEq, Repr

inductive ChipCause where
  | pin | resetCtl | lifeCycle
deriving DecidableEq, Repr

/-- IEEE 1149.1 instructions (R350, R390). -/
inductive JtagOp where
  | bypass | idcode | samplePreload | extest | internalScan | memoryAccess | fuseRead | coreDebug
deriving DecidableEq, Repr

/-- PTP messages that the chip sends (R304). -/
inductive PtpMsg where
  | announce | sync | followUp | delayReq | delayResp | pdelayReq | pdelayResp | pdelayRespFollowUp
deriving DecidableEq, Repr

/-- What one vector of a Sweep gives when it runs again (R334). -/
inductive Repeat where
  | mismatch | matched
deriving DecidableEq, Repr

/-- The image header checks of R361, as the boot ROM finds them on the image in the boot flash, in order. -/
structure ImageHdr where
  magicOk : Bool
  lcMask : Byte
  vendorOk : Bool
  sigOk : Bool
  svn : BitVec 32
  bodyOk : Bool
  /-- none: the image carries no pack -/
  packOk : Option Bool
  ver : BitVec 32
  packVer : BitVec 32
  sections : BitVec 10
  /-- gates of the pack's sections: section, TJ_MIN, TJ_MAX and LOAD_MIN in units of 0.5 % (R331) -/
  gates : List (Nat × Nat × Nat × Nat)
  hdrDigest : List Byte
  packDigest : List Byte
deriving DecidableEq, Repr

/-- What the sensors give at a management tick: the emitters' mean levels (R242), the hottest sensor and LOAD_DIE of each C-die
(R327, R336), and whether the regulators of VCORE_P[q] and VCORE_C[q] acknowledge the tick's AVSBus command (R382). -/
structure TickIn where
  levels : List (Emitter × BitVec 10)
  tj : Four Byte
  load : Four Byte
  ack : Four (Bool × Bool)
deriving DecidableEq, Repr

/-- A command: what reaches the block from outside, or an event inside it that the table lists as a step. -/
inductive Instr where
  -- register access (R7, R9)
  | registerWrite (who : Agent) (addr : BusAddr) (acc : Acc) (v : W64)
  | rcRegisterRead (who : Agent) (addr : BusAddr) (acc : Acc)
  | badSizeAccess (bar4 : Bool) (write : Bool) (addr : BitVec 26) (size : Nat)
  -- frames (spec/02 to spec/04)
  | frameReceive (p : Port) (rx : RxFrame) (upset : Option TblRef)
  | learnInsert (q : Quad)
  | learnAgeExpire (node : Node)
  | frameAdmit (a : AdmitTry)
  | spillReadback (q : Quad) (p : Port) (c : SpillRead)
  | ageDiscard (id : Nat)
  | egressSchedule (p : Port)
  | starvationTimerExpire (p : Port) (c : Cls)
  | floorCellReceive (a b : Quad) (crcBad : Bool)
  | transmitStart (p : Port)
  | transmitEnd (p : Port)
  | depthSample (q : Quad)
  | coreRateSample (q : Quad) (pRate cRate : BitVec 12) (tj : Byte)
  | tableParityRepair (q : Quad) (t : TblRef)
  | levelTableWrite (l : Level) (q : Quad) (i : BitVec 16) (acc : Acc) (v : W64)
  | sparWrite (q : Quad) (spar : BitVec 12) (w : Fin 32) (acc : Acc) (v : W64)
  | pinSeedWrite (acc : Acc) (v : W64)
  | portVent (p : Port)
  | portUnvent (p : Port)
  | ventComplete (p : Port)
  | ventNoticeReceive (p : Port)
  | noticeReportReceive (p : Port)
  | circuitMapWrite (i : Fin 256) (acc : Acc) (v : W64)
  | circuitEnable (i : Fin 256)
  | circuitVent (i : Fin 256)
  | circuitRetrain (i : Fin 256)
  | circuitDisable (i : Fin 256)
  | circuitEmpty (i : Fin 256)
  | circuitRetrainTimeout (i : Fin 256)
  | mirrorCfgWrite (m : Fin 16) (acc : Acc) (v : W64)
  | spillCfgWrite (q : Quad) (acc : Acc) (v : W64)
  | shaperWrite (p : Port) (c : Cls) (peak : Bool) (acc : Acc) (v : W64)
  | policerWrite (q : Quad) (k : Port) (peak : Bool) (acc : Acc) (v : W64)
  | laneFenceWrite (acc : Acc) (v : W64)
  -- collective groups (spec/05, spec/06)
  | chunkReceive (p : Port)
  | resultReceive (p : Port)
  | resultAckReceive (p : Port)
  | replayReqReceive (p : Port)
  | abortReceive (p : Port)
  | bridleNoticeReceive (p : Port)
  | quadrantPartialArrive (b : BridleIx) (seq : BitVec 32) (c : Quad) (damaged : Bool)
  | reductionFinish (b : BridleIx) (seq : BitVec 32) (wrong : Option (Bool × List Byte))
  | stragglerTimerExpire (b : BridleIx) (pos : Fin 256)
  | abortTimerExpire (b : BridleIx) (pos : Fin 256)
  | bridlePendingTimer (b : BridleIx)
  | readyRepeatTimer (b : BridleIx)
  | bridleCreate (r : Ring) (dma : Option (List Byte))
  | bridleCloseDrain (r : Ring)
  | bridleCloseAbort (r : Ring)
  | bridleCloseComplete (b : BridleIx)
  | recipeLoad (r : Ring)
  | recipeClear (r : Ring)
  -- the Gondola tier (spec/07)
  | memWriteReceive (p : Port) (e : HbmErr)
  | memReadReceive (p : Port) (e : HbmErr)
  | memReadRespReceive (p : Port)
  | memWriteAckReceive (p : Port)
  | unmatchedResponseReceive (p : Port)
  | atomicReqReceive (a : AtomIn)
  | atomicExecute (requester : Node) (seq : BitVec 32) (e : HbmErr)
  | copyReqReceive (p : Port)
  | copyDoneReceive (p : Port)
  | copyEngineTurn (c : Quad) (e : HbmErr) (dma : Option (List Byte))
  | copyRetryTimeout (c : Quad) (id : Nat)
  | dirReqReceive (p : Port) (e : DirErr)
  | patrolScrub (l : HbmLine) (e : HbmErr)
  | rowRepairComplete (l : HbmLine)
  | hbmRefresh (k : Stack) (temp : Byte)
  | gondolaCfgWrite (acc : Acc) (v : W64)
  | gondolaWinWrite (w : Fin 16) (acc : Acc) (v : W64)
  -- light, lanes and links (spec/08)
  | octetEnable (o : Octet)
  | octetDisable (o : Octet)
  | octetShapeChange (o : Octet) (acc : Acc) (v : W64)
  | trainingComplete (p : Port)
  | trainingTimeout (p : Port)
  | retrainTimeout (p : Port)
  | noOsluxPeer (p : Port)
  | linkLost (p : Port) (c : LossCause)
  | lightReturn (p : Port)
  | lossHoldExpire (p : Port)
  | downRetryTimer (p : Port)
  | fullTrain (p : Port)
  | fastRetrain (p : Port)
  | rejoin (p : Port)
  | laneFail (p : Port) (l : Fin 4)
  | laneRejoin (p : Port) (l : Fin 4)
  | linkStateReceive (p : Port)
  | linkStateTimer (p : Port)
  | nakReceive (p : Port) (ack : BitVec 16)
  | ackControlBlock (p : Port)
  | floorGroupDrop (k : FloorPath) (g : Fin 16)
  | floorGroupRejoin (k : FloorPath) (g : Fin 16)
  | ringUnlock (r : RingRef)
  | ringRelock (r : RingRef)
  | hubPathLost (q : Quad)
  | hubPathRestored (q : Quad)
  | emitterDead (e : Emitter)
  | handoverStepDone (e : Emitter)
  | spareFailed (e : Emitter)
  | emitNoSpareRepeat (e : Emitter)
  | saveOctet (o : Octet) (guard : BitVec 16)
  | saveFloor (k : FloorPath) (guard : BitVec 16)
  | loadOctet (o : Octet)
  | loadFloor (k : FloorPath)
  | recommissionOctet (o : Octet) (guard : BitVec 16) (patternSeen : Bool) (recs : List (W64 × W64))
  | recommissionFloor (k : FloorPath) (guard : BitVec 16) (recs : List W64)
  | calCommandDone (storeOk : Bool)
  -- host interface (spec/09)
  | sqDoorbell (r : Ring) (v : W64)
  | cqDoorbell (r : Ring) (v : W64)
  | badDoorbell (off : BitVec 20) (size : Nat)
  | ringEnable (r : Ring) (v : W64)
  | ringDisable (r : Ring)
  | ringStopComplete (r : Ring)
  | descriptorFetch (r : Ring) (d : Fetched)
  | longOperationStep (k : LongOp) (dma : Option (List Byte)) (flashOk : Bool)
  | nop (r : Ring)
  | cancel (r : Ring)
  | stageWrite (r : Ring)
  | stageCommit (r : Ring)
  | stageDiscard (r : Ring)
  | excWrite (r : Ring)
  | excRemove (r : Ring)
  | excRead (r : Ring)
  | excDump (r : Ring)
  | excRehash (r : Ring)
  | mcastWrite (r : Ring) (dma : Option (List Byte))
  | mcastRead (r : Ring)
  | copy (r : Ring)
  | hostToGondola (r : Ring)
  | gondolaToHost (r : Ring)
  | dirCmd (d : DirRun)
  | dirRehash (r : Ring)
  | hbmWipe (r : Ring)
  | counterSnapshot (r : Ring)
  | fwStage (r : Ring)
  | fwCommit (r : Ring)
  | fwCommitRestart (r : Ring)
  | fwDiscard (r : Ring)
  | recordBuf (r : Ring)
  | recordFlushTimer (r : Ring)
  | coalTimerExpire (r : Ring)
  | msixUnmask (v : Fin 2048)
  | flr
  | perstAssert
  | perstDeassert
  | pcieLinkLost
  | d3hotEnter
  | d0Return
  -- management plane (spec/10)
  | managementTick (t : TickIn)
  | recordResendTimer
  | heartbeatTimer
  | gliukStart
  | bootLimitExpire
  | stageTableLoad
  | mgmtRestart (guard : BitVec 16)
  | gliukRestartRequest
  | wdogKick
  | wdogHalfExpire
  | wdogExpire
  | icSourceEvent (src : Fin 1024)
  | icTrigger (who : Agent) (src : Fin 1024)
  | icClaim (c : Core)
  | icComplete (c : Core) (src : BitVec 10)
  | icRouteModeWrite (v : W64)
  | mgmtEthFrameReceive (e : Fin 2) (f : MgmtFrame)
  | tetherReceive (c : Carrier) (msg : List Byte)
  | tetherMessageProcess
  | hello
  | cmd
  | regAccess
  | recordAck
  | relayOut
  | attestReq
  | announceRelay (p : Port)
  | announceTimer
  | txnTimeout (key : Byte) (txn : BitVec 16)
  -- time, counters and sampling (spec/11)
  | timeSet (acc : Acc) (v : W64)
  | timeStep (acc : Acc) (v : W64)
  | timeFreq (acc : Acc) (v : W64)
  | tuNowRead (acc : Acc)
  | ptpReceive (p : Port)
  | ptpSourceLost
  | historyWrite
  | historyRequest (acc : Acc) (v : W64)
  | errInjectArm (acc : Acc) (v : W64)
  -- errors, faults and containment (spec/12)
  | livenessProbe (q : Quad) (answered : Bool)
  | pipelineStall (q : Quad)
  | macClockLoss (q : Quad)
  | refclkLoss
  | timeBaseDiverge
  | thermalTrip
  | sweepPassComplete (k : RedLane) (failed : Bool)
  | sweepVectorRepeat (k : RedLane) (sect : BitVec 10) (tj : Byte) (r : Repeat)
  | laneHang (k : RedLane)
  | sweepOverdue (k : RedLane)
  | withdraw
  | withdrawReturn
  | withdrawNoticeRepeat
  | withdrawEmpty
  -- security and life cycle (spec/13)
  | attest
  | extend
  | keyInstall
  | provision (guard : BitVec 16)
  | operate (guard : BitVec 16)
  | return (guard : BitVec 16)
  | ownerRotate
  | svnRaise
  | keyRead
  -- reset, power and hot plug (spec/14, spec/15)
  | powerOnReset (c : PorCause)
  | porRelease (otpOk : Bool)
  | chipReset (c : ChipCause)
  | dataPlaneReset
  | quadrantReset (q : Quad)
  | portReset (o : Octet)
  | resetWipeComplete
  | octetSleep (o : Octet)
  | octetWake (o : Octet)
  | quadrantPark (q : Quad)
  | quadrantUnpark (q : Quad)
  | parkComplete (q : Quad)
  | i3cRead (off : BitVec 6)
  | i3cWindowRefresh (tjDie : List Byte) (tStack : List Byte) (power : BitVec 16)
  | powerRemoval
  | pcieLinkReturn
  | mgmtEthLinkChange (e : Fin 2) (up : Bool)
  | bootVerificationComplete (img : Option ImageHdr)
  | unparkComplete (q : Quad)
  | vcoreOutOfRange (q : Quad) (cdie : Bool)
  | testAccessOperation (op : JtagOp)
  | ptpMessageSend (p : Port) (m : PtpMsg)
  | ppsPulse (rise : Bool)
deriving DecidableEq, Repr

end Sys2Proof
end

