-- ==== Sys2Proof/Config.lean ====
section
/-! DEFINITION. What the spec leaves open: free values, which nothing in Lean can evaluate. -/

namespace Sys2Proof.Config

/-- A free value: the n-th draw of a value the spec leaves open (a random source of R80, R292 or R313, an order between
dies, an unstated figure). The state's `freeCtr` says which draw comes next. Log entries 3 and 4. -/
opaque freeValue : Nat → BitVec 64

/-- How fuses stand in the byte string of OTP_DIGEST (R346, R363), by the number of the OTP field: the spec does not say. (DESIGN CHOICE log entry 55.) -/
opaque fuseBytes : Nat → List Bool → List Byte

/-- Whether EMIT_STATUS of a retired or dead emitter reads 5, not 4, once a reset has cleared its STATE: the table of R249 allows
both. By emitter. (DESIGN CHOICE log entry 26.) -/
opaque retiredReads : Nat → Bool

/-- 0 / 0 as an INT8 output, by the sign of the zero and the rounding bits of a stochastic recipe. Log entry 34. -/
opaque zeroQuotient : Bool → Option Nat → Byte

/-- Bytes that the egress staging of an octet holds, and bytes that a floor path holds: the spec states neither size. Log entry 19. -/
opaque stagingBytes : Nat
/-- DESIGN CHOICE log entry 19. -/
opaque floorBytes : Nat

/-- Bank and row of a byte address of a pseudo-channel: the stack's own. Log entry 42. -/
opaque rowOf : Nat → Nat → BitVec 8 × BitVec 16

end Sys2Proof.Config
end

