-- ==== Sys2Proof/Machine/Bits.lean ====
section
/-! DEFINITION. Byte strings, bit fields, the check functions of the spec (R44), and SHAKE256 (R186, R344), which the spec takes
from its published standard (PRESUMED FIPS 202, log entry 5). -/

namespace Sys2Proof.Machine

/-- The low `n` bytes of `v`, least significant first (R12). -/
def bytesLE : Nat → Nat → List Byte
  | 0, _ => []
  | n + 1, v => BitVec.ofNat 8 v :: bytesLE n (v / 256)

/-- The low `n` bytes of `v`, most significant first (R13). -/
def bytesBE (n v : Nat) : List Byte := (bytesLE n v).reverse

/-- The value of a little-endian byte string. -/
def natLE : List Byte → Nat
  | [] => 0
  | b :: l => b.toNat + 256 * natLE l

/-- The value of a big-endian byte string. -/
def natBE (l : List Byte) : Nat := natLE l.reverse

/-- `n` bytes of `l` from offset `off`; missing bytes read as 0. -/
def slice (l : List Byte) (off n : Nat) : List Byte :=
  let p := (l.drop off).take n
  p ++ List.replicate (n - p.length) 0

/-- The little-endian value of `n` bytes at `off`. -/
def getLE (l : List Byte) (off n : Nat) : Nat := natLE (slice l off n)
/-- The big-endian value of `n` bytes at `off`. -/
def getBE (l : List Byte) (off n : Nat) : Nat := natBE (slice l off n)

/-- Bits [lo + w − 1 : lo] of a number. -/
def bits (v lo w : Nat) : Nat := v / 2 ^ lo % 2 ^ w

/-- `l` with the bytes from `off` replaced by `b`; `l` is first filled with zeros up to `off`. -/
def overlay (l : List Byte) (off : Nat) (b : List Byte) : List Byte :=
  let l := l ++ List.replicate (off - l.length) 0
  l.take off ++ b ++ l.drop (off + b.length)

/-- Zeros after `l` up to `n` bytes. -/
def padTo (n : Nat) (l : List Byte) : List Byte := l ++ List.replicate (n - l.length) 0

/-- Even parity over bits [62:0] (R64). -/
def parity63 (v : BitVec 64) : Bool := (List.range 63).foldl (fun p i => p != v.getLsbD i) false

/-- A table word with its PARITY bit [63] computed (R64). -/
def withParity (v : BitVec 64) : BitVec 64 :=
  (v &&& 0x7fffffffffffffff) ||| (if parity63 v then 0x8000000000000000 else 0)

/-- One bit of the CRC-16 of R44. -/
def crc16Bit (c : BitVec 16) : BitVec 16 := if c.getLsbD 15 then (c <<< 1) ^^^ 0x1021 else c <<< 1

/-- One byte of the CRC-16 of R44. -/
def crc16Byte (c : BitVec 16) (b : Byte) : BitVec 16 :=
  let c := c ^^^ (b.zeroExtend 16 <<< 8)
  crc16Bit (crc16Bit (crc16Bit (crc16Bit (crc16Bit (crc16Bit (crc16Bit (crc16Bit c)))))))

/-- The CRC-16 of R44 over a byte string. -/
def crc16 (l : List Byte) : BitVec 16 := l.foldl crc16Byte 0xffff

/-- One byte of the CRC-8 of R230: polynomial 0x07, eight shifts. -/
def crc8Byte (c b : Byte) : Byte :=
  (List.range 8).foldl (fun c _ => if c.getLsbD 7 then (c <<< 1) ^^^ 0x07 else c <<< 1) (c ^^^ b)

/-- The CRC-8 of R230 over a byte string, from 0. -/
def crc8 (l : List Byte) : Byte := l.foldl crc8Byte 0

/-! ### SHAKE256 -/

/-- A lane of the 5 × 5 array, lane (x, y) at place 5y + x. -/
def lane (a : List (BitVec 64)) (x y : Nat) : BitVec 64 := a.getD (5 * (y % 5) + x % 5) 0

/-- Every lane made anew from its coordinates. -/
def mapLanes (f : Nat → Nat → BitVec 64) : List (BitVec 64) := (List.range 25).map fun i => f (i % 5) (i / 5)

/-- Step theta: each lane takes the parity of the two columns beside it. -/
def theta (a : List (BitVec 64)) : List (BitVec 64) :=
  let column (x : Nat) : BitVec 64 := (List.range 5).foldl (fun p y => p ^^^ lane a x y) 0
  mapLanes fun x y => lane a x y ^^^ column (x + 4) ^^^ (column (x + 1)).rotateLeft 1

/-- The lane that is the `t`-th on the walk (x, y) → (y, 2x + 3y) from (1, 0). -/
def lanePath : Nat → Nat × Nat
  | 0 => (1, 0)
  | t + 1 => let p := lanePath t; (p.2, (2 * p.1 + 3 * p.2) % 5)

/-- Steps rho and pi together: the `t`-th lane of the walk, rotated by the triangular number t + 1, moves to the next place. -/
def rhoPi (a : List (BitVec 64)) : List (BitVec 64) :=
  (List.range 24).foldl (fun b t =>
    let s := lanePath t
    let d := lanePath (t + 1)
    b.set (5 * d.2 + d.1) ((lane a s.1 s.2).rotateLeft ((t + 1) * (t + 2) / 2 % 64))) a

/-- Step chi. -/
def chi (a : List (BitVec 64)) : List (BitVec 64) := mapLanes fun x y => lane a x y ^^^ (~~~(lane a (x + 1) y) &&& lane a (x + 2) y)

/-- The feedback register of step iota after `n` shifts. -/
def iotaReg : Nat → BitVec 8
  | 0 => 1
  | n + 1 => let r := iotaReg n; (r <<< 1) ^^^ (if r.getLsbD 7 then 0x71 else 0)

/-- The constant of round `k`: bit 2^j − 1 is bit 0 of the register after 7k + j shifts. -/
def iotaConst (k : Nat) : BitVec 64 :=
  (List.range 7).foldl (fun c j => if (iotaReg (7 * k + j)).getLsbD 0 then c ||| (1 <<< (2 ^ j - 1)) else c) 0

/-- Round `k` of the permutation. -/
def keccakRound (a : List (BitVec 64)) (k : Nat) : List (BitVec 64) :=
  let b := chi (rhoPi (theta a))
  b.set 0 (lane b 0 0 ^^^ iotaConst k)

/-- PRESUMED log entry 5. -/
def keccakF (a : List (BitVec 64)) : List (BitVec 64) := (List.range 24).foldl keccakRound a

/-- The 64-bit lanes of a byte string. -/
def toLanes : Nat → List Byte → List (BitVec 64)
  | 0, _ => []
  | n + 1, l => BitVec.ofNat 64 (natLE (l.take 8)) :: toLanes n (l.drop 8)

def absorb : Nat → List (BitVec 64) → List Byte → List (BitVec 64)
  | 0, a, _ => a
  | n + 1, a, l =>
    let blk := toLanes 17 (l.take 136)
    absorb n (keccakF ((List.range 25).map fun i => a.getD i 0 ^^^ blk.getD i 0)) (l.drop 136)

/-- The first `n` ≤ 136 bytes of the SHAKE256 output of `l`. (PRESUMED log entry 5.) -/
def shake256 (n : Nat) (l : List Byte) : List Byte :=
  let k := 136 - l.length % 136
  let pad : List Byte := if k = 1 then [0x9f] else 0x1f :: List.replicate (k - 2) 0 ++ [0x80]
  let m := l ++ pad
  let a := absorb (m.length / 136) (List.replicate 25 0) m
  (a.flatMap fun w => bytesLE 8 w.toNat).take n

/-- The 64-byte digest of R344. (PRESUMED log entry 5.) -/
def digest64 (l : List Byte) : List Byte := shake256 64 l

/-! ### Association lists -/

variable {κ α : Type} [DecidableEq κ]

/-- The value of key `k`. -/
def aget (k : κ) : List (κ × α) → Option α
  | [] => none
  | (k', v) :: l => if k' = k then some v else aget k l

/-- The list without key `k`. -/
def adel (k : κ) (l : List (κ × α)) : List (κ × α) := l.filter fun p => decide (p.1 ≠ k)

/-- The list with key `k` bound to `v`. -/
def aput (k : κ) (v : α) (l : List (κ × α)) : List (κ × α) := (k, v) :: adel k l

/-- Elements of `l` at index `i` replaced by `v` (no change beyond the end). -/
def setAt (l : List α) (i : Nat) (v : α) : List α := l.set i v

end Sys2Proof.Machine
end

