-- ==== Sys2Proof/Machine/Reg.lean ====
section
/-! DEFINITION. The names of the BAR0 registers: one constructor for each register of the spec's register
tables, with its instance numbers. The constructor's docstring gives the register's own name and the spec file of its table. -/

namespace Sys2Proof.Machine

/-- A register of BAR0, by name and instance (R6). Ports and lanes carry their global numbers (R22). -/
inductive Reg where
  /-- HUB_ID (spec/09_host_interface.md). -/
  | hubId
  /-- HUB_STATE (spec/09_host_interface.md). -/
  | hubState
  /-- UNIT_MAP (spec/01_device_architecture.md). -/
  | unitMap
  /-- LANE_FENCE (spec/01_device_architecture.md). -/
  | laneFence
  /-- LANE_STATUS (spec/01_device_architecture.md). -/
  | laneStatus
  /-- CORE_RATE[q] (spec/01_device_architecture.md). -/
  | coreRate (q : Nat)
  /-- NODE_ID (spec/02_frames_and_addresses.md). -/
  | nodeId
  /-- VAETH_CFG (spec/02_frames_and_addresses.md). -/
  | vaethCfg
  /-- FABRIC_PREFIX_HI (spec/02_frames_and_addresses.md). -/
  | fabricPrefixHi
  /-- FABRIC_PREFIX_LO (spec/02_frames_and_addresses.md). -/
  | fabricPrefixLo
  /-- VAETH_SA (spec/02_frames_and_addresses.md). -/
  | vaethSa
  /-- VAETH_DA (spec/02_frames_and_addresses.md). -/
  | vaethDa
  /-- FWD_CFG (spec/03_forwarding_and_spraying.md). -/
  | fwdCfg
  /-- FWD_SEED (spec/03_forwarding_and_spraying.md). -/
  | fwdSeed
  /-- EPOCH_STATUS (spec/03_forwarding_and_spraying.md). -/
  | epochStatus
  /-- MIRROR_CFG[m] (spec/03_forwarding_and_spraying.md). -/
  | mirrorCfg (m : Nat)
  /-- CIRCUIT_MAP[i] (spec/03_forwarding_and_spraying.md). -/
  | circuitMap (i : Nat)
  /-- CIRCUIT_CTL[i] (spec/03_forwarding_and_spraying.md). -/
  | circuitCtl (i : Nat)
  /-- MGMT_CFG (spec/10_management_plane.md). -/
  | mgmtCfg
  /-- MGMT_CTL (spec/10_management_plane.md). -/
  | mgmtCtl
  /-- MGMT_STATUS (spec/10_management_plane.md). -/
  | mgmtStatus
  /-- WDOG (spec/10_management_plane.md). -/
  | wdog
  /-- TETHER_SESSION (spec/10_management_plane.md). -/
  | tetherSession
  /-- TETHER_STATUS (spec/10_management_plane.md). -/
  | tetherStatus
  /-- TETHER_REPLAY[k] +0 (spec/10_management_plane.md). -/
  | tetherReplayHigh (k : Nat)
  /-- TETHER_REPLAY[k] +8 (spec/10_management_plane.md). -/
  | tetherReplayWindow (k : Nat)
  /-- MGMT_ETH_CFG[p] (spec/10_management_plane.md). -/
  | mgmtEthCfg (p : Nat)
  /-- SAMPLE_CFG (spec/11_time_counters_and_sampling.md). -/
  | sampleCfg
  /-- HIST_CTL (spec/11_time_counters_and_sampling.md). -/
  | histCtl
  /-- ERR_CFG (spec/12_errors_faults_and_containment.md). -/
  | errCfg
  /-- ERR_STATUS (spec/12_errors_faults_and_containment.md). -/
  | errStatus
  /-- WITHDRAW_CTL (spec/12_errors_faults_and_containment.md). -/
  | withdrawCtl
  /-- ERR_INJECT (spec/12_errors_faults_and_containment.md). -/
  | errInject
  /-- ERR_COUNT[d] (spec/12_errors_faults_and_containment.md). -/
  | errCount (d : Nat)
  /-- SWEEP_CFG (spec/12_errors_faults_and_containment.md). -/
  | sweepCfg
  /-- SWEEP_STATUS (spec/12_errors_faults_and_containment.md). -/
  | sweepStatus
  /-- LANE_SWEEP[k] (spec/12_errors_faults_and_containment.md). -/
  | laneSweep (k : Nat)
  /-- LANE_HIST[k] (spec/12_errors_faults_and_containment.md). -/
  | laneHist (k : Nat)
  /-- RESET_CTL (spec/14_reset_power_and_hot_plug.md). -/
  | resetCtl
  /-- RESET_STATUS (spec/14_reset_power_and_hot_plug.md). -/
  | resetStatus
  /-- OCTET_SLEEP[i] (spec/14_reset_power_and_hot_plug.md). -/
  | octetSleep (i : Nat)
  /-- QUAD_PARK (spec/14_reset_power_and_hot_plug.md). -/
  | quadPark
  /-- POWER_STATUS (spec/14_reset_power_and_hot_plug.md). -/
  | powerStatus
  /-- CNT_VAL[k] (spec/11_time_counters_and_sampling.md). -/
  | cntVal (d : Nat) (k : Nat)
  /-- CNT_SEL[k] (spec/11_time_counters_and_sampling.md). -/
  | cntSel (d : Nat) (k : Nat)
  /-- HQ_CTL (spec/09_host_interface.md). -/
  | hqCtl
  /-- HQ_STATUS (spec/09_host_interface.md). -/
  | hqStatus
  /-- HOST_IRQ_STS (spec/09_host_interface.md). -/
  | hostIrqSts
  /-- COUNTER_GRANT[k] (spec/09_host_interface.md). -/
  | counterGrant (k : Nat)
  /-- HOST_IRQ_MAP[i] (spec/09_host_interface.md). -/
  | hostIrqMap (i : Nat)
  /-- SQ_BASE[r] (spec/09_host_interface.md). -/
  | sqBase (r : Nat)
  /-- CQ_BASE[r] (spec/09_host_interface.md). -/
  | cqBase (r : Nat)
  /-- RING_CTL[r] (spec/09_host_interface.md). -/
  | ringCtl (r : Nat)
  /-- RING_STATUS[r] (spec/09_host_interface.md). -/
  | ringStatus (r : Nat)
  /-- IC_CFG (spec/10_management_plane.md). -/
  | icCfg
  /-- IC_SRC[s] (spec/10_management_plane.md). -/
  | icSrc (s : Nat)
  /-- IC_BANK[c][s] (spec/10_management_plane.md). -/
  | icBank (c : Nat) (s : Nat)
  /-- IC_TARGET[c] +0 (spec/10_management_plane.md). -/
  | icTarget (c : Nat)
  /-- IC_TARGET[c] +8 (spec/10_management_plane.md). -/
  | icClaim (c : Nat)
  /-- IC_TARGET[c] +16 (spec/10_management_plane.md). -/
  | icComplete (c : Nat)
  /-- TU_CFG (spec/11_time_counters_and_sampling.md). -/
  | tuCfg
  /-- TU_NOW (spec/11_time_counters_and_sampling.md). -/
  | tuNow
  /-- TU_NOW_HI (spec/11_time_counters_and_sampling.md). -/
  | tuNowHi
  /-- TU_STEP (spec/11_time_counters_and_sampling.md). -/
  | tuStep
  /-- TU_FREQ (spec/11_time_counters_and_sampling.md). -/
  | tuFreq
  /-- TU_STATUS (spec/11_time_counters_and_sampling.md). -/
  | tuStatus
  /-- TU_SET_NS (spec/11_time_counters_and_sampling.md). -/
  | tuSetNs
  /-- TU_SET_HI (spec/11_time_counters_and_sampling.md). -/
  | tuSetHi
  /-- TU_PTP_EN[i] (spec/11_time_counters_and_sampling.md). -/
  | tuPtpEn (i : Nat)
  /-- SEC_STATUS (spec/13_security_and_life_cycle.md). -/
  | secStatus
  /-- SEC_CMD (spec/13_security_and_life_cycle.md). -/
  | secCmd
  /-- LC_NONCE (spec/13_security_and_life_cycle.md). -/
  | lcNonce
  /-- SEC_SERIAL (spec/13_security_and_life_cycle.md). -/
  | secSerial
  /-- ID_PUB[i] (spec/13_security_and_life_cycle.md). -/
  | idPub (i : Nat)
  /-- VENDOR_DIGEST[i] (spec/13_security_and_life_cycle.md). -/
  | vendorDigest (i : Nat)
  /-- OWNER_DIGEST[i] (spec/13_security_and_life_cycle.md). -/
  | ownerDigest (i : Nat)
  /-- EXT_MEASURE[i] (spec/13_security_and_life_cycle.md). -/
  | extMeasure (i : Nat)
  /-- SEC_MBOX[i] (spec/13_security_and_life_cycle.md). -/
  | secMbox (i : Nat)
  /-- ZONE_TBL[i] of P-die[q] (spec/03_forwarding_and_spraying.md). -/
  | zoneTbl (q : Nat) (i : Nat)
  /-- ROW_TBL[i] of P-die[q] (spec/03_forwarding_and_spraying.md). -/
  | rowTbl (q : Nat) (i : Nat)
  /-- RACK_TBL[i] of P-die[q] (spec/03_forwarding_and_spraying.md). -/
  | rackTbl (q : Nat) (i : Nat)
  /-- SPAR_TBL[s][w] of P-die[q], i = 32s + w (spec/03_forwarding_and_spraying.md). -/
  | sparTbl (q : Nat) (i : Nat)
  /-- PORT_FWD[n] (spec/03_forwarding_and_spraying.md). -/
  | portFwd (n : Nat)
  /-- CLASS_CFG[t] (spec/04_queues_congestion_and_scheduling.md). -/
  | classCfg (q : Nat) (i : Nat)
  /-- BUF_CLASS[t] (spec/04_queues_congestion_and_scheduling.md). -/
  | bufClass (q : Nat) (i : Nat)
  /-- VOQ_CFG[t] (spec/04_queues_congestion_and_scheduling.md). -/
  | voqCfg (q : Nat) (i : Nat)
  /-- NOTICE_CFG (spec/04_queues_congestion_and_scheduling.md). -/
  | noticeCfg (q : Nat)
  /-- SPILL_CFG (spec/04_queues_congestion_and_scheduling.md). -/
  | spillCfg (q : Nat)
  /-- BUF_STATUS (spec/04_queues_congestion_and_scheduling.md). -/
  | bufStatus (q : Nat)
  /-- SCHED_PORT[n] (spec/04_queues_congestion_and_scheduling.md). -/
  | schedPort (n : Nat)
  /-- SHAPER[n][t], word w (0 committed, 1 peak) (spec/04_queues_congestion_and_scheduling.md). -/
  | shaper (n : Nat) (t : Nat) (w : Nat)
  /-- POLICER[p] of P-die[q], word w (0 committed, 1 peak) (spec/04_queues_congestion_and_scheduling.md). -/
  | policer (q : Nat) (p : Nat) (w : Nat)
  /-- POLICE_MAP[n][t] (spec/04_queues_congestion_and_scheduling.md). -/
  | policeMap (n : Nat) (t : Nat)
  /-- VOQ_STAT[v] (spec/04_queues_congestion_and_scheduling.md). -/
  | voqStat (q : Nat) (i : Nat)
  /-- PORT_HWM[n] (spec/04_queues_congestion_and_scheduling.md). -/
  | portHwm (n : Nat)
  /-- OCTET_CFG[o] (spec/08_light_lanes_and_links.md). -/
  | octetCfg (o : Nat)
  /-- OCTET_STATUS[o] (spec/08_light_lanes_and_links.md). -/
  | octetStatus (o : Nat)
  /-- PORT_LINK[n] (spec/08_light_lanes_and_links.md). -/
  | portLink (n : Nat)
  /-- LINK_CTL[n] (spec/08_light_lanes_and_links.md). -/
  | linkCtl (n : Nat)
  /-- COLL_STATUS (spec/05_collective_groups.md). -/
  | collStatus (c : Nat)
  /-- RECIPE[r] word w of C-die[c], i = 4r + w (spec/06_reduction_arithmetic.md). -/
  | recipeW (c : Nat) (i : Nat)
  /-- BRIDLE[b] word w of C-die[c], i = 8b + w (spec/05_collective_groups.md). -/
  | bridleW (c : Nat) (i : Nat)
  /-- MEMBER[m] word w of C-die[c], i = 2m + w (spec/05_collective_groups.md). -/
  | memberW (c : Nat) (i : Nat)
  /-- GONDOLA_CFG (spec/07_gondola_memory_tier.md). -/
  | gondolaCfg
  /-- GONDOLA_STATUS (spec/07_gondola_memory_tier.md). -/
  | gondolaStatus
  /-- GONDOLA_SEED (spec/07_gondola_memory_tier.md). -/
  | gondolaSeed
  /-- GONDOLA_WIN[w] (spec/07_gondola_memory_tier.md). -/
  | gondolaWin (w : Nat)
  /-- HBM_STATUS[s] (spec/07_gondola_memory_tier.md). -/
  | hbmStatus (s : Nat)
  /-- FLOOR_PATH[k] (spec/08_light_lanes_and_links.md). -/
  | floorPath (k : Nat)
  /-- EMIT_CFG (spec/08_light_lanes_and_links.md). -/
  | emitCfg
  /-- EMIT_MAP[q] (spec/08_light_lanes_and_links.md). -/
  | emitMap (q : Nat)
  /-- EMIT_STATUS[e] (spec/08_light_lanes_and_links.md). -/
  | emitStatus (e : Nat)
  /-- CAL_CMD (spec/08_light_lanes_and_links.md). -/
  | calCmd
  /-- CAL_STATUS (spec/08_light_lanes_and_links.md). -/
  | calStatus
  /-- CAL_LANE[n] word w (spec/08_light_lanes_and_links.md). -/
  | calLane (n : Nat) (w : Nat)
  /-- LIVE_LANE[n] word w (spec/08_light_lanes_and_links.md). -/
  | liveLane (n : Nat) (w : Nat)
  /-- CAL_FLOOR[j] (spec/08_light_lanes_and_links.md). -/
  | calFloor (j : Nat)
  /-- LIVE_FLOOR[j] (spec/08_light_lanes_and_links.md). -/
  | liveFloor (j : Nat)
deriving DecidableEq, Repr

/-- A bit field of a register: its lowest bit and its width. -/
structure Fld where
  lo : Nat
  width : Nat
deriving DecidableEq, Repr

end Sys2Proof.Machine
end

