-- ==== Sys2Proof/Machine/RegTable.lean ====
section
/-! DEFINITION. The register tables of the spec: where each register stands in BAR0 (R253), its fields, its access
masks (R9), its Reset values and its Cleared-by codes (R10). -/

namespace Sys2Proof.Machine

abbrev Fld.hubId_part : Fld := ⟨0, 16⟩
abbrev Fld.hubId_stepping : Fld := ⟨16, 8⟩
abbrev Fld.hubId_gliukVer : Fld := ⟨32, 32⟩
abbrev Fld.hubState_lcState : Fld := ⟨0, 3⟩
abbrev Fld.hubState_gliukRun : Fld := ⟨3, 1⟩
abbrev Fld.hubState_dpReady : Fld := ⟨4, 1⟩
abbrev Fld.hubState_recovery : Fld := ⟨5, 1⟩
abbrev Fld.unitMap_laneFused : Fld := ⟨0, 64⟩
abbrev Fld.laneFence_laneFenced : Fld := ⟨0, 64⟩
abbrev Fld.laneStatus_enabledCount : Fld := ⟨0, 7⟩
abbrev Fld.laneStatus_c0Count : Fld := ⟨8, 5⟩
abbrev Fld.laneStatus_c1Count : Fld := ⟨13, 5⟩
abbrev Fld.laneStatus_c2Count : Fld := ⟨18, 5⟩
abbrev Fld.laneStatus_c3Count : Fld := ⟨23, 5⟩
abbrev Fld.coreRate_pRate : Fld := ⟨0, 12⟩
abbrev Fld.coreRate_cRate : Fld := ⟨16, 12⟩
abbrev Fld.coreRate_tjMax : Fld := ⟨32, 8⟩
abbrev Fld.coreRate_rateLow : Fld := ⟨40, 1⟩
abbrev Fld.coreRate_sampled : Fld := ⟨41, 1⟩
abbrev Fld.nodeId_node : Fld := ⟨0, 24⟩
abbrev Fld.nodeId_valid : Fld := ⟨63, 1⟩
abbrev Fld.vaethCfg_ethertype : Fld := ⟨0, 16⟩
abbrev Fld.vaethCfg_acceptVlan : Fld := ⟨16, 1⟩
abbrev Fld.vaethCfg_ipv6Fwd : Fld := ⟨17, 1⟩
abbrev Fld.vaethCfg_mgmtDscpA : Fld := ⟨24, 6⟩
abbrev Fld.vaethCfg_mgmtDscpB : Fld := ⟨32, 6⟩
abbrev Fld.vaethCfg_maxFrame : Fld := ⟨40, 14⟩
abbrev Fld.fabricPrefixHi_prefixHi : Fld := ⟨0, 64⟩
abbrev Fld.fabricPrefixLo_prefixLo : Fld := ⟨24, 40⟩
abbrev Fld.vaethSa_saBase : Fld := ⟨0, 48⟩
abbrev Fld.vaethDa_da : Fld := ⟨0, 48⟩
abbrev Fld.fwdCfg_pinAll : Fld := ⟨0, 1⟩
abbrev Fld.fwdCfg_epochEn : Fld := ⟨1, 1⟩
abbrev Fld.fwdCfg_epochNode : Fld := ⟨8, 24⟩
abbrev Fld.fwdCfg_learnAge : Fld := ⟨32, 12⟩
abbrev Fld.fwdSeed_excSeed : Fld := ⟨0, 32⟩
abbrev Fld.fwdSeed_pinSeed : Fld := ⟨32, 32⟩
abbrev Fld.epochStatus_epoch : Fld := ⟨0, 32⟩
abbrev Fld.epochStatus_suppressed : Fld := ⟨32, 32⟩
abbrev Fld.mirrorCfg_port : Fld := ⟨0, 10⟩
abbrev Fld.mirrorCfg_dir : Fld := ⟨10, 1⟩
abbrev Fld.mirrorCfg_enable : Fld := ⟨11, 1⟩
abbrev Fld.mirrorCfg_classMask : Fld := ⟨12, 8⟩
abbrev Fld.mirrorCfg_n : Fld := ⟨20, 16⟩
abbrev Fld.mirrorCfg_dest : Fld := ⟨36, 1⟩
abbrev Fld.mirrorCfg_ring : Fld := ⟨37, 8⟩
abbrev Fld.circuitMap_port : Fld := ⟨0, 10⟩
abbrev Fld.circuitMap_remoteRack : Fld := ⟨16, 16⟩
abbrev Fld.circuitMap_classMask : Fld := ⟨32, 8⟩
abbrev Fld.circuitMap_group : Fld := ⟨40, 16⟩
abbrev Fld.circuitMap_groupEn : Fld := ⟨56, 1⟩
abbrev Fld.circuitMap_parity : Fld := ⟨63, 1⟩
abbrev Fld.circuitCtl_cmd : Fld := ⟨0, 3⟩
abbrev Fld.circuitCtl_state : Fld := ⟨8, 3⟩
abbrev Fld.circuitCtl_cmdErr : Fld := ⟨11, 1⟩
abbrev Fld.circuitCtl_retrainNs : Fld := ⟨32, 32⟩
abbrev Fld.mgmtCfg_fmNode : Fld := ⟨0, 24⟩
abbrev Fld.mgmtCfg_tetherEn : Fld := ⟨24, 1⟩
abbrev Fld.mgmtCfg_udpEn : Fld := ⟨25, 1⟩
abbrev Fld.mgmtCfg_udpPort : Fld := ⟨32, 16⟩
abbrev Fld.mgmtCfg_heartbeat10ms : Fld := ⟨48, 8⟩
abbrev Fld.mgmtCfg_bootLimit10ms : Fld := ⟨56, 8⟩
abbrev Fld.mgmtCtl_restart : Fld := ⟨0, 1⟩
abbrev Fld.mgmtCtl_guard : Fld := ⟨48, 16⟩
abbrev Fld.mgmtStatus_restarts : Fld := ⟨0, 16⟩
abbrev Fld.mgmtStatus_lastCause : Fld := ⟨16, 3⟩
abbrev Fld.mgmtStatus_inRestart : Fld := ⟨19, 1⟩
abbrev Fld.wdog_periodMs : Fld := ⟨0, 14⟩
abbrev Fld.wdog_kick : Fld := ⟨14, 1⟩
abbrev Fld.tetherSession_session : Fld := ⟨0, 64⟩
abbrev Fld.tetherStatus_rxDrops : Fld := ⟨0, 16⟩
abbrev Fld.tetherStatus_authFails : Fld := ⟨16, 16⟩
abbrev Fld.tetherStatus_replays : Fld := ⟨32, 12⟩
abbrev Fld.tetherStatus_expired : Fld := ⟨44, 8⟩
abbrev Fld.tetherStatus_rxQueued : Fld := ⟨52, 9⟩
abbrev Fld.tetherReplayHigh_high : Fld := ⟨0, 64⟩
abbrev Fld.tetherReplayWindow_window : Fld := ⟨0, 64⟩
abbrev Fld.mgmtEthCfg_enable : Fld := ⟨0, 1⟩
abbrev Fld.mgmtEthCfg_fecEn : Fld := ⟨1, 1⟩
abbrev Fld.mgmtEthCfg_linkUp : Fld := ⟨2, 1⟩
abbrev Fld.mgmtEthCfg_rxDrops : Fld := ⟨32, 16⟩
abbrev Fld.sampleCfg_enable : Fld := ⟨0, 1⟩
abbrev Fld.sampleCfg_nLog2 : Fld := ⟨8, 5⟩
abbrev Fld.sampleCfg_dest : Fld := ⟨13, 1⟩
abbrev Fld.sampleCfg_ring : Fld := ⟨14, 8⟩
abbrev Fld.histCtl_req : Fld := ⟨0, 1⟩
abbrev Fld.histCtl_ring : Fld := ⟨1, 8⟩
abbrev Fld.histCtl_quadrant : Fld := ⟨9, 2⟩
abbrev Fld.histCtl_fromSeq : Fld := ⟨32, 32⟩
abbrev Fld.errCfg_hostEn : Fld := ⟨0, 1⟩
abbrev Fld.errCfg_ring : Fld := ⟨1, 8⟩
abbrev Fld.errStatus_fatalQ : Fld := ⟨0, 4⟩
abbrev Fld.errStatus_fatalChip : Fld := ⟨4, 1⟩
abbrev Fld.errStatus_firstFatalCode : Fld := ⟨16, 16⟩
abbrev Fld.withdrawCtl_req : Fld := ⟨0, 1⟩
abbrev Fld.withdrawCtl_state : Fld := ⟨1, 2⟩
abbrev Fld.withdrawCtl_quietUs : Fld := ⟨16, 16⟩
abbrev Fld.errInject_point : Fld := ⟨0, 4⟩
abbrev Fld.errInject_die : Fld := ⟨4, 4⟩
abbrev Fld.errInject_bits : Fld := ⟨8, 2⟩
abbrev Fld.errInject_arm : Fld := ⟨10, 1⟩
abbrev Fld.errCount_ce : Fld := ⟨0, 24⟩
abbrev Fld.errCount_uc : Fld := ⟨24, 24⟩
abbrev Fld.sweepCfg_enable : Fld := ⟨0, 1⟩
abbrev Fld.sweepCfg_excDeltaC : Fld := ⟨8, 8⟩
abbrev Fld.sweepCfg_excWindowMs : Fld := ⟨16, 8⟩
abbrev Fld.sweepCfg_intermitLimit : Fld := ⟨24, 8⟩
abbrev Fld.sweepStatus_packVer : Fld := ⟨0, 32⟩
abbrev Fld.sweepStatus_sections : Fld := ⟨32, 10⟩
abbrev Fld.sweepStatus_baseOnly : Fld := ⟨42, 1⟩
abbrev Fld.sweepStatus_overdueLanes : Fld := ⟨43, 7⟩
abbrev Fld.laneSweep_passes : Fld := ⟨0, 16⟩
abbrev Fld.laneSweep_fails : Fld := ⟨16, 8⟩
abbrev Fld.laneSweep_state : Fld := ⟨24, 3⟩
abbrev Fld.laneSweep_lastPassS : Fld := ⟨32, 32⟩
abbrev Fld.laneHist_bands : Fld := ⟨0, 64⟩
abbrev Fld.resetCtl_kind : Fld := ⟨0, 3⟩
abbrev Fld.resetCtl_target : Fld := ⟨8, 7⟩
abbrev Fld.resetCtl_guard : Fld := ⟨48, 16⟩
abbrev Fld.resetStatus_cmdErr : Fld := ⟨0, 1⟩
abbrev Fld.resetStatus_qdBusy : Fld := ⟨1, 4⟩
abbrev Fld.resetStatus_dpBusy : Fld := ⟨5, 1⟩
abbrev Fld.resetStatus_lastKind : Fld := ⟨6, 3⟩
abbrev Fld.resetStatus_chipResets : Fld := ⟨32, 16⟩
abbrev Fld.octetSleep_sleep : Fld := ⟨0, 64⟩
abbrev Fld.quadPark_park0 : Fld := ⟨0, 1⟩
abbrev Fld.quadPark_park1 : Fld := ⟨1, 1⟩
abbrev Fld.quadPark_park2 : Fld := ⟨2, 1⟩
abbrev Fld.quadPark_park3 : Fld := ⟨3, 1⟩
abbrev Fld.powerStatus_parked : Fld := ⟨0, 4⟩
abbrev Fld.powerStatus_cfgErr : Fld := ⟨4, 1⟩
abbrev Fld.cntVal_value : Fld := ⟨0, 48⟩
abbrev Fld.cntVal_ovf : Fld := ⟨48, 1⟩
abbrev Fld.cntSel_event : Fld := ⟨0, 12⟩
abbrev Fld.cntSel_qual : Fld := ⟨12, 16⟩
abbrev Fld.cntSel_qualAny : Fld := ⟨28, 1⟩
abbrev Fld.cntSel_chain : Fld := ⟨29, 1⟩
abbrev Fld.cntSel_enable : Fld := ⟨30, 1⟩
abbrev Fld.hqCtl_recordFlushUs : Fld := ⟨0, 16⟩
abbrev Fld.hqStatus_stageOpen : Fld := ⟨0, 1⟩
abbrev Fld.hqStatus_stageOwner : Fld := ⟨1, 8⟩
abbrev Fld.hqStatus_stageCount : Fld := ⟨9, 11⟩
abbrev Fld.hqStatus_cfgErr : Fld := ⟨20, 1⟩
abbrev Fld.hqStatus_badDoorbells : Fld := ⟨32, 16⟩
abbrev Fld.hostIrqSts_error : Fld := ⟨0, 1⟩
abbrev Fld.hostIrqSts_vent : Fld := ⟨1, 4⟩
abbrev Fld.hostIrqSts_circuit : Fld := ⟨5, 1⟩
abbrev Fld.hostIrqSts_calDone : Fld := ⟨6, 1⟩
abbrev Fld.hostIrqSts_gliuk : Fld := ⟨7, 1⟩
abbrev Fld.hostIrqSts_ringErr : Fld := ⟨8, 1⟩
abbrev Fld.hostIrqSts_time : Fld := ⟨9, 1⟩
abbrev Fld.hostIrqSts_link : Fld := ⟨10, 1⟩
abbrev Fld.counterGrant_grant : Fld := ⟨0, 64⟩
abbrev Fld.hostIrqMap_vector : Fld := ⟨0, 11⟩
abbrev Fld.hostIrqMap_en : Fld := ⟨11, 1⟩
abbrev Fld.sqBase_addr : Fld := ⟨12, 52⟩
abbrev Fld.ringCtl_enable : Fld := ⟨0, 1⟩
abbrev Fld.ringCtl_kind : Fld := ⟨1, 1⟩
abbrev Fld.ringCtl_sqLog2 : Fld := ⟨2, 5⟩
abbrev Fld.ringCtl_cqLog2 : Fld := ⟨7, 5⟩
abbrev Fld.ringCtl_coalN : Fld := ⟨12, 8⟩
abbrev Fld.ringCtl_coalUs : Fld := ⟨20, 10⟩
abbrev Fld.ringCtl_vector : Fld := ⟨30, 11⟩
abbrev Fld.ringCtl_irqEn : Fld := ⟨41, 1⟩
abbrev Fld.ringStatus_sqHead : Fld := ⟨0, 16⟩
abbrev Fld.ringStatus_sqTail : Fld := ⟨16, 16⟩
abbrev Fld.ringStatus_cqTail : Fld := ⟨32, 16⟩
abbrev Fld.ringStatus_state : Fld := ⟨48, 3⟩
abbrev Fld.ringStatus_err : Fld := ⟨51, 5⟩
abbrev Fld.icCfg_routeMode : Fld := ⟨0, 1⟩
abbrev Fld.icCfg_cfgErr : Fld := ⟨1, 1⟩
abbrev Fld.icCfg_badComplete : Fld := ⟨16, 16⟩
abbrev Fld.icSrc_enable : Fld := ⟨0, 1⟩
abbrev Fld.icSrc_target : Fld := ⟨1, 2⟩
abbrev Fld.icSrc_pending : Fld := ⟨8, 1⟩
abbrev Fld.icSrc_active : Fld := ⟨9, 1⟩
abbrev Fld.icSrc_count : Fld := ⟨16, 8⟩
abbrev Fld.icSrc_trigger : Fld := ⟨24, 1⟩
abbrev Fld.icBank_enable : Fld := ⟨0, 1⟩
abbrev Fld.icBank_target : Fld := ⟨1, 2⟩
abbrev Fld.icBank_pending : Fld := ⟨8, 1⟩
abbrev Fld.icBank_active : Fld := ⟨9, 1⟩
abbrev Fld.icBank_count : Fld := ⟨16, 8⟩
abbrev Fld.icBank_trigger : Fld := ⟨24, 1⟩
abbrev Fld.icTarget_en : Fld := ⟨0, 1⟩
abbrev Fld.icTarget_serving : Fld := ⟨1, 1⟩
abbrev Fld.icTarget_servingSrc : Fld := ⟨2, 10⟩
abbrev Fld.icClaim_claimSrc : Fld := ⟨0, 10⟩
abbrev Fld.icClaim_claimCount : Fld := ⟨16, 8⟩
abbrev Fld.icComplete_complete : Fld := ⟨0, 10⟩
abbrev Fld.tuCfg_jumpNs : Fld := ⟨0, 32⟩
abbrev Fld.tuCfg_role : Fld := ⟨32, 2⟩
abbrev Fld.tuCfg_ppsEn : Fld := ⟨34, 1⟩
abbrev Fld.tuCfg_domain : Fld := ⟨40, 8⟩
abbrev Fld.tuCfg_slew10ppb : Fld := ⟨48, 16⟩
abbrev Fld.tuNow_ns : Fld := ⟨0, 32⟩
abbrev Fld.tuNow_secLo : Fld := ⟨32, 32⟩
abbrev Fld.tuNowHi_secHi : Fld := ⟨0, 16⟩
abbrev Fld.tuStep_offset : Fld := ⟨0, 48⟩
abbrev Fld.tuStep_force : Fld := ⟨48, 1⟩
abbrev Fld.tuFreq_adj : Fld := ⟨0, 32⟩
abbrev Fld.tuStatus_cfgErr : Fld := ⟨0, 1⟩
abbrev Fld.tuStatus_jumpRefused : Fld := ⟨1, 1⟩
abbrev Fld.tuStatus_setOnce : Fld := ⟨2, 1⟩
abbrev Fld.tuStatus_holdover : Fld := ⟨3, 1⟩
abbrev Fld.tuStatus_refusedCount : Fld := ⟨16, 16⟩
abbrev Fld.tuStatus_lastRefusedNs : Fld := ⟨32, 32⟩
abbrev Fld.tuSetNs_ns : Fld := ⟨0, 32⟩
abbrev Fld.tuSetNs_secLo : Fld := ⟨32, 32⟩
abbrev Fld.tuSetHi_secHi : Fld := ⟨0, 16⟩
abbrev Fld.tuSetHi_force : Fld := ⟨16, 1⟩
abbrev Fld.tuPtpEn_en : Fld := ⟨0, 64⟩
abbrev Fld.secStatus_lcState : Fld := ⟨0, 3⟩
abbrev Fld.secStatus_transPending : Fld := ⟨3, 1⟩
abbrev Fld.secStatus_debugOpen : Fld := ⟨4, 1⟩
abbrev Fld.secStatus_idValid : Fld := ⟨5, 1⟩
abbrev Fld.secStatus_ownerIndex : Fld := ⟨6, 2⟩
abbrev Fld.secStatus_ownerSet : Fld := ⟨8, 1⟩
abbrev Fld.secStatus_minSvn : Fld := ⟨9, 7⟩
abbrev Fld.secStatus_busy : Fld := ⟨16, 1⟩
abbrev Fld.secStatus_result : Fld := ⟨17, 3⟩
abbrev Fld.secStatus_done : Fld := ⟨20, 1⟩
abbrev Fld.secStatus_ignored : Fld := ⟨21, 1⟩
abbrev Fld.secCmd_cmd : Fld := ⟨0, 4⟩
abbrev Fld.secCmd_guard : Fld := ⟨48, 16⟩
abbrev Fld.lcNonce_nonce : Fld := ⟨0, 64⟩
abbrev Fld.secSerial_serial : Fld := ⟨0, 64⟩
abbrev Fld.idPub_bytes : Fld := ⟨0, 64⟩
abbrev Fld.extMeasure_bytes : Fld := ⟨0, 64⟩
abbrev Fld.secMbox_data : Fld := ⟨0, 64⟩
abbrev Fld.zoneTbl_valid : Fld := ⟨0, 1⟩
abbrev Fld.zoneTbl_learned : Fld := ⟨1, 1⟩
abbrev Fld.zoneTbl_discard : Fld := ⟨2, 1⟩
abbrev Fld.zoneTbl_spar : Fld := ⟨8, 12⟩
abbrev Fld.zoneTbl_parity : Fld := ⟨63, 1⟩
abbrev Fld.rowTbl_valid : Fld := ⟨0, 1⟩
abbrev Fld.rowTbl_learned : Fld := ⟨1, 1⟩
abbrev Fld.rowTbl_discard : Fld := ⟨2, 1⟩
abbrev Fld.rowTbl_spar : Fld := ⟨8, 12⟩
abbrev Fld.rowTbl_parity : Fld := ⟨63, 1⟩
abbrev Fld.rackTbl_valid : Fld := ⟨0, 1⟩
abbrev Fld.rackTbl_learned : Fld := ⟨1, 1⟩
abbrev Fld.rackTbl_discard : Fld := ⟨2, 1⟩
abbrev Fld.rackTbl_spar : Fld := ⟨8, 12⟩
abbrev Fld.rackTbl_parity : Fld := ⟨63, 1⟩
abbrev Fld.sparTbl_portA : Fld := ⟨0, 10⟩
abbrev Fld.sparTbl_weightA : Fld := ⟨12, 4⟩
abbrev Fld.sparTbl_portB : Fld := ⟨32, 10⟩
abbrev Fld.sparTbl_weightB : Fld := ⟨44, 4⟩
abbrev Fld.sparTbl_parity : Fld := ⟨63, 1⟩
abbrev Fld.portFwd_learnEn : Fld := ⟨0, 1⟩
abbrev Fld.portFwd_learnExcess : Fld := ⟨1, 1⟩
abbrev Fld.portFwd_learnLimit : Fld := ⟨4, 12⟩
abbrev Fld.portFwd_ventReq : Fld := ⟨16, 1⟩
abbrev Fld.portFwd_ventState : Fld := ⟨17, 2⟩
abbrev Fld.portFwd_peerVent : Fld := ⟨19, 1⟩
abbrev Fld.portFwd_inService : Fld := ⟨20, 1⟩
abbrev Fld.portFwd_learnCount : Fld := ⟨32, 12⟩
abbrev Fld.classCfg_ageUs : Fld := ⟨0, 16⟩
abbrev Fld.classCfg_starveUs : Fld := ⟨16, 16⟩
abbrev Fld.bufClass_reserve : Fld := ⟨0, 12⟩
abbrev Fld.bufClass_limit : Fld := ⟨16, 12⟩
abbrev Fld.bufClass_used : Fld := ⟨32, 12⟩
abbrev Fld.voqCfg_qlimit : Fld := ⟨0, 24⟩
abbrev Fld.voqCfg_bpThresh : Fld := ⟨24, 24⟩
abbrev Fld.voqCfg_spillThresh : Fld := ⟨48, 16⟩
abbrev Fld.noticeCfg_bpEn : Fld := ⟨0, 1⟩
abbrev Fld.noticeCfg_discEn : Fld := ⟨1, 1⟩
abbrev Fld.noticeCfg_noticeGapUs : Fld := ⟨8, 16⟩
abbrev Fld.spillCfg_spillEn : Fld := ⟨0, 1⟩
abbrev Fld.spillCfg_spillGib : Fld := ⟨8, 5⟩
abbrev Fld.spillCfg_spillBwPct : Fld := ⟨16, 7⟩
abbrev Fld.bufStatus_freeCells : Fld := ⟨0, 20⟩
abbrev Fld.bufStatus_cfgErr : Fld := ⟨20, 1⟩
abbrev Fld.bufStatus_spillUsed : Fld := ⟨32, 24⟩
abbrev Fld.schedPort_w2 : Fld := ⟨0, 8⟩
abbrev Fld.schedPort_w3 : Fld := ⟨8, 8⟩
abbrev Fld.schedPort_w4 : Fld := ⟨16, 8⟩
abbrev Fld.schedPort_w5 : Fld := ⟨24, 8⟩
abbrev Fld.schedPort_w6 : Fld := ⟨32, 8⟩
abbrev Fld.schedPort_w7 : Fld := ⟨40, 8⟩
abbrev Fld.schedPort_overbook : Fld := ⟨48, 1⟩
abbrev Fld.shaper_rate : Fld := ⟨0, 16⟩
abbrev Fld.shaper_burst : Fld := ⟨32, 20⟩
abbrev Fld.policer_rate : Fld := ⟨0, 16⟩
abbrev Fld.policer_burst : Fld := ⟨32, 20⟩
abbrev Fld.policeMap_policer : Fld := ⟨0, 10⟩
abbrev Fld.policeMap_en : Fld := ⟨10, 1⟩
abbrev Fld.policeMap_redAction : Fld := ⟨11, 1⟩
abbrev Fld.voqStat_depth : Fld := ⟨0, 24⟩
abbrev Fld.voqStat_headDelay : Fld := ⟨24, 24⟩
abbrev Fld.voqStat_sample : Fld := ⟨48, 16⟩
abbrev Fld.portHwm_depthHwm : Fld := ⟨0, 24⟩
abbrev Fld.portHwm_delayHwm : Fld := ⟨24, 24⟩
abbrev Fld.portHwm_delayClass : Fld := ⟨48, 3⟩
abbrev Fld.octetCfg_enable : Fld := ⟨0, 1⟩
abbrev Fld.octetCfg_mode : Fld := ⟨1, 1⟩
abbrev Fld.octetCfg_shape : Fld := ⟨2, 2⟩
abbrev Fld.octetCfg_retryEn : Fld := ⟨4, 1⟩
abbrev Fld.octetCfg_narrowEn : Fld := ⟨5, 1⟩
abbrev Fld.octetCfg_laneUcwMax : Fld := ⟨8, 8⟩
abbrev Fld.octetCfg_lossHoldUs : Fld := ⟨16, 16⟩
abbrev Fld.octetStatus_cfgErr : Fld := ⟨0, 1⟩
abbrev Fld.portLink_state : Fld := ⟨0, 3⟩
abbrev Fld.portLink_txMask : Fld := ⟨8, 4⟩
abbrev Fld.portLink_rxMask : Fld := ⟨12, 4⟩
abbrev Fld.portLink_peerOslux : Fld := ⟨16, 1⟩
abbrev Fld.portLink_retryHeld : Fld := ⟨17, 1⟩
abbrev Fld.portLink_trainNs : Fld := ⟨32, 32⟩
abbrev Fld.linkCtl_cmd : Fld := ⟨0, 2⟩
abbrev Fld.linkCtl_cmdErr : Fld := ⟨2, 1⟩
abbrev Fld.collStatus_freeSlots : Fld := ⟨0, 14⟩
abbrev Fld.collStatus_activeBridles : Fld := ⟨16, 15⟩
abbrev Fld.collStatus_freeMembers : Fld := ⟨32, 18⟩
abbrev Fld.collStatus_stagePending : Fld := ⟨50, 1⟩
abbrev Fld.gondolaCfg_enable : Fld := ⟨0, 1⟩
abbrev Fld.gondolaCfg_exportGib : Fld := ⟨8, 9⟩
abbrev Fld.gondolaCfg_atomIdleMs : Fld := ⟨24, 10⟩
abbrev Fld.gondolaCfg_scrubH : Fld := ⟨40, 8⟩
abbrev Fld.gondolaCfg_copyRetryMs : Fld := ⟨48, 8⟩
abbrev Fld.gondolaStatus_cfgErr : Fld := ⟨0, 1⟩
abbrev Fld.gondolaStatus_dirUsed : Fld := ⟨32, 27⟩
abbrev Fld.gondolaSeed_dirSeed : Fld := ⟨0, 32⟩
abbrev Fld.gondolaWin_base : Fld := ⟨0, 19⟩
abbrev Fld.gondolaWin_size : Fld := ⟨32, 19⟩
abbrev Fld.hbmStatus_ceCount : Fld := ⟨0, 16⟩
abbrev Fld.hbmStatus_ueCount : Fld := ⟨16, 16⟩
abbrev Fld.hbmStatus_repairs : Fld := ⟨32, 8⟩
abbrev Fld.hbmStatus_spareLeft : Fld := ⟨40, 8⟩
abbrev Fld.floorPath_upMask : Fld := ⟨0, 16⟩
abbrev Fld.floorPath_drops : Fld := ⟨32, 32⟩
abbrev Fld.emitCfg_warnPermil : Fld := ⟨0, 10⟩
abbrev Fld.emitCfg_sparePermil : Fld := ⟨10, 10⟩
abbrev Fld.emitCfg_autoSpare : Fld := ⟨20, 1⟩
abbrev Fld.emitMap_retired : Fld := ⟨0, 36⟩
abbrev Fld.emitStatus_level : Fld := ⟨0, 10⟩
abbrev Fld.emitStatus_state : Fld := ⟨10, 4⟩
abbrev Fld.emitStatus_octet : Fld := ⟨16, 7⟩
abbrev Fld.calCmd_cmd : Fld := ⟨0, 4⟩
abbrev Fld.calCmd_target : Fld := ⟨8, 7⟩
abbrev Fld.calCmd_guard : Fld := ⟨48, 16⟩
abbrev Fld.calStatus_busy : Fld := ⟨0, 1⟩
abbrev Fld.calStatus_result : Fld := ⟨1, 3⟩
abbrev Fld.calStatus_done : Fld := ⟨4, 1⟩
abbrev Fld.calStatus_skipped : Fld := ⟨8, 8⟩
abbrev Fld.calStatus_writes : Fld := ⟨32, 32⟩
abbrev Fld.calLane_taps : Fld := ⟨0, 56⟩
abbrev Fld.calLane_ringBias : Fld := ⟨0, 16⟩
abbrev Fld.calLane_pdGain : Fld := ⟨16, 8⟩
abbrev Fld.calLane_valid : Fld := ⟨63, 1⟩
abbrev Fld.calFloor_txRingBias : Fld := ⟨0, 16⟩
abbrev Fld.calFloor_rxRingBias : Fld := ⟨16, 16⟩
abbrev Fld.calFloor_pdGain : Fld := ⟨32, 8⟩
abbrev Fld.calFloor_valid : Fld := ⟨63, 1⟩

/-- BAR0 offset of the block of P-die[q] (R253). -/
def pdieBase (q : Nat) : Nat := 0x800000 + q * 0x800000
/-- BAR0 offset of the block of C-die[c] (R253). -/
def cdieBase (c : Nat) : Nat := 0x2800000 + c * 0x400000
/-- BAR0 offset of the block of die d, numbered as R272: P-dies 0 to 3, C-dies 4 to 7, the hub 8. -/
def dieBase (d : Nat) : Nat := if d < 4 then pdieBase d else if d < 8 then cdieBase (d - 4) else 0

/-- The BAR0 offset of a register. -/
def Reg.addr : Reg → Nat
  | .hubId => 0x0 + 0x0
  | .hubState => 0x0 + 0x10
  | .unitMap => 0x0 + 0x100
  | .laneFence => 0x0 + 0x108
  | .laneStatus => 0x0 + 0x110
  | .coreRate q => 0x0 + 0x120 + 0x8 * (q)
  | .nodeId => 0x0 + 0x200
  | .vaethCfg => 0x0 + 0x208
  | .fabricPrefixHi => 0x0 + 0x210
  | .fabricPrefixLo => 0x0 + 0x218
  | .vaethSa => 0x0 + 0x220
  | .vaethDa => 0x0 + 0x228
  | .fwdCfg => 0x0 + 0x1000
  | .fwdSeed => 0x0 + 0x1008
  | .epochStatus => 0x0 + 0x1010
  | .mirrorCfg m => 0x0 + 0x1100 + 0x8 * (m)
  | .circuitMap i => 0x0 + 0x2000 + 0x8 * (i)
  | .circuitCtl i => 0x0 + 0x3000 + 0x8 * (i)
  | .mgmtCfg => 0x0 + 0x4000
  | .mgmtCtl => 0x0 + 0x4008
  | .mgmtStatus => 0x0 + 0x4010
  | .wdog => 0x0 + 0x4018
  | .tetherSession => 0x0 + 0x4020
  | .tetherStatus => 0x0 + 0x4028
  | .tetherReplayHigh k => 0x0 + 0x4100 + 0x10 * (k)
  | .tetherReplayWindow k => 0x0 + 0x4108 + 0x10 * (k)
  | .mgmtEthCfg p => 0x0 + 0x4200 + 0x8 * (p)
  | .sampleCfg => 0x0 + 0x5000
  | .histCtl => 0x0 + 0x5008
  | .errCfg => 0x0 + 0x6000
  | .errStatus => 0x0 + 0x6008
  | .withdrawCtl => 0x0 + 0x6010
  | .errInject => 0x0 + 0x6030
  | .errCount d => 0x0 + 0x6040 + 0x8 * (d)
  | .sweepCfg => 0x0 + 0x6100
  | .sweepStatus => 0x0 + 0x6108
  | .laneSweep k => 0x0 + 0x6200 + 0x8 * (k)
  | .laneHist k => 0x0 + 0x6400 + 0x8 * (k)
  | .resetCtl => 0x0 + 0x7000
  | .resetStatus => 0x0 + 0x7008
  | .octetSleep i => 0x0 + 0x7010 + 0x8 * (i)
  | .quadPark => 0x0 + 0x7020
  | .powerStatus => 0x0 + 0x7028
  | .cntVal d k => dieBase d + 0x10000 + 0x8 * (k)
  | .cntSel d k => dieBase d + 0x11000 + 0x8 * (k - 256)
  | .hqCtl => 0x100000 + 0x0
  | .hqStatus => 0x100000 + 0x8
  | .hostIrqSts => 0x100000 + 0x10
  | .counterGrant k => 0x100000 + 0x20 + 0x8 * (k)
  | .hostIrqMap i => 0x100000 + 0x100 + 0x8 * (i)
  | .sqBase r => 0x100000 + 0x1000 + 0x40 * (r)
  | .cqBase r => 0x100000 + 0x1008 + 0x40 * (r)
  | .ringCtl r => 0x100000 + 0x1010 + 0x40 * (r)
  | .ringStatus r => 0x100000 + 0x1018 + 0x40 * (r)
  | .icCfg => 0x200000 + 0x0
  | .icSrc s => 0x200000 + 0x8 + 0x8 * (s - 1)
  | .icBank c s => 0x200000 + 0x2000 + 0x8 * (64 * c + s)
  | .icTarget c => 0x200000 + 0x3000 + 0x20 * (c)
  | .icClaim c => 0x200000 + 0x3008 + 0x20 * (c)
  | .icComplete c => 0x200000 + 0x3010 + 0x20 * (c)
  | .tuCfg => 0x300000 + 0x0
  | .tuNow => 0x300000 + 0x8
  | .tuNowHi => 0x300000 + 0x10
  | .tuStep => 0x300000 + 0x28
  | .tuFreq => 0x300000 + 0x30
  | .tuStatus => 0x300000 + 0x38
  | .tuSetNs => 0x300000 + 0x18
  | .tuSetHi => 0x300000 + 0x20
  | .tuPtpEn i => 0x300000 + 0x100 + 0x8 * (i)
  | .secStatus => 0x400000 + 0x0
  | .secCmd => 0x400000 + 0x8
  | .lcNonce => 0x400000 + 0x10
  | .secSerial => 0x400000 + 0x18
  | .idPub i => 0x400000 + 0x100 + 0x8 * (i)
  | .vendorDigest i => 0x400000 + 0x200 + 0x8 * (i)
  | .ownerDigest i => 0x400000 + 0x240 + 0x8 * (i)
  | .extMeasure i => 0x400000 + 0x300 + 0x8 * (i)
  | .secMbox i => 0x400000 + 0x1000 + 0x8 * (i)
  | .zoneTbl q i => pdieBase (q) + 0x100000 + 0x8 * (i)
  | .rowTbl q i => pdieBase (q) + 0x101000 + 0x8 * (i)
  | .rackTbl q i => pdieBase (q) + 0x120000 + 0x8 * (i)
  | .sparTbl q i => pdieBase (q) + 0x200000 + 0x8 * (i)
  | .portFwd n => pdieBase (n / 256) + 0x300000 + 0x8 * (n % 256)
  | .classCfg q i => pdieBase (q) + 0x400000 + 0x8 * (i)
  | .bufClass q i => pdieBase (q) + 0x400040 + 0x8 * (i)
  | .voqCfg q i => pdieBase (q) + 0x400080 + 0x8 * (i)
  | .noticeCfg q => pdieBase (q) + 0x4000c0
  | .spillCfg q => pdieBase (q) + 0x4000c8
  | .bufStatus q => pdieBase (q) + 0x4000d0
  | .schedPort n => pdieBase (n / 256) + 0x410000 + 0x8 * (n % 256)
  | .shaper n t w => pdieBase (n / 256) + 0x420000 + 0x8 * (2 * (8 * (n % 256) + t) + w)
  | .policer q p w => pdieBase (q) + 0x430000 + 0x8 * (2 * p + w)
  | .policeMap n t => pdieBase (n / 256) + 0x440000 + 0x8 * (8 * (n % 256) + t)
  | .voqStat q i => pdieBase (q) + 0x450000 + 0x8 * (i)
  | .portHwm n => pdieBase (n / 256) + 0x460000 + 0x8 * (n % 256)
  | .octetCfg o => pdieBase (o / 32) + 0x500000 + 0x8 * (o % 32)
  | .octetStatus o => pdieBase (o / 32) + 0x500100 + 0x8 * (o % 32)
  | .portLink n => pdieBase (n / 256) + 0x500800 + 0x8 * (n % 256)
  | .linkCtl n => pdieBase (n / 256) + 0x501000 + 0x8 * (n % 256)
  | .collStatus c => cdieBase (c) + 0x1000
  | .recipeW c i => cdieBase (c) + 0x80000 + 0x8 * (i)
  | .bridleW c i => cdieBase (c) + 0x100000 + 0x8 * (i)
  | .memberW c i => cdieBase (c) + 0x200000 + 0x8 * (i)
  | .gondolaCfg => 0x3800000 + 0x0
  | .gondolaStatus => 0x3800000 + 0x8
  | .gondolaSeed => 0x3800000 + 0x10
  | .gondolaWin w => 0x3800000 + 0x100 + 0x8 * (w)
  | .hbmStatus s => 0x3800000 + 0x200 + 0x8 * (s)
  | .floorPath k => 0x3c00000 + 0x0 + 0x8 * (k)
  | .emitCfg => 0x3c00000 + 0x100
  | .emitMap q => 0x3c00000 + 0x180 + 0x8 * (q)
  | .emitStatus e => 0x3c00000 + 0x200 + 0x8 * (e)
  | .calCmd => 0x3c00000 + 0x800
  | .calStatus => 0x3c00000 + 0x808
  | .calLane n w => 0x3c00000 + 0x100000 + 0x8 * (2 * n + w)
  | .liveLane n w => 0x3c00000 + 0x200000 + 0x8 * (2 * n + w)
  | .calFloor j => 0x3c00000 + 0x120000 + 0x8 * (j)
  | .liveFloor j => 0x3c00000 + 0x220000 + 0x8 * (j)

/-- One row of the address map: a kind of register at `off`, `off + stride`, … in its block, `count` of them. -/
structure RegRow where
  off : Nat
  stride : Nat
  count : Nat
  make : Nat → Nat → Reg

/-- The registers of the hub block, by offset. -/
def hubRows : List RegRow := [
  ⟨0x0, 8, 1, fun _ _ => .hubId⟩,
  ⟨0x10, 8, 1, fun _ _ => .hubState⟩,
  ⟨0x100, 8, 1, fun _ _ => .unitMap⟩,
  ⟨0x108, 8, 1, fun _ _ => .laneFence⟩,
  ⟨0x110, 8, 1, fun _ _ => .laneStatus⟩,
  ⟨0x120, 8, 4, fun _ i => .coreRate i⟩,
  ⟨0x200, 8, 1, fun _ _ => .nodeId⟩,
  ⟨0x208, 8, 1, fun _ _ => .vaethCfg⟩,
  ⟨0x210, 8, 1, fun _ _ => .fabricPrefixHi⟩,
  ⟨0x218, 8, 1, fun _ _ => .fabricPrefixLo⟩,
  ⟨0x220, 8, 1, fun _ _ => .vaethSa⟩,
  ⟨0x228, 8, 1, fun _ _ => .vaethDa⟩,
  ⟨0x1000, 8, 1, fun _ _ => .fwdCfg⟩,
  ⟨0x1008, 8, 1, fun _ _ => .fwdSeed⟩,
  ⟨0x1010, 8, 1, fun _ _ => .epochStatus⟩,
  ⟨0x1100, 8, 16, fun _ i => .mirrorCfg i⟩,
  ⟨0x2000, 8, 256, fun _ i => .circuitMap i⟩,
  ⟨0x3000, 8, 256, fun _ i => .circuitCtl i⟩,
  ⟨0x4000, 8, 1, fun _ _ => .mgmtCfg⟩,
  ⟨0x4008, 8, 1, fun _ _ => .mgmtCtl⟩,
  ⟨0x4010, 8, 1, fun _ _ => .mgmtStatus⟩,
  ⟨0x4018, 8, 1, fun _ _ => .wdog⟩,
  ⟨0x4020, 8, 1, fun _ _ => .tetherSession⟩,
  ⟨0x4028, 8, 1, fun _ _ => .tetherStatus⟩,
  ⟨0x4100, 16, 8, fun _ i => .tetherReplayHigh i⟩,
  ⟨0x4108, 16, 8, fun _ i => .tetherReplayWindow i⟩,
  ⟨0x4200, 8, 2, fun _ i => .mgmtEthCfg i⟩,
  ⟨0x5000, 8, 1, fun _ _ => .sampleCfg⟩,
  ⟨0x5008, 8, 1, fun _ _ => .histCtl⟩,
  ⟨0x6000, 8, 1, fun _ _ => .errCfg⟩,
  ⟨0x6008, 8, 1, fun _ _ => .errStatus⟩,
  ⟨0x6010, 8, 1, fun _ _ => .withdrawCtl⟩,
  ⟨0x6030, 8, 1, fun _ _ => .errInject⟩,
  ⟨0x6040, 8, 9, fun _ i => .errCount i⟩,
  ⟨0x6100, 8, 1, fun _ _ => .sweepCfg⟩,
  ⟨0x6108, 8, 1, fun _ _ => .sweepStatus⟩,
  ⟨0x6200, 8, 64, fun _ i => .laneSweep i⟩,
  ⟨0x6400, 8, 64, fun _ i => .laneHist i⟩,
  ⟨0x7000, 8, 1, fun _ _ => .resetCtl⟩,
  ⟨0x7008, 8, 1, fun _ _ => .resetStatus⟩,
  ⟨0x7010, 8, 2, fun _ i => .octetSleep i⟩,
  ⟨0x7020, 8, 1, fun _ _ => .quadPark⟩,
  ⟨0x7028, 8, 1, fun _ _ => .powerStatus⟩]

/-- The registers of the hq block, by offset. -/
def hqRows : List RegRow := [
  ⟨0x0, 8, 1, fun _ _ => .hqCtl⟩,
  ⟨0x8, 8, 1, fun _ _ => .hqStatus⟩,
  ⟨0x10, 8, 1, fun _ _ => .hostIrqSts⟩,
  ⟨0x20, 8, 2, fun _ i => .counterGrant i⟩,
  ⟨0x100, 8, 11, fun _ i => .hostIrqMap i⟩,
  ⟨0x1000, 64, 256, fun _ i => .sqBase i⟩,
  ⟨0x1008, 64, 256, fun _ i => .cqBase i⟩,
  ⟨0x1010, 64, 256, fun _ i => .ringCtl i⟩,
  ⟨0x1018, 64, 256, fun _ i => .ringStatus i⟩]

/-- The registers of the ic block, by offset. -/
def icRows : List RegRow := [
  ⟨0x0, 8, 1, fun _ _ => .icCfg⟩,
  ⟨0x8, 8, 1022, fun _ i => .icSrc (i + 1)⟩,
  ⟨0x2000, 8, 256, fun _ i => .icBank (i / 64) (i % 64)⟩,
  ⟨0x3000, 32, 4, fun _ i => .icTarget i⟩,
  ⟨0x3008, 32, 4, fun _ i => .icClaim i⟩,
  ⟨0x3010, 32, 4, fun _ i => .icComplete i⟩]

/-- The registers of the tu block, by offset. -/
def tuRows : List RegRow := [
  ⟨0x0, 8, 1, fun _ _ => .tuCfg⟩,
  ⟨0x8, 8, 1, fun _ _ => .tuNow⟩,
  ⟨0x10, 8, 1, fun _ _ => .tuNowHi⟩,
  ⟨0x28, 8, 1, fun _ _ => .tuStep⟩,
  ⟨0x30, 8, 1, fun _ _ => .tuFreq⟩,
  ⟨0x38, 8, 1, fun _ _ => .tuStatus⟩,
  ⟨0x18, 8, 1, fun _ _ => .tuSetNs⟩,
  ⟨0x20, 8, 1, fun _ _ => .tuSetHi⟩,
  ⟨0x100, 8, 16, fun _ i => .tuPtpEn i⟩]

/-- The registers of the sec block, by offset. -/
def secRows : List RegRow := [
  ⟨0x0, 8, 1, fun _ _ => .secStatus⟩,
  ⟨0x8, 8, 1, fun _ _ => .secCmd⟩,
  ⟨0x10, 8, 1, fun _ _ => .lcNonce⟩,
  ⟨0x18, 8, 1, fun _ _ => .secSerial⟩,
  ⟨0x100, 8, 8, fun _ i => .idPub i⟩,
  ⟨0x200, 8, 8, fun _ i => .vendorDigest i⟩,
  ⟨0x240, 8, 8, fun _ i => .ownerDigest i⟩,
  ⟨0x300, 8, 8, fun _ i => .extMeasure i⟩,
  ⟨0x1000, 8, 512, fun _ i => .secMbox i⟩]

/-- The registers of the pdie block, by offset. -/
def pdieRows : List RegRow := [
  ⟨0x100000, 8, 16, fun d i => .zoneTbl d i⟩,
  ⟨0x101000, 8, 1024, fun d i => .rowTbl d i⟩,
  ⟨0x120000, 8, 65536, fun d i => .rackTbl d i⟩,
  ⟨0x200000, 8, 131072, fun d i => .sparTbl d i⟩,
  ⟨0x300000, 8, 256, fun d i => .portFwd (256 * d + i)⟩,
  ⟨0x400000, 8, 8, fun d i => .classCfg d i⟩,
  ⟨0x400040, 8, 8, fun d i => .bufClass d i⟩,
  ⟨0x400080, 8, 8, fun d i => .voqCfg d i⟩,
  ⟨0x4000c0, 8, 1, fun d _ => .noticeCfg d⟩,
  ⟨0x4000c8, 8, 1, fun d _ => .spillCfg d⟩,
  ⟨0x4000d0, 8, 1, fun d _ => .bufStatus d⟩,
  ⟨0x410000, 8, 256, fun d i => .schedPort (256 * d + i)⟩,
  ⟨0x420000, 8, 4096, fun d i => .shaper (256 * d + i / 16) (i / 2 % 8) (i % 2)⟩,
  ⟨0x430000, 8, 2048, fun d i => .policer d (i / 2) (i % 2)⟩,
  ⟨0x440000, 8, 2048, fun d i => .policeMap (256 * d + i / 8) (i % 8)⟩,
  ⟨0x450000, 8, 8192, fun d i => .voqStat d i⟩,
  ⟨0x460000, 8, 256, fun d i => .portHwm (256 * d + i)⟩,
  ⟨0x500000, 8, 32, fun d i => .octetCfg (32 * d + i)⟩,
  ⟨0x500100, 8, 32, fun d i => .octetStatus (32 * d + i)⟩,
  ⟨0x500800, 8, 256, fun d i => .portLink (256 * d + i)⟩,
  ⟨0x501000, 8, 256, fun d i => .linkCtl (256 * d + i)⟩]

/-- The registers of the cdie block, by offset. -/
def cdieRows : List RegRow := [
  ⟨0x1000, 8, 1, fun d _ => .collStatus d⟩,
  ⟨0x80000, 8, 1024, fun d i => .recipeW d i⟩,
  ⟨0x100000, 8, 131072, fun d i => .bridleW d i⟩,
  ⟨0x200000, 8, 262144, fun d i => .memberW d i⟩]

/-- The registers of the hbm block, by offset. -/
def hbmRows : List RegRow := [
  ⟨0x0, 8, 1, fun _ _ => .gondolaCfg⟩,
  ⟨0x8, 8, 1, fun _ _ => .gondolaStatus⟩,
  ⟨0x10, 8, 1, fun _ _ => .gondolaSeed⟩,
  ⟨0x100, 8, 16, fun _ i => .gondolaWin i⟩,
  ⟨0x200, 8, 12, fun _ i => .hbmStatus i⟩]

/-- The registers of the flr block, by offset. -/
def flrRows : List RegRow := [
  ⟨0x0, 8, 20, fun _ i => .floorPath i⟩,
  ⟨0x100, 8, 1, fun _ _ => .emitCfg⟩,
  ⟨0x180, 8, 4, fun _ i => .emitMap i⟩,
  ⟨0x200, 8, 144, fun _ i => .emitStatus i⟩,
  ⟨0x800, 8, 1, fun _ _ => .calCmd⟩,
  ⟨0x808, 8, 1, fun _ _ => .calStatus⟩,
  ⟨0x100000, 8, 2048, fun _ i => .calLane (i / 2) (i % 2)⟩,
  ⟨0x200000, 8, 2048, fun _ i => .liveLane (i / 2) (i % 2)⟩,
  ⟨0x120000, 8, 1600, fun _ i => .calFloor i⟩,
  ⟨0x220000, 8, 1600, fun _ i => .liveFloor i⟩]

/-- The registers of the die block, by offset. -/
def dieRows : List RegRow := [
  ⟨0x10000, 8, 512, fun d i => .cntVal d i⟩,
  ⟨0x11000, 8, 256, fun d i => .cntSel d (i + 256)⟩]

/-- The register at offset `o` of block instance `d`, from a block's rows. -/
def findRow (rows : List RegRow) (d o : Nat) : Option Reg :=
  (rows.find? fun r => decide (r.off ≤ o) && (o - r.off) % r.stride == 0 && decide ((o - r.off) / r.stride < r.count)).map
    fun r => r.make d ((o - r.off) / r.stride)

/-- The register at a BAR0 offset that is a multiple of 8, if one stands there (R253). -/
def Reg.ofAddr (a : Nat) : Option Reg :=
  if a < 0x100000 then (findRow hubRows 0 a).or (findRow dieRows 8 a)
  else if a < 0x200000 then findRow hqRows 0 (a - 0x100000)
  else if a < 0x300000 then findRow icRows 0 (a - 0x200000)
  else if a < 0x400000 then findRow tuRows 0 (a - 0x300000)
  else if a < 0x800000 then findRow secRows 0 (a - 0x400000)
  else if a < 0x2800000 then
    let d := (a - 0x800000) / 0x800000
    let o := (a - 0x800000) % 0x800000
    (findRow pdieRows d o).or (findRow dieRows d o)
  else if a < 0x3800000 then
    let d := (a - 0x2800000) / 0x400000
    let o := (a - 0x2800000) % 0x400000
    (findRow cdieRows d o).or (findRow dieRows (d + 4) o)
  else if a < 0x3C00000 then findRow hbmRows 0 (a - 0x3800000)
  else if a < 0x4000000 then findRow flrRows 0 (a - 0x3C00000)
  else none

/-- The RW bits of a register (R9). -/
def Reg.rwMask : Reg → BitVec 64
  | .nodeId => 0x8000000000ffffff
  | .vaethCfg => 0x3fff3f3f03ffff
  | .fabricPrefixHi => 0xffffffffffffffff
  | .fabricPrefixLo => 0xffffffffff000000
  | .vaethSa => 0xffffffffffff
  | .vaethDa => 0xffffffffffff
  | .fwdCfg => 0xfffffffff03
  | .fwdSeed => 0xffffffff00000000
  | .mirrorCfg _ => 0x1fffffffffff
  | .circuitMap _ => 0x1ffffffffff03ff
  | .mgmtCfg => 0xffffffff03ffffff
  | .wdog => 0x3fff
  | .mgmtEthCfg _ => 0x3
  | .sampleCfg => 0x3fff01
  | .histCtl => 0xffffffff000007fe
  | .errCfg => 0x1ff
  | .withdrawCtl => 0xffff0001
  | .errInject => 0x3ff
  | .sweepCfg => 0xffffff01
  | .octetSleep _ => 0xffffffffffffffff
  | .quadPark => 0xf
  | .cntVal _ _ => 0xffffffffffff
  | .cntSel _ _ => 0x7fffffff
  | .hqCtl => 0xffff
  | .counterGrant _ => 0xffffffffffffffff
  | .hostIrqMap _ => 0xfff
  | .sqBase _ => 0xfffffffffffff000
  | .cqBase _ => 0xfffffffffffff000
  | .ringCtl _ => 0x3ffffffffff
  | .icCfg => 0x1
  | .icSrc _ => 0x7
  | .icBank _ _ => 0x7
  | .icTarget _ => 0x1
  | .tuCfg => 0xffffff07ffffffff
  | .tuFreq => 0xffffffff
  | .tuSetNs => 0xffffffffffffffff
  | .tuPtpEn _ => 0xffffffffffffffff
  | .secMbox _ => 0xffffffffffffffff
  | .zoneTbl _ _ => 0xfff07
  | .rowTbl _ _ => 0xfff07
  | .rackTbl _ _ => 0xfff07
  | .sparTbl _ _ => 0xf3ff0000f3ff
  | .portFwd _ => 0x1fff3
  | .classCfg _ _ => 0xffffffff
  | .bufClass _ _ => 0xfff0fff
  | .voqCfg _ _ => 0xffffffffffffffff
  | .noticeCfg _ => 0xffff03
  | .spillCfg _ => 0x7f1f01
  | .schedPort _ => 0xffffffffffff
  | .shaper _ _ _ => 0xfffff0000ffff
  | .policer _ _ _ => 0xfffff0000ffff
  | .policeMap _ _ => 0xfff
  | .octetCfg _ => 0xffffff3f
  | .gondolaCfg => 0xffff03ff01ff01
  | .gondolaWin _ => 0x7ffff0007ffff
  | .emitCfg => 0x1fffff
  | _ => 0

/-- The RW1C bits of a register (R9). -/
def Reg.w1cMask : Reg → BitVec 64
  | .circuitCtl _ => 0x800
  | .resetStatus => 0x1
  | .powerStatus => 0x10
  | .cntVal _ _ => 0x1000000000000
  | .hqStatus => 0x100000
  | .hostIrqSts => 0x7ff
  | .icCfg => 0x2
  | .tuStatus => 0x3
  | .secStatus => 0x300000
  | .bufStatus _ => 0x100000
  | .octetStatus _ => 0x1
  | .linkCtl _ => 0x4
  | .gondolaStatus => 0x1
  | .calStatus => 0x10
  | _ => 0

/-- The RW1S bits of a register (R9). -/
def Reg.w1sMask : Reg → BitVec 64
  | .laneFence => 0xffffffffffffffff
  | .histCtl => 0x1
  | .errInject => 0x400
  | .icSrc _ => 0x1000000
  | .icBank _ _ => 0x1000000
  | _ => 0

/-- The WO bits of a register (R9). -/
def Reg.woMask : Reg → BitVec 64
  | .circuitCtl _ => 0x7
  | .mgmtCtl => 0xffff000000000001
  | .wdog => 0x4000
  | .resetCtl => 0xffff000000007f07
  | .icComplete _ => 0x3ff
  | .tuStep => 0x1ffffffffffff
  | .tuSetHi => 0x1ffff
  | .secCmd => 0xffff00000000000f
  | .linkCtl _ => 0x3
  | .calCmd => 0xffff000000007f0f
  | _ => 0

/-- The RC bits of a register (R9). -/
def Reg.rcMask : Reg → BitVec 64
  | .tetherStatus => 0xfffffffffffff
  | .mgmtEthCfg _ => 0xffff00000000
  | .errCount _ => 0xffffffffffff
  | .hqStatus => 0xffff00000000
  | .icClaim _ => 0xff03ff
  | .portHwm _ => 0x7ffffffffffff
  | .hbmStatus _ => 0xffffffff
  | _ => 0

/-- The Reset value of a register, as the spec's tables give it; fields whose Reset column reads OTP or CAL are computed
from their source when the register is read and count as 0 here. -/
def Reg.reset : Reg → BitVec 64
  | .hubId => 0x1024
  | .vaethCfg => 0x240038300188b5
  | .vaethSa => 0x20000000000
  | .vaethDa => 0x20000000001
  | .fwdCfg => 0x12c00000000
  | .mgmtCfg => 0xc819b79800000000
  | .wdog => 0x3e8
  | .sampleCfg => 0x1000
  | .withdrawCtl => 0x140000
  | .errInject => 0x100
  | .sweepCfg => 0x30a0a01
  | .hqCtl => 0x64
  | .ringCtl _ => 0x1318
  | .tuCfg => 0x3e80000000003e8
  | .portFwd _ => 0x1000
  | .classCfg _ i => BitVec.ofNat 64 ((if i = 5 ∨ i = 6 then 20000 else 2000)) ||| 0x640000
  | .bufClass _ i => BitVec.ofNat 64 (([32, 32, 256, 64, 64, 64, 64, 64].getD i 0)) ||| BitVec.ofNat 64 (([32, 32, 768, 1536, 1536, 1024, 1024, 512].getD i 0) * 0x10000)
  | .voqCfg _ i => BitVec.ofNat 64 (([128, 128, 512, 256, 256, 2048, 2048, 256].getD i 0)) ||| BitVec.ofNat 64 (([0, 0, 128, 64, 64, 512, 512, 64].getD i 0) * 0x1000000) ||| 0x200000000000000
  | .noticeCfg _ => 0x1403
  | .spillCfg _ => 0x140000
  | .schedPort _ => 0x41010202040
  | .shaper _ _ _ => 0x1000000000
  | .policer _ _ _ => 0x1000000000
  | .octetCfg _ => 0x3e80430
  | .gondolaCfg => 0x19180064000000
  | .emitCfg => 0x1af320
  | _ => 0

/-- The Cleared-by codes of R10 that name a reset kind; NV and — name none. -/
inductive ResetCode where
  | por | chip | dp | qd | port | mgmt | flr
deriving DecidableEq, Repr

/-- The bits of a register that carry the given Cleared-by code (R10). -/
def Reg.clr : Reg → ResetCode → BitVec 64
  | .hubId, .chip => 0xff0000
  | .hubId, .mgmt => 0xffffffff00000000
  | .hubState, .chip => 0x7
  | .hubState, .mgmt => 0x28
  | .hubState, .dp => 0x10
  | .unitMap, .chip => 0xffffffffffffffff
  | .coreRate _, .qd => 0x3ff0fff0fff
  | .nodeId, .chip => 0x8000000000ffffff
  | .vaethCfg, .chip => 0x3fff3f3f03ffff
  | .fabricPrefixHi, .chip => 0xffffffffffffffff
  | .fabricPrefixLo, .chip => 0xffffffffff000000
  | .vaethSa, .chip => 0xffffffffffff
  | .vaethDa, .chip => 0xffffffffffff
  | .fwdCfg, .chip => 0xfffffffff03
  | .fwdSeed, .chip => 0xffffffffffffffff
  | .epochStatus, .chip => 0xffffffffffffffff
  | .mirrorCfg _, .chip => 0x1fffffffffff
  | .circuitMap _, .chip => 0x81ffffffffff03ff
  | .circuitCtl _, .chip => 0xffffffff00000f07
  | .mgmtCfg, .chip => 0xffffffff03ffffff
  | .mgmtCtl, .chip => 0xffff000000000001
  | .mgmtStatus, .por => 0x7ffff
  | .mgmtStatus, .chip => 0x80000
  | .wdog, .chip => 0x7fff
  | .tetherSession, .chip => 0xffffffffffffffff
  | .tetherStatus, .chip => 0x1fffffffffffffff
  | .tetherReplayHigh _, .chip => 0xffffffffffffffff
  | .tetherReplayWindow _, .chip => 0xffffffffffffffff
  | .mgmtEthCfg _, .chip => 0xffff00000007
  | .sampleCfg, .chip => 0x3fff01
  | .histCtl, .chip => 0xffffffff000007ff
  | .errCfg, .flr => 0x1ff
  | .errStatus, .qd => 0xf
  | .errStatus, .chip => 0xffff0010
  | .withdrawCtl, .chip => 0xffff0007
  | .errInject, .chip => 0x7ff
  | .errCount d, .qd => if d < 8 then 0xffffffffffff else 0
  | .errCount d, .chip => if d < 8 then 0 else 0xffffffffffff
  | .sweepCfg, .chip => 0xffffff01
  | .sweepStatus, .mgmt => 0x3ffffffffffff
  | .resetCtl, .chip => 0xffff000000007f07
  | .resetStatus, .chip => 0x1
  | .resetStatus, .qd => 0x1e
  | .resetStatus, .dp => 0x20
  | .octetSleep _, .port => 0xffffffffffffffff
  | .quadPark, .qd => 0xf
  | .powerStatus, .qd => 0xf
  | .powerStatus, .chip => 0x10
  | .cntVal d _, .qd => if d < 8 then 0x1ffffffffffff else 0
  | .cntVal d _, .chip => if d < 8 then 0 else 0x1ffffffffffff
  | .cntSel _ _, .chip => 0x7fffffff
  | .hqCtl, .flr => 0xffff
  | .hqStatus, .flr => 0xffff001fffff
  | .hostIrqSts, .flr => 0x7ff
  | .counterGrant _, .flr => 0xffffffffffffffff
  | .hostIrqMap _, .flr => 0xfff
  | .sqBase _, .flr => 0xfffffffffffff000
  | .cqBase _, .flr => 0xfffffffffffff000
  | .ringCtl _, .flr => 0x3ffffffffff
  | .ringStatus _, .flr => 0xffffffffffffff
  | .icCfg, .mgmt => 0xffff0003
  | .icSrc _, .mgmt => 0x1ff0307
  | .icBank _ _, .mgmt => 0x1ff0307
  | .icTarget _, .mgmt => 0xfff
  | .icClaim _, .mgmt => 0xff03ff
  | .icComplete _, .mgmt => 0x3ff
  | .tuCfg, .chip => 0xffffff07ffffffff
  | .tuNow, .chip => 0xffffffffffffffff
  | .tuNowHi, .chip => 0xffff
  | .tuStep, .chip => 0x1ffffffffffff
  | .tuFreq, .chip => 0xffffffff
  | .tuStatus, .chip => 0xffffffffffff000f
  | .tuSetNs, .chip => 0xffffffffffffffff
  | .tuSetHi, .chip => 0x1ffff
  | .tuPtpEn _, .chip => 0xffffffffffffffff
  | .secStatus, .chip => 0x3fffff
  | .secCmd, .chip => 0xffff00000000000f
  | .lcNonce, .chip => 0xffffffffffffffff
  | .secSerial, .chip => 0xffffffffffffffff
  | .idPub _, .chip => 0xffffffffffffffff
  | .vendorDigest _, .chip => 0xffffffffffffffff
  | .ownerDigest _, .chip => 0xffffffffffffffff
  | .extMeasure _, .chip => 0xffffffffffffffff
  | .secMbox _, .chip => 0xffffffffffffffff
  | .zoneTbl _ _, .chip => 0x80000000000fff07
  | .rowTbl _ _, .chip => 0x80000000000fff07
  | .rackTbl _ _, .chip => 0x80000000000fff07
  | .sparTbl _ _, .chip => 0x8000f3ff0000f3ff
  | .portFwd _, .chip => 0xfff0007fff3
  | .portFwd _, .port => 0x180000
  | .classCfg _ _, .chip => 0xffffffff
  | .bufClass _ _, .chip => 0xfff0fff
  | .bufClass _ _, .qd => 0xfff00000000
  | .voqCfg _ _, .chip => 0xffffffffffffffff
  | .noticeCfg _, .chip => 0xffff03
  | .spillCfg _, .chip => 0x7f1f01
  | .bufStatus _, .qd => 0xffffff001fffff
  | .schedPort _, .chip => 0x1ffffffffffff
  | .shaper _ _ _, .chip => 0xfffff0000ffff
  | .policer _ _ _, .chip => 0xfffff0000ffff
  | .policeMap _ _, .chip => 0xfff
  | .voqStat _ _, .qd => 0xffffffffffffffff
  | .portHwm _, .port => 0x7ffffffffffff
  | .octetCfg _, .chip => 0xffffff3f
  | .octetStatus _, .chip => 0x1
  | .portLink _, .port => 0xffffffff0003ff07
  | .linkCtl _, .port => 0x7
  | .collStatus _, .qd => 0x3fff
  | .collStatus _, .dp => 0x3ffff7fff0000
  | .collStatus _, .mgmt => 0x4000000000000
  | .recipeW _ _, .chip => 0xffffffffffffffff
  | .gondolaCfg, .chip => 0xffff03ff01ff01
  | .gondolaStatus, .chip => 0x1
  | .gondolaStatus, .dp => 0x7ffffff00000000
  | .gondolaSeed, .chip => 0xffffffff
  | .gondolaWin _, .chip => 0x7ffff0007ffff
  | .hbmStatus _, .qd => 0xffffffff
  | .hbmStatus _, .por => 0xffff00000000
  | .floorPath _, .chip => 0xffffffff0000ffff
  | .emitCfg, .chip => 0x1fffff
  | .emitStatus _, .qd => 0x7f3fff
  | .calCmd, .chip => 0xffff000000007f0f
  | .calStatus, .chip => 0xff1f
  | _, _ => 0

/-- The quadrant a register belongs to, for the scope of a quadrant reset (R10, R22). -/
def Reg.quad : Reg → Option Nat
  | .zoneTbl q _ => some (q)
  | .rowTbl q _ => some (q)
  | .rackTbl q _ => some (q)
  | .sparTbl q _ => some (q)
  | .portFwd n => some (n / 256)
  | .classCfg q _ => some (q)
  | .bufClass q _ => some (q)
  | .voqCfg q _ => some (q)
  | .noticeCfg q => some (q)
  | .spillCfg q => some (q)
  | .bufStatus q => some (q)
  | .schedPort n => some (n / 256)
  | .shaper n _ _ => some (n / 256)
  | .policer q _ _ => some (q)
  | .policeMap n _ => some (n / 256)
  | .voqStat q _ => some (q)
  | .portHwm n => some (n / 256)
  | .octetCfg o => some (o / 32)
  | .octetStatus o => some (o / 32)
  | .portLink n => some (n / 256)
  | .linkCtl n => some (n / 256)
  | .collStatus c => some c
  | .recipeW c _ => some c
  | .bridleW c _ => some c
  | .memberW c _ => some c
  | .coreRate q => some q
  | .hbmStatus s => some (s / 3)
  | .emitStatus e => some (e / 36)
  | .errCount d => if d < 8 then some (d % 4) else none
  | .cntVal d _ => if d < 8 then some (d % 4) else none
  | .cntSel d _ => if d < 8 then some (d % 4) else none
  | _ => none

/-- The octet a register belongs to, for the scope of a port reset (R10, R22). -/
def Reg.octet : Reg → Option Nat
  | .portFwd n => some (n / 8)
  | .portHwm n => some (n / 8)
  | .portLink n => some (n / 8)
  | .linkCtl n => some (n / 8)
  | .octetCfg o => some o
  | .octetStatus o => some o
  | .schedPort n => some (n / 8)
  | .shaper n _ _ => some (n / 8)
  | .policeMap n _ => some (n / 8)
  | _ => none

end Sys2Proof.Machine
end

