-- ==== Sys2Proof/Machine/State.lean ====
section
/-! DEFINITION. The state of the block as plain data: registers, frames and queues, forwarding tables, collective
contexts, and the queue of waiting commands. -/

namespace Sys2Proof.Machine

/-- The registers that differ from their Reset value (R6, R7). A register not listed holds its Reset value. -/
abbrev RegMap := List (Reg × W64)

/-! ## Frames and queues (spec/02 to spec/04) -/

/-- The Vaeth header (R43), every bit of it. -/
structure VHdr where
  ver : BitVec 4
  rsvd0 : BitVec 1
  tc : BitVec 3
  fence : BitVec 1
  noSpray : BitVec 1
  rsvd1 : BitVec 3
  defl : BitVec 3
  opcode : Byte
  status : Byte
  dst : Node
  src : Node
  plen : BitVec 16
  roff : BitVec 40
  rsvd17 : Byte
  seq : BitVec 32
  opData : W64
  check : BitVec 16
deriving DecidableEq, Repr

/-- A route (R62): one port, a Spar, a multicast group, a group flood over a Spar (R76), or none. -/
inductive Route where
  | port (n : Nat)
  | spar (s : Nat)
  | mcast (g : Nat)
  | flood (s : Nat)
  | none
deriving DecidableEq, Repr

/-- Where one copy of a held frame waits (R96). `landing` is also the originating block of a frame of the chip's own. -/
inductive Spot where
  | landing | queue | spill | floor | staging | wire
deriving DecidableEq, Repr

/-- One copy of a frame on its way to an egress port; `join` orders the frames of a queue (R100). -/
structure Copy where
  port : Nat
  spot : Spot
  join : Nat
  /-- floor cells that have not crossed yet (R240) -/
  left : Nat
  /-- a word of this copy stayed uncorrected after its transmission had begun (R319) -/
  bad : Bool
deriving DecidableEq, Repr

/-- The sampling tag of a frame (R313 to R315): its number, STAMP32 at point 1, the slot counts of the points reached, and
the flags of the record. -/
structure SampleTag where
  tagId : BitVec 32
  stamp : BitVec 32
  pts : List (Nat × Nat)
  /-- the egress port whose copy of the frame the tag follows (R313) -/
  port : Option Nat
  spilled : Bool
  sprayed : Bool
deriving DecidableEq, Repr

/-- A frame that the chip forwards or originates, until its last copy has left. -/
structure Held where
  /-- arrival number in the chip, over all ports (R82) -/
  id : Nat
  frame : Frame
  /-- the Vaeth header, absent in a standard frame -/
  hdr : Option VHdr
  /-- the class it queues in -/
  cls : Nat
  /-- the P-die whose buffer it uses -/
  die : Nat
  /-- the ingress port; none for a frame of the chip's own -/
  inPort : Option Nat
  /-- slot count of the first byte, in the time base of `die` -/
  born : Nat
  route : Route
  copies : List Copy
  /-- a multicast or flooded frame (R86) -/
  mcast : Bool
  /-- deflected in this chip (R106) -/
  deflected : Bool
  /-- a TC2 frame that leaves from Ballast (R99) -/
  ballast : Bool
  /-- the FCS proved wrong, or MAX_FRAME was passed, after the frame was let through (R41) -/
  badTail : Bool
  tag : Option SampleTag
deriving DecidableEq, Repr

/-- A frame the chip consumes, waiting in its landing zone for the unit that serves it (R97). -/
structure Taken where
  id : Nat
  port : Nat
  frame : Frame
  hdr : VHdr
  born : Nat
  tag : Option SampleTag
deriving DecidableEq, Repr

/-- What one virtual output queue keeps besides its frames (R109): the sources of the last frames admitted, newest first,
none for a standard frame, and the bytes dequeued in the running and in the last complete sample interval. -/
structure Voq where
  srcs : List (Option Node)
  deqNow : Nat
  deqLast : Nat
deriving DecidableEq, Repr

/-- A key of the notice filter (R111) with the slot of its last send. -/
structure NoticeKey where
  opcode : Nat
  target : Node
  dst : Node
  cls : Nat
  time : Nat
deriving DecidableEq, Repr

/-- An entry of the Route exception table (R68) in one replica; `ovf` says that it stands in the overflow store, `lastHit` is the
slot of its last refresh (R72). PARITY is not stored: `Fwd.bad` names the entries whose parity is bad. -/
structure ExcEnt where
  node : Node
  static : Bool
  kind : Nat
  target : Nat
  hit : Bool
  ovf : Bool
  lastHit : Nat
  /-- placed under the new seed of the running rehash (R265) -/
  moved : Bool
deriving DecidableEq, Repr

/-- Forwarding state beside the registers (spec/03). -/
structure Fwd where
  /-- the replicas of the exception table -/
  exc : Four (List ExcEnt)
  /-- the replicas of the multicast table: groups whose mask is not 0, with the mask's ports -/
  mcast : Four (List (Nat × List Nat))
  /-- learn requests waiting in each P-die: source node and ingress port (R74) -/
  learnQ : Four (List (Node × Nat))
  /-- slot of the last write of LEARN_AGE (R72) -/
  ageWrite : Nat
  /-- the count of each mirror session (R87) -/
  mirror : List (Nat × Nat)
  /-- table entries found with bad parity, by the die whose replica is bad (R70) -/
  bad : List (TblRef × Nat)
  /-- values that a P-die still holds of hub registers written while its hub path was lost (R21, R61) -/
  stale : List (Nat × Reg × W64)
  /-- the notices gathered by a STAGE_COMMIT for its one re-route, level and key (R269); none at any other time -/
  gathered : Option (List (Nat × Node))
deriving DecidableEq, Repr

/-- Frames in the chip and the packet buffers (spec/04). -/
structure Buf where
  held : List Held
  taken : List Taken
  nextId : Nat
  nextJoin : Nat
  /-- the queues that differ from empty, by P-die × 8192 + v (R100) -/
  voq : List (Nat × Voq)
  /-- the notice filter of each P-die, least recently used first (R111) -/
  filter : Four (List NoticeKey)
  /-- the notice count of R57 -/
  noticeSeq : BitVec 32
  /-- bytes moved to and from the spill region in the running 1 µs interval (R103; log entry 10) -/
  spillNow : Four Nat
  /-- depth samples taken by each P-die (R121), and the 1 µs interval of its time base that was sampled last -/
  samples : Four (BitVec 16)
  sampledAt : Four Nat
deriving DecidableEq, Repr

/-- Tags of one band of level 1 (R114), for classes 0 to 7 (0 and 1 unused). -/
structure Band where
  vtime : Nat
  start : List Nat
  finish : List Nat
deriving DecidableEq, Repr

/-- The deficit round robin of one class of a port (R113): whose turn it is (P-dies 0 to 3, then the C-dies' frames)
and the deficits. -/
structure Drr where
  turn : Nat
  deficit : List Nat
deriving DecidableEq, Repr

/-- The scheduler of an egress port (R113 to R116). -/
structure Sched where
  comm : Band
  exc : Band
  /-- the weight-0 class served last (R115) -/
  w0 : Nat
  drr : List Drr
  /-- the starvation timer of each class, in slots -/
  starve : List Nat
  promoted : List Bool
deriving DecidableEq, Repr

/-- A pair of token buckets (R117, R119), in units of 1/80 byte, with the time of the last refill in ns. -/
structure Bucket where
  c : Int
  p : Int
  last : Nat
deriving DecidableEq, Repr

/-- A shaper (egress port, class) or a policer (P-die, number). -/
inductive BucketRef where
  | shaper (n t : Nat)
  | policer (q p : Nat)
deriving DecidableEq, Repr

/-- Egress schedulers and meters. -/
structure Egr where
  /-- schedulers that differ from their state after a reset, by port -/
  sched : List (Nat × Sched)
  /-- buckets that are not full -/
  buckets : List (BucketRef × Bucket)
deriving DecidableEq, Repr

/-! ## Collective groups (spec/05, spec/06) -/

/-- One accumulator (R169 to R171): binary32, 32-bit integer, or 320-bit superaccumulator with its tag. -/
inductive AccV where
  | f32 (v : BitVec 32)
  | i32 (v : BitVec 32)
  | exact (v : Int) (tag : Fin 4)
deriving DecidableEq, Repr

/-- A quadrant's context of one sequence (R142): what the C-die that serves quadrant `quad` (its own, or in twin mode its
twin's, R185) has taken in. -/
structure QCtx where
  quad : Nat
  twin : Bool
  /-- members taken in -/
  got : List Nat
  /-- accumulators of the virtual lanes in use, by virtual lane -/
  lanes : List (Nat × List AccV)
  /-- contributions each virtual lane received (R182) -/
  taken : List (Nat × Nat)
  /-- digests of a VOTE, by member (R187) -/
  digests : List (Nat × List Byte)
  /-- the payload of KIND 2 and 3 -/
  carried : Option (List Byte)
  /-- the partial has left for the home die -/
  sent : Bool
  /-- the partial has reached the home die -/
  home : Bool
deriving DecidableEq, Repr

/-- The states of a position at the home die (R143). -/
inductive PosState where
  | free | opened | up | hold
deriving DecidableEq, Repr

/-- A position of a Bridle (R140, R143). -/
structure Pos where
  expect : BitVec 32
  early : Bool
  state : PosState
  roff : BitVec 40
  ctx : List QCtx
  /-- the partial (UP) or the result (HOLD) held -/
  data : List Byte
  /-- receiving members whose RESULT_ACK has come -/
  acked : List Nat
  /-- requests and resends counted by member (R146); 1024 counts those toward the parent -/
  tries : List (Nat × Nat)
  /-- slot at which the straggler timer was started; none while it is stopped -/
  straggle : Option Nat
  /-- slot at which the abort timer was started -/
  opened : Nat
deriving DecidableEq, Repr

/-- A member entry (R130). -/
structure Member where
  port : Nat
  valid : Bool
  ordered : Bool
  node : Node
  rankLo : Nat
  rankN : Nat
deriving DecidableEq, Repr

/-- STATE of a Bridle (R129); FREE entries are not listed. -/
inductive BState where
  | pending | ready | draining | aborted
deriving DecidableEq, Repr

/-- A checked Tether message or joined transaction that waits for its T_TYPE's step (R296 to R301). -/
structure TReq where
  typ : Nat
  key : Nat
  session : W64
  tseq : W64
  sender : Node
  body : List Byte
  carrier : Nat
  port : Nat
deriving DecidableEq, Repr

/-- Who gave a command and waits for its completion: a started host descriptor, or a Tether CMD (R265, R297). -/
inductive CmdFrom where
  | host (ix : Nat)
  | tether (t : TReq)
deriving DecidableEq, Repr

/-- An active Bridle (R129). -/
structure Bridle where
  ix : Nat
  group : BitVec 16
  gen : BitVec 8
  state : BState
  kind : Nat
  exact : Bool
  twin : Bool
  winLog2 : Nat
  home : Nat
  canon : Nat
  recipe : Nat
  parentPort : Nat
  parentEn : Bool
  parentMember : Nat
  parentNode : Node
  memberBase : Nat
  members : List Member
  elements : Nat
  chunkUnits : Nat
  straggleUs : Nat
  abortUs : Nat
  ranks : Nat
  ownerShift : Nat
  rootRank : Nat
  firstSeq : BitVec 32
  seqLow : BitVec 32
  abortSeq : BitVec 32
  abortReason : Nat
  abortMember : Nat
  /-- Ballast slots reserved on C-die[0] to C-die[3] (R132) -/
  slots : Four Nat
  pos : List Pos
  /-- members that have sent a collective frame of the generation (R134) -/
  heard : List Nat
  /-- READY repeats sent so far, and the slot of the entry into PENDING or READY (R134) -/
  repeats : Nat
  since : Nat
  /-- stage control table set in use (R281) -/
  stageSet : Nat
  /-- the closes that have been commanded and wait for their completion -/
  closers : List CmdFrom
deriving DecidableEq, Repr

/-- Collective state of the chip. -/
structure Coll where
  bridles : List Bridle
  /-- Bridles, by index, that the replica of a C-die lacks since its hub path was lost when they were created (R256) -/
  absent : List (Nat × Nat)
  /-- the last generation recorded for a group number since chip reset (R131) -/
  lastGen : List (BitVec 16 × BitVec 8)
deriving DecidableEq, Repr

/-! ## The Gondola tier (spec/07) -/

/-- A directory entry (R207); PARITY is computed when the entry is read out. -/
structure DirEnt where
  keyLo : W64
  keyHi : W64
  locOffset : BitVec 40
  locNode : Node
  size : BitVec 3
  tag : BitVec 32
  /-- held in the overflow store of its C-die (R206) -/
  ovf : Bool
  /-- placed under the new seed of the running rehash (R265) -/
  moved : Bool
deriving DecidableEq, Repr

/-- A slot of an atomic record (R212): sequence, whether the outcome stands, and the response's STATUS and old value. -/
structure AtomSlot where
  seq : BitVec 32
  done : Bool
  status : Nat
  old : W64
deriving DecidableEq, Repr

/-- An atomic record of one requester (R212). `lastUse` is the slot count of the last request. -/
structure AtomRec where
  die : Nat
  requester : Node
  high : BitVec 32
  slots : List (Nat × AtomSlot)
  poisoned : Bool
  lastUse : Nat
deriving DecidableEq, Repr

/-- An admitted atomic on its way to the execution die (R211), with the header of its request and its operands. -/
structure AtomReq where
  hdr : VHdr
  body : List Byte
  port : Nat
  /-- the word's quadrant was reset after the admission (R212) -/
  lost : Bool
  /-- retries waiting under WAIT, with the port of their arrival: they are answered with REPLAYED = 1 -/
  waiters : List (VHdr × Nat)
deriving DecidableEq, Repr

/-- A step of a segment of a copy (R202, R204). -/
inductive SegState where
  | todo | reading | held | writing | done
deriving DecidableEq, Repr

/-- A segment of a copy in work: its place in the copy, its data once read, how often it was reissued and when its frame was sent. -/
structure Seg where
  off : Nat
  len : Nat
  st : SegState
  seq : BitVec 32
  data : List Byte
  reissues : Nat
  sentAt : Nat
deriving DecidableEq, Repr

/-- Where a copy came from, and so where its end is reported (R205, R266). -/
inductive CopyFrom where
  /-- the copy-engine commands of a host ring: ring and slot of the descriptor -/
  | host (r : Nat) (ix : Nat)
  | fabric (req : VHdr) (notify : Node)
deriving DecidableEq, Repr

/-- What a copy engine moves: node to node, host memory to Gondola, or Gondola to host memory. -/
inductive CopyKind where
  | copy | fromHost | toHost
deriving DecidableEq, Repr

/-- A copy descriptor held by a C-die (R200 to R204). -/
structure CopyDesc where
  id : Nat
  from_ : CopyFrom
  kind : CopyKind
  lastAfterAck : Bool
  cls6 : Bool
  tag : BitVec 32
  srcNode : Node
  srcOff : Nat
  dstNode : Node
  dstOff : Nat
  len : Nat
  /-- host memory address of `fromHost` and `toHost` -/
  hostAddr : W64
  /-- bytes cut into segments so far -/
  cut : Nat
  segs : List Seg
  /-- bytes done as a prefix -/
  prefixDone : Nat
  cancelled : Bool
  /-- an engine holds the descriptor: the place in the copy at which its turn began (R203) -/
  turn : Option Nat
deriving DecidableEq, Repr

/-- Gondola state beside the exported data. -/
structure Gon where
  dir : List DirEnt
  /-- atomic records (R212) -/
  recs : List AtomRec
  /-- admitted atomics waiting to be executed, in order -/
  atomQ : List AtomReq
  /-- copy descriptors of each C-die in the order they are taken; the head is next -/
  copies : Four (List CopyDesc)
  /-- the next turn of C-die c prefers a fabric descriptor (R203) -/
  fabricTurn : Four Bool
  nextCopy : Nat
  nextSeq : BitVec 32
  /-- corrected errors of a row in the running scrub period and the slot of its first one (R217), and rows under repair -/
  rowCe : List (HbmLine × Nat × Nat)
  repairing : List HbmLine
  /-- 64-byte units that hold an error planted through ERR_INJECT; true: of two bits (R330) -/
  planted : List (Nat × Bool)
  /-- stacks above 85 °C, which refresh twice as often (R218) -/
  hot : List Nat
deriving DecidableEq, Repr

/-! ## Light, lanes and links (spec/08) -/

/-- A frame held for link-layer retry (R231, R232). -/
structure RetryFrame where
  lseq : BitVec 16
  frame : Frame
deriving DecidableEq, Repr

/-- What a port's MAC and link hold beside PORT_LINK (R229 to R237). -/
structure Link where
  /-- next LSEQ to send, next LSEQ expected, frames held, and whether the receiver waits for a replay -/
  txSeq : BitVec 16
  rxNext : BitVec 16
  held : List RetryFrame
  replayFrom : Option (BitVec 16)
  nakOut : Bool
  nakAt : Option Nat
  resync : Bool
  /-- SRC_NODE, PORT and EXPECT_LSEQ of the peer's latest LINK_STATE; and the peer seen before LOST -/
  peer : Option (Node × Nat × BitVec 16)
  peerBefore : Option (Node × Nat × BitVec 16)
  /-- the peer's RX_MASK and the receive lanes out for good until REJOIN (R237) -/
  peerRx : BitVec 4
  stuck : BitVec 4
  /-- slots of recent failures of each lane, and the slot since which each lane that is out has been aligned and clean (R237) -/
  fails : List (Nat × Nat)
  outAt : List (Nat × Nat)
  /-- the preamble with which the frame on the wire began (R230) -/
  wirePre : Option (BitVec 56)
  /-- the receive lanes carry light and codeword alignment -/
  light : Bool
  /-- slot at which FEC lock was reached in the running training -/
  lockAt : Option Nat
  /-- SEQ of the next LINK_STATE, and the slot of the last one sent -/
  lsSeq : BitVec 32
  lsAt : Nat
  /-- slot of the entry into the present state -/
  since : Nat
  /-- slot of the last training started from DOWN (R229) -/
  lastTry : Option Nat
deriving DecidableEq, Repr

/-- State of links, floor, rings, emitters and calibration commands. -/
structure Lgt where
  links : List (Nat × Link)
  /-- live calibration of external lanes and floor lanes that differs from the store's record as loaded (R247) -/
  liveLane : List (Nat × W64 × W64)
  liveFloor : List (Nat × W64)
  /-- the mean level of each emitter as Gliuk saw it last (R243), and the local count of its last EMIT_NO_SPARE record -/
  seenLevel : List (Nat × Nat)
  noSpareAt : List (Nat × Nat)
  /-- floor groups or hub lanes whose ring is not locked, by path and group -/
  floorOut : List (Nat × Nat)
  /-- hand-overs in work: the failing emitter and its spare (R244) -/
  handover : List (Nat × Nat)
  /-- the calibration command that runs: its code and target -/
  cal : Option (Nat × Nat)
  /-- result waiting for the end of the command -/
  calResult : Nat
  /-- records that the command writes at its end: lane or floor lane, words 0 and 1 -/
  calWrites : List (Nat × W64 × W64)
deriving DecidableEq, Repr

/-! ## Host interface and management plane (spec/09, spec/10) -/

/-- A descriptor that the command engine has started and not yet completed (R259, R267): its 64 bytes as fetched. -/
structure Desc where
  ring : Nat
  ix : Nat
  bytes : List Byte
  /-- the command engine has begun it; a copy, a close, a long operation or a record buffer then runs on -/
  begun : Bool
  /-- bytes already filled of a RECORD_BUF, its records, and the slot of the first record (R270) -/
  filled : List Byte
  nrec : Nat
  firstAt : Option Nat
deriving DecidableEq, Repr

/-- What a ring pair keeps beside its registers (R257 to R260, R271). -/
structure RingSt where
  phase : Bool
  cqHead : Nat
  armed : Bool
  /-- the local counts at which the completions beyond CQ_HEAD that are not yet signaled were written, oldest first -/
  waiting : List Nat
  /-- completions held in D3hot (R275) -/
  heldCq : List (List Byte)
deriving DecidableEq, Repr

/-- An item of the stage set (R268, R269). -/
inductive StageItem where
  | reg (addr : Nat) (v : W64)
  | excWrite (entry : W64) (noReplace : Bool)
  | excRemove (node : Node)
  | mcast (group : Nat) (mask : List Byte)
deriving DecidableEq, Repr

/-- A running long operation (R267, R268): the started descriptor, whether CANCEL or a stop asked it to end, and its progress. -/
structure LongRun where
  op : LongOp
  ring : Nat
  ix : Nat
  stop : Bool
  progress : Nat
  /-- the new seed of a rehash, or the counter values latched by a snapshot -/
  latch : List Nat
  tested : Bool
deriving DecidableEq, Repr

/-- Host interface state beside the registers. -/
structure Hst where
  rings : List (Nat × RingSt)
  /-- work items served in the running round of the command engine: ring r, or 256 + the place of a long operation's kind (R268) -/
  round : List Nat
  started : List Desc
  nextIx : Nat
  stage : List StageItem
  stageOwner : Nat
  long : List LongRun
  /-- the staging area of FW_STAGE: parts by offset (R265) -/
  fwStage : List (Nat × List Byte)
  /-- MSI-X table entries that are unmasked, and pending bits (R271); vectors are masked after a reset -/
  msixOpen : List Nat
  msixPending : List Nat
  /-- MSI-X table words that are not 0: message addresses and data, the mask bits apart -/
  msixTab : List (Nat × W64)
  /-- Bus Master Enable (R252) -/
  busMaster : Bool
  /-- the PCIe link is up, PERST# is asserted, and the function is in D3hot -/
  pcieUp : Bool
  perst : Bool
  d3hot : Bool
  /-- configuration requests get Request Retry Status (R274), and the local count at which PERST# was deasserted or the link
  returned -/
  rrs : Bool
  rrsAt : Nat
  /-- dwords of configuration space that differ from their values after a PCI Express reset (R251) -/
  cfg : List (Nat × BitVec 32)
deriving DecidableEq, Repr

/-- A message waiting in the Tether receive queue (R295): carrier, port, and the local count when it was placed, in slots. -/
structure TMsg where
  carrier : Nat
  port : Nat
  bytes : List Byte
  time : Nat
deriving DecidableEq, Repr

/-- An incomplete transaction (R295). -/
structure TTxn where
  key : Nat
  txn : Nat
  sender : Node
  typ : Nat
  count : Nat
  parts : List (Nat × List Byte)
  tseq : W64
  time : Nat
deriving DecidableEq, Repr

/-- An error record in a queue of an agent or of the hub (R326 to R328), with the fields of R327; `open_` says that its tick has
not ended, so that it may still merge. -/
structure Rec where
  code : Nat
  cls : Nat
  scope : Nat
  injected : Bool
  die : Nat
  qseq : BitVec 32
  count : Nat
  unit : Nat
  ns : Nat
  sec : Nat
  tj : Byte
  slope : Byte
  loadDie : Byte
  loadUnit : Byte
  rate : Nat
  d0 : W64
  d1 : W64
  d2 : W64
  open_ : Bool
deriving DecidableEq, Repr

/-- What an unacknowledged record holds in Gliuk's store (R299): its 64-byte body under its sequence. -/
structure SentRec where
  seq : Nat
  bytes : List Byte
  time : Nat
deriving DecidableEq, Repr

/-- Management-plane state beside the registers. -/
structure Mgt where
  /-- slot at which the cores were released into Gliuk, while the boot limit runs (R277) -/
  bootFrom : Option Nat
  /-- the boot ROM works on the image (R277) -/
  booting : Bool
  /-- slot of the last WDOG.KICK or of the start of the period (R280), and half has been signaled -/
  wdogFrom : Nat
  wdogHalf : Bool
  /-- versions whose stage control tables stand in sets 0 and 1, and which set is current (R281) -/
  stageVer : List (BitVec 32)
  stageCur : Nat
  /-- version of the running image, from its header -/
  imgVer : BitVec 32
  imgPackVer : BitVec 32
  imgSections : BitVec 10
  imgHdr : List Byte
  imgPack : List Byte
  imgSvn : BitVec 32
  tetherQ : List TMsg
  reqs : List TReq
  txns : List TTxn
  /-- T_SEQ of the next message of the chip's own (R294) -/
  txSeq : Nat
  /-- last ANNOUNCE sent for HELLO and for a wrong session, by sender, and last relay by port, in slots (R293, R296, R301) -/
  helloAt : List (Node × Nat)
  wrongAt : List (Node × Nat)
  relayAt : List (Nat × Nat)
  /-- link-local ANNOUNCE payloads waiting to be relayed, by port -/
  joins : List (Nat × List Byte)
  announced : Bool
  /-- local counts of the last HEARTBEAT and of the last joining ANNOUNCE (R300, R301) -/
  heartAt : Option Nat
  joinAt : Option Nat
  /-- interrupt controller: last target signaled in mode 0, sources signaled with the target whose line they raise (a banked source
  s of core c is 1024 × (c + 1) + s), and targets whose line rose since the last claim or completion (R284, R285) -/
  icLast : Nat
  icLine : List (Nat × Nat)
  icRose : List Nat
  /-- frames for Gliuk that wait: LLDP and IPv6 (R58) -/
  cpuFrames : List (Nat × Frame)
  /-- records for the fault manager that no RECORD_ACK covers, and the next record sequence (R299) -/
  sent : List SentRec
  recSeq : Nat
deriving DecidableEq, Repr

/-! ## Time, errors, security, power (spec/11 to spec/15) -/

/-- A telemetry-history entry (R316): its fields, the fixed counters and the records of the second. -/
structure HistEnt where
  seq : BitVec 32
  sec : Nat
  ns : Nat
  quad : Nat
  tjMax : Byte
  pCounters : List Nat
  cCounters : List Nat
  recs : List Rec
deriving DecidableEq, Repr

/-- Time and sampling state. -/
structure Tim where
  /-- data-plane time base of each P-die, in slots of 1.5625 ns (R28) -/
  slot : Four Nat
  /-- the free-running local count of the time unit, in slots (R26) -/
  local_ : Nat
  /-- fabric time in ns since its epoch, and the fraction of a ns in units of 1/16 × 10^−12 ns (R304, R306) -/
  fabric : Nat
  frac : Nat
  /-- tags given by each P-die since chip reset (R315) -/
  tagCount : Four (BitVec 32)
  /-- PTP frames for Gliuk's protocol: port, receive stamp in 0.1 ns, frame (R304, R249) -/
  ptpIn : List (Nat × Int × Frame)
  /-- transmit stamps of the latest PTP message of each type on each port: port, messageType, stamp in 0.1 ns (R249); and the event
  messages that each port has sent in a second of the local count (R304) -/
  ptpOut : List (Nat × Nat × Int)
  ptpSent : List (Nat × Nat × Nat)
  /-- the offset from its source, of source less fabric time, that Gliuk's servo has refused to step over, in units of 1/16 × 10^−12 ns
  (R307) -/
  slew : Option Int
  hist : Four (List HistEnt)
  /-- the largest TJ_MAX of each quadrant in the running second, and the second of the local count of the last entry (R316) -/
  tjSec : Four Byte
  histSec : Option Nat
  histSeq : BitVec 32
  /-- the pin PPS_OUT (R387) -/
  pps : Bool
deriving DecidableEq, Repr

/-- Error, Sweep and withdrawal state. -/
structure Err where
  /-- record queues of the quadrant agents and of the hub, their QSEQ counts and overflow counts (R326) -/
  quadQ : Four (List Rec)
  hubQ : List Rec
  /-- records that each quadrant agent has queued in the running second (R316) -/
  secQ : Four (List Rec)
  quadSeq : Four (BitVec 32)
  hubSeq : BitVec 32
  quadOver : Four Nat
  hubOver : Nat
  /-- the overflow counts as the last QUEUE_OVERFLOW records told them -/
  quadTold : Four Nat
  hubTold : Nat
  /-- the 1 ms interval of the local count whose management tick has come (R26), and the 10 µs intervals of the time bases sampled
  last (CORE_RATE) -/
  tickNo : Nat
  rateNo : Four Nat
  /-- consecutive liveness probes failed (R322) -/
  probes : Four Nat
  /-- hub paths lost (R21) -/
  hubLost : Four Bool
  /-- extra Sweeps that Gliuk has started: lane, and the section or the whole pack (R336) -/
  extra : List (Nat × Option Nat)
  /-- local counts at which each C-die last started an extra full pass and each section last ran by its gate -/
  extraAt : List (Nat × Nat × Nat)
  /-- hottest sensor of each C-die at past ticks, latest first (R336) -/
  tjHist : Four (List Byte)
  /-- gates of the pack's sections: section, TJ_MIN, TJ_MAX, LOAD_MIN (R331); and those that held at the last tick -/
  gates : List (Nat × Nat × Nat × Nat)
  gateOn : List (Nat × Nat)
  /-- local count of the last complete pass of each lane or start of its period (R333); absent: the period starts with Gliuk -/
  passAt : List (Nat × Nat)
  /-- local counts of the intermittent outcomes of each lane (R334); one from before a chip reset is negative -/
  intermit : List (Nat × Int)
  /-- C-dies owed an extra full pass, after a TWIN_MISMATCH or a thermal excursion (R336) -/
  twinSweep : List Nat
  /-- slot of the last arrival of a frame that is neither link-local nor PTP (R341), and of the last SCOPE 1 notice -/
  quietFrom : Nat
  noticeAt : Nat
deriving DecidableEq, Repr

/-- Power and reset state. -/
structure Pwr where
  /-- POR_L is asserted -/
  porHeld : Bool
  /-- the running wipe is that of a life-cycle change (R351) -/
  lcWipe : Bool
  thermTrip : Bool
  /-- VCORE_P[q] and VCORE_C[q] setpoints in steps of 2.5 mV (R381), and commands left unacknowledged (R382) -/
  vP : Four Nat
  vC : Four Nat
  nackP : Four Nat
  nackC : Four Nat
  /-- octets darkened by a reset that no write of ENABLE = 1 has released since (R367) -/
  unready : List Nat
  /-- the status window of R389: TJ_DIE, T_STACK, PKG_POWER, then bytes 0x22 and 0x23 -/
  tjDie : List Byte
  tjBefore : List Byte
  tStack : List Byte
  tStackBefore : List Byte
  pkgPower : BitVec 16
  winFlags : Byte
  winLc : Byte
  /-- owner public key given to a PROVISION in work (R351) -/
  ownerIn : Option (List Byte)
deriving DecidableEq, Repr

/-- What leaves the chip. (DESIGN CHOICE log entry 13.) -/
inductive Out where
  /-- a whole frame leaves port `p`; `fcsOk` of the frame says whether its FCS was inverted (R41) -/
  | frame (p : Nat) (pre : Option (BitVec 56)) (f : Frame)
  /-- a frame whose transmission had begun is cut off (R102) -/
  | cut (p : Nat) (f : Frame)
  /-- an Oslux control block with ACK and NAK (R230) -/
  | control (p : Nat) (ack : BitVec 16) (nak : Bool)
  /-- the data of a register read -/
  | readData (v : W64)
  /-- a write to host memory: ring it belongs to, address, bytes -/
  | hostWrite (ring : Nat) (addr : Nat) (bytes : List Byte)
  | msix (vector : Nat)
  /-- a Tether message: in-band node, link-local port, or a management Ethernet port -/
  | tetherNode (dst : Node) (bytes : List Byte)
  | tetherPort (p : Nat) (bytes : List Byte)
  | tetherEth (e : Nat) (bytes : List Byte)
  /-- another frame on a management Ethernet port (R288) -/
  | mgmtEth (e : Nat) (f : Frame)
  /-- a mirror or sample record for the management cores (R87, R314) -/
  | coreRecord (bytes : List Byte)
  | i3c (bytes : List Byte)
  | jtag (v : Nat)
  /-- an Uncorrectable Internal Error through AER (R325) -/
  | aer
  /-- a configuration request answered with Request Retry Status (R274) -/
  | retryStatus
deriving DecidableEq, Repr

/-! ## The whole machine -/

/-- Everything that is neither in a non-volatile store nor exported memory. -/
structure Hw where
  regs : RegMap
  fwd : Fwd
  buf : Buf
  egr : Egr
  coll : Coll
  gon : Gon
  lgt : Lgt
  hst : Hst
  mgt : Mgt
  tim : Tim
  err : Err
  pwr : Pwr
  /-- events that have left the chip, latest first -/
  out : List Out
  /-- the model's own field: how many free values have been drawn -/
  freeCtr : Nat
deriving DecidableEq, Repr

/-- The life-cycle fuses (R346, R349). -/
structure LcFuses where
  start : Nat
  done : Nat
deriving DecidableEq, Repr

/-- An owner digest in OTP (R346). -/
structure OwnerDigest where
  bytes : List Byte
  valid : Bool
  revoked : Bool
deriving DecidableEq, Repr

/-- OTP (R346). The two copies of each field are one value here: POR_RELEASE says whether they agree. -/
structure Otp where
  vendorDigest : List Byte
  serial : W64
  stepping : Byte
  macBase : BitVec 48
  laneFused : W64
  emitLevel : List (BitVec 16)
  lc : LcFuses
  /-- ID_SEED banks with their VALID fuses; a bank whose bits are all blown is all ones -/
  seed0 : List Byte
  seed0Valid : Bool
  seed1 : List Byte
  seed1Valid : Bool
  owner : List OwnerDigest
  minSvn : Nat
deriving DecidableEq, Repr

/-- What outlasts every reset kind: OTP, the MRAM stores, the boot flash's header, and the fields marked — (R11, R36, R373). -/
structure Nv where
  otp : Otp
  /-- calibration records that differ from the factory's, by lane and by floor lane (R246) -/
  calLane : List (Nat × W64 × W64)
  calFloor : List (Nat × W64)
  retired : Four W64
  calWrites : BitVec 32
  /-- fault-manager keys (R344) -/
  keys : List (Nat × List Byte)
  /-- the image last written to the boot flash (R388) and the SVN in the flash header (R356) -/
  flash : List Byte
  flashSvn : BitVec 32
  laneFence : W64
  laneSweep : List (Nat × W64)
  laneHist : List (Nat × W64)
  lastKind : Nat
  chipResets : Nat
deriving DecidableEq, Repr

/-- The exported memory (R190): bytes by exported offset, and the 64-byte units marked poisoned (R215). -/
structure Mem where
  cells : List Host.Cell
  poison : List Nat
deriving DecidableEq, Repr

/-- The state of the block. -/
structure State where
  hw : Hw
  nv : Nv
  mem : Mem
  /-- commands waiting, first in, first out -/
  pending : List Instr
deriving DecidableEq, Repr

/-- Faults: none of the block's commands ends in one. -/
inductive Fault where
  /-- Raised by no command; kept so that the type is inhabited. Safe. -/
  | none
deriving DecidableEq, Repr

/-- Refusals. -/
inductive Refusal where
  /-- The command has no meaning yet; raised by an arm of `exec` only. Safe. -/
  | notModelled (mnemonic : String)
  /-- Raised by TEST_ACCESS_OPERATION for a private test instruction while it is open: the spec does not say what it does
  (R350, R390). Safe. -/
  | privateTest
deriving DecidableEq, Repr

/-! ## Reset -/

/-- A band of level 1 after a reset: virtual time and tags 0 (R114). -/
def Band.zero : Band := ⟨0, List.replicate 8 0, List.replicate 8 0⟩

/-- DESIGN CHOICE log entry 62. -/
def Sched.zero : Sched :=
  { comm := Band.zero, exc := Band.zero, w0 := 7, drr := List.replicate 8 ⟨4, List.replicate 5 0⟩,
    starve := List.replicate 8 0, promoted := List.replicate 8 false }

def Fwd.reset : Fwd :=
  { exc := Four.all [], mcast := Four.all [], learnQ := Four.all [], ageWrite := 0, mirror := [], bad := [], stale := [], gathered := none }

def Buf.reset : Buf :=
  { held := [], taken := [], nextId := 0, nextJoin := 0, voq := [], filter := Four.all [], noticeSeq := 0,
    spillNow := Four.all 0, samples := Four.all 0, sampledAt := Four.all 0 }

/-- DESIGN CHOICE log entry 62. -/
def Gon.reset : Gon :=
  { dir := [], recs := [], atomQ := [], copies := Four.all [], fabricTurn := Four.all false, nextCopy := 0, nextSeq := 0,
    rowCe := [], repairing := [], planted := [], hot := [] }

def Lgt.reset : Lgt :=
  { links := [], liveLane := [], liveFloor := [], seenLevel := [], noSpareAt := [], floorOut := [], handover := [], cal := none, calResult := 0, calWrites := [] }

def Hst.reset : Hst :=
  { rings := [], round := [], started := [], nextIx := 0, stage := [], stageOwner := 0, long := [], fwStage := [], msixOpen := [],
    msixPending := [], msixTab := [], busMaster := false, pcieUp := false, perst := false, d3hot := false, rrs := false, rrsAt := 0, cfg := [] }

/-- DESIGN CHOICE log entry 62. -/
def Mgt.reset : Mgt :=
  { bootFrom := none, booting := true, wdogFrom := 0, wdogHalf := false, stageVer := [0, 0], stageCur := 0, imgVer := 0,
    imgPackVer := 0, imgSections := 0, imgHdr := [], imgPack := [], imgSvn := 0, tetherQ := [], reqs := [], txns := [],
    txSeq := 1, helloAt := [], wrongAt := [], relayAt := [], joins := [], announced := false, heartAt := none, joinAt := none, icLast := 3, icLine := [],
    icRose := [], cpuFrames := [], sent := [], recSeq := 0 }

/-- DEDUCED log entry 28, DESIGN CHOICE log entry 62. -/
def Tim.reset : Tim :=
  { slot := Four.all 0, local_ := 0, fabric := 0, frac := 0, tagCount := Four.all 0, ptpIn := [], ptpOut := [], ptpSent := [], slew := none, hist := Four.all [], tjSec := Four.all 0, histSec := none,
    histSeq := 0, pps := false }

/-- DESIGN CHOICE log entry 62. -/
def Err.reset : Err :=
  { quadQ := Four.all [], hubQ := [], secQ := Four.all [], quadSeq := Four.all 0, hubSeq := 0, quadOver := Four.all 0, hubOver := 0,
    quadTold := Four.all 0, hubTold := 0, tickNo := 0, rateNo := Four.all 0,
    probes := Four.all 0, hubLost := Four.all false, extra := [], extraAt := [], tjHist := Four.all [], gates := [],
    gateOn := [], passAt := [], intermit := [], twinSweep := [], quietFrom := 0, noticeAt := 0 }

def Pwr.reset : Pwr :=
  { porHeld := true, lcWipe := false, thermTrip := false, vP := Four.all 300, vC := Four.all 260, nackP := Four.all 0,
    nackC := Four.all 0, unready := [], tjDie := [], tjBefore := [], tStack := [], tStackBefore := [], pkgPower := 0, winFlags := 0, winLc := 0,
    ownerIn := none }

/-- Every volatile part right after a power-on reset was asserted (R364, R373). (DESIGN CHOICE log entry 1.) -/
def Hw.reset : Hw :=
  { regs := [], fwd := Fwd.reset, buf := Buf.reset, egr := ⟨[], []⟩, coll := ⟨[], [], []⟩, gon := Gon.reset, lgt := Lgt.reset,
    hst := Hst.reset, mgt := Mgt.reset, tim := Tim.reset, err := Err.reset, pwr := Pwr.reset, out := [], freeCtr := 0 }

/-- OTP of a chip as manufactured, with the values that log entry 2 names. -/
def Otp.blank : Otp :=
  { vendorDigest := List.replicate 64 0, serial := 0, stepping := 0, macBase := 0, laneFused := 0,
    emitLevel := List.replicate 144 0, lc := ⟨0, 0⟩, seed0 := List.replicate 57 0, seed0Valid := false,
    seed1 := List.replicate 57 0, seed1Valid := false,
    owner := List.replicate 4 ⟨List.replicate 64 0, false, false⟩, minSvn := 0 }

/-- DESIGN CHOICE log entry 2. -/
def Nv.reset : Nv :=
  { otp := Otp.blank, calLane := [], calFloor := [], retired := Four.all 0, calWrites := 0, keys := [], flash := [],
    flashSvn := 0, laneFence := 0, laneSweep := [], laneHist := [], lastKind := 0, chipResets := 0 }

/-- The machine right after reset: power has been applied and POR_L is asserted (R364), every register holds its Reset value. (DESIGN CHOICE log entry 1.) -/
def State.reset : State := { hw := Hw.reset, nv := Nv.reset, mem := ⟨[], []⟩, pending := [] }

end Sys2Proof.Machine
end

