-- ==== Sys2Proof/Machine/Ops.lean ====
section
/-! DEFINITION. The shared operations: registers and fields, free values, time, counters (R309 to R312), the interrupt
controller's events (R283 to R285), host events (R271), error records (R326 to R329), and the exported memory. -/

namespace Sys2Proof.Machine

/-! ### Registers -/

/-- The listed value of a register, if it differs from its Reset value. -/
def RegMap.find : RegMap → Reg → Option W64
  | [], _ => none
  | (k, v) :: m, r => if k = r then some v else RegMap.find m r

/-- The value of a register. -/
def RegMap.get (m : RegMap) (r : Reg) : W64 := (m.find r).getD r.reset

/-- Set a register; a register at its Reset value is not listed. -/
def RegMap.set (m : RegMap) (r : Reg) (v : W64) : RegMap :=
  let m := m.filter fun p => decide (p.1 ≠ r)
  if v = r.reset then m else (r, v) :: m

/-- The value of a field in a register word. -/
def Fld.get (f : Fld) (v : W64) : Nat := v.toNat / 2 ^ f.lo % 2 ^ f.width

/-- The bits of a field. -/
def Fld.mask (f : Fld) : W64 := BitVec.ofNat 64 ((2 ^ f.width - 1) * 2 ^ f.lo)

/-- A register word with a field replaced. -/
def Fld.put (f : Fld) (v : W64) (n : Nat) : W64 :=
  (v &&& ~~~f.mask) ||| BitVec.ofNat 64 (n % 2 ^ f.width * 2 ^ f.lo)

def Hw.reg (h : Hw) (r : Reg) : W64 := RegMap.get h.regs r
def Hw.setReg (h : Hw) (r : Reg) (v : W64) : Hw := { h with regs := h.regs.set r v }
def Hw.fld (h : Hw) (r : Reg) (f : Fld) : Nat := f.get (h.reg r)
def Hw.setFld (h : Hw) (r : Reg) (f : Fld) (n : Nat) : Hw := h.setReg r (f.put (h.reg r) n)
/-- A field of one bit as a Boolean. -/
def Hw.bit (h : Hw) (r : Reg) (f : Fld) : Bool := h.fld r f != 0
/-- A field increased by `n`, saturating at its largest value. -/
def Hw.satFld (h : Hw) (r : Reg) (f : Fld) (n : Nat) : Hw := h.setFld r f (min (h.fld r f + n) (2 ^ f.width - 1))

/-- Apply a change to the volatile part. -/
def State.onHw (s : State) (f : Hw → Hw) : State := { s with hw := f s.hw }
/-- Apply a change to the volatile part, unless POR_L is held: the whole package is then in reset (R364). (DESIGN CHOICE log entry 1.) -/
def State.onLive (s : State) (f : Hw → Hw) : State := if s.hw.pwr.porHeld then s else s.onHw f
/-- Apply a change to the non-volatile part. -/
def State.onNv (s : State) (f : Nv → Nv) : State := { s with nv := f s.nv }

/-- An event leaves the chip. (DESIGN CHOICE log entry 13.) -/
def Hw.emit (h : Hw) (o : Out) : Hw := { h with out := o :: h.out }

/-- Draw the next free value (log entry 3). -/
def Hw.draw (h : Hw) : W64 × Hw := (Config.freeValue h.freeCtr, { h with freeCtr := h.freeCtr + 1 })

/-- A nonzero free value: the drawn value, or 1 where it is 0 (R292: random and nonzero). (DESIGN CHOICE log entry 3, DESIGN CHOICE log entry 4.) -/
def Hw.drawNz (h : Hw) : W64 × Hw :=
  let (v, h) := h.draw
  (if v = 0 then 1 else v, h)

/-- `n` free bytes. (DESIGN CHOICE log entry 3.) -/
def Hw.drawBytes : Nat → Hw → List Byte × Hw
  | 0, h => ([], h)
  | n + 1, h =>
    let (v, h) := h.draw
    let (l, h) := Hw.drawBytes n h
    (v.setWidth 8 :: l, h)

/-! ### Time (R28, R308) -/

/-- Slots of 1.5625 ns in 1 µs and in 1 ms. -/
def slotsUs : Nat := 640
def slotsMs : Nat := 640000

/-- The data-plane time base of P-die `q`. -/
def Hw.slot (h : Hw) (q : Nat) : Nat := h.tim.slot.get q
/-- The time base of P-die `q` in whole ns. -/
def Hw.ns (h : Hw) (q : Nat) : Nat := h.slot q * 25 / 16
/-- STAMP32 (R308). -/
def Hw.stamp32 (h : Hw) : BitVec 32 := BitVec.ofNat 32 h.tim.fabric
def Hw.fabSec (h : Hw) : Nat := h.tim.fabric / 1000000000
def Hw.fabNs (h : Hw) : Nat := h.tim.fabric % 1000000000

/-! ### Counters (R309 to R312) -/

/-- The first event number of the die type of die `d` (R309). -/
def eventBase (d : Nat) : Nat := if d < 4 then 0 else if d < 8 then 0x100 else 0x200

/-- Whether the event table of R312 assigns a number to the die type of `base`. -/
def eventAssigned (e : Nat) : Bool :=
  let r (a b : Nat) : Bool := decide (a ≤ e) && decide (e ≤ b)
  r 1 4 || r 0x10 0x12 || r 0x20 0x28 || r 0x30 0x3d || r 0x40 0x4e || r 0x50 0x51 || r 0x60 0x62 || r 0x101 0x107 ||
  r 0x110 0x118 || r 0x120 0x12b || r 0x200 0x203

/-- Counter `k` of die `d` counts `n` more; a wrap sets OVF and carries into a chained next counter (R310). -/
def Hw.bump (d : Nat) : Nat → Nat → Nat → Hw → Hw
  | 0, _, _, h => h
  | fuel + 1, k, n, h =>
    let v := h.fld (.cntVal d k) Fld.cntVal_value + n
    let h := h.setFld (.cntVal d k) Fld.cntVal_value v
    if v < 2 ^ 48 then h
    else
      let h := h.setFld (.cntVal d k) Fld.cntVal_ovf 1
      if decide (256 ≤ k) && decide (k < 511) && h.bit (.cntSel d (k + 1)) Fld.cntSel_chain then
        Hw.bump d fuel (k + 1) 1 h
      else h

/-- `n` events of number `ev` with qualifier `qual` on die `d` (R309, R311). -/
def Hw.count (h : Hw) (d ev qual n : Nat) : Hw :=
  let b := eventBase d
  let h := if b ≤ ev ∧ ev < b + 256 then h.bump d 1 (ev - b) n else h
  (h.regs.map (·.1)).foldl (fun h r =>
    match r with
    | .cntSel d' k =>
      if d' = d ∧ h.bit r Fld.cntSel_enable = true ∧ h.fld r Fld.cntSel_event = ev ∧
          (h.bit r Fld.cntSel_qualAny = true ∨ h.fld r Fld.cntSel_qual = qual) ∧
          ¬ (256 < k ∧ h.bit r Fld.cntSel_chain = true) then h.bump d 256 k n
      else h
    | _ => h) h

/-! ### Interrupt controller (R283 to R286) -/

/-- The register of source `s` as core `c` reaches it; banked sources 1 to 63 in mode 1. -/
def Hw.icReg (h : Hw) (c s : Nat) : Reg :=
  if h.fld .icCfg Fld.icCfg_routeMode = 1 ∧ s < 64 then .icBank c s else .icSrc s

/-- DEDUCED log entry 46. -/
def Hw.icServing (h : Hw) (c : Nat) : Bool := h.bit (.icTarget c) Fld.icTarget_serving

/-- The pending enabled sources that are not ACTIVE (R286), ascending, as pairs of code and register; a code is 1024 × (c + 1) + s in bank c. -/
def Hw.icOfferable (h : Hw) : List (Nat × Reg) :=
  let mode1 := decide (h.fld .icCfg Fld.icCfg_routeMode = 1)
  let shared := (List.range 1023).filterMap fun s =>
    if s = 0 ∨ (mode1 = true ∧ s < 64) then none
    else
      let r := Reg.icSrc s
      if h.bit r Fld.icSrc_pending && h.bit r Fld.icSrc_enable && !h.bit r Fld.icSrc_active then some (s, r) else none
  let banked := if mode1 then (List.range 4).flatMap fun c => (List.range 64).filterMap fun s =>
      let r := Reg.icBank c s
      if s ≠ 0 ∧ h.bit r Fld.icSrc_pending = true ∧ h.bit r Fld.icSrc_enable = true ∧ h.bit r Fld.icSrc_active = false then some (1024 * (c + 1) + s, r) else none
    else []
  banked ++ shared

/-- Whether target `c` may take source code `x` in the present mode (R284). -/
def Hw.icRoutable (h : Hw) (x : Nat) (r : Reg) (c : Nat) : Bool :=
  if h.fld .icCfg Fld.icCfg_routeMode = 1 then
    if 1024 ≤ x then decide (x / 1024 - 1 = c) else decide (h.fld r Fld.icSrc_target = c)
  else true

/-- Raise lines for sources that are offered (R284): in mode 0 the next enabled target that is not serving after the last one
signaled. Lines of sources that are no longer offered, or no longer routed to their target, fall. -/
def Hw.icUpdate (h : Hw) : Hw :=
  let offer := h.icOfferable
  let kept := h.mgt.icLine.filter fun p => (offer.any fun o => o.1 == p.1 && h.icRoutable o.1 o.2 p.2) && !h.icServing p.2 && h.bit (.icTarget p.2) Fld.icTarget_en
  let h := { h with mgt := { h.mgt with icLine := kept } }
  offer.foldl (fun h o =>
    if h.mgt.icLine.any fun p => p.1 == o.1 then h
    else
      let ok (c : Nat) : Bool := h.bit (.icTarget c) Fld.icTarget_en && !h.icServing c && h.icRoutable o.1 o.2 c
      match ((List.range 4).map fun i => (h.mgt.icLast + 1 + i) % 4).find? ok with
      | some c => { h with mgt := { h.mgt with icLine := h.mgt.icLine ++ [(o.1, c)], icLast := c,
                                               icRose := if c ∈ h.mgt.icRose then h.mgt.icRose else c :: h.mgt.icRose } }
      | none => h) h

/-- An event reaches the register of a source: PENDING is set and COUNT rises, saturating at 255 (R283). -/
def Hw.icPend (h : Hw) (r : Reg) : Hw := (h.setFld r Fld.icSrc_pending 1).satFld r Fld.icSrc_count 1

/-- An event on interrupt source `s` (R283); in mode 1 events of sources 2 and 3 reach every bank. -/
def Hw.icEvent (h : Hw) (s : Nat) : Hw :=
  (if h.fld .icCfg Fld.icCfg_routeMode = 1 ∧ s < 64 then (List.range 4).foldl (fun h c => h.icPend (.icBank c s)) h
   else h.icPend (.icSrc s)).icUpdate

/-! ### Messages to the host (R252, R271, R275) -/

/-- The chip may start a request on PCI Express. (DEDUCED log entry 43.) -/
def Hst.mayRequest (t : Hst) : Bool := t.busMaster && t.pcieUp && !t.d3hot && !t.perst

/-- An MSI-X message on vector `v`: sent, or held as a pending bit while the vector is masked or no request may be started. -/
def Hw.msix (h : Hw) (v : Nat) : Hw :=
  if h.hst.mayRequest && decide (v ∈ h.hst.msixOpen) then h.emit (.msix v)
  else { h with hst := { h.hst with msixPending := if v ∈ h.hst.msixPending then h.hst.msixPending else v :: h.hst.msixPending } }

/-- Host event `i`: latched in HOST_IRQ_STS, and sent on its vector unless its bit was already set (R271). -/
def Hw.hostEvent (h : Hw) (i : Nat) : Hw :=
  let was := (h.reg .hostIrqSts).getLsbD i
  let h := h.setReg .hostIrqSts (h.reg .hostIrqSts ||| BitVec.ofNat 64 (2 ^ i))
  if !was && h.bit (.hostIrqMap i) Fld.hostIrqMap_en then h.msix (h.fld (.hostIrqMap i) Fld.hostIrqMap_vector) else h

/-! ### Error records (R326 to R330) -/

/-- The codes whose UNIT has a load measure: a reduction lane, a port or a stack (R327, R329). -/
def unitLoads (code : Nat) : Bool :=
  decide (0x0501 ≤ code) && decide (code ≤ 0x0504) || code == 0x0101 || decide (0x0201 ≤ code) && decide (code ≤ 0x0205) ||
    decide (0x0401 ≤ code) && decide (code ≤ 0x0404)

/-- CLASS, SCOPE and whether the code merges (R320, R327, R329). -/
def recInfo (code : Nat) : Nat × Nat × Bool :=
  match code with
  | 0x0001 => (3, 4, false) | 0x0002 => (3, 5, false)
  | 0x0101 => (1, 0, true) | 0x0102 => (1, 0, true) | 0x0103 => (0, 1, false) | 0x0104 => (1, 0, true) | 0x0105 => (0, 0, true)
  | 0x0201 => (1, 2, false) | 0x0202 => (1, 2, false) | 0x0203 => (0, 2, false) | 0x0204 => (1, 2, false) | 0x0205 => (1, 2, true)
  | 0x0206 => (0, 1, false) | 0x0207 => (1, 1, false)
  | 0x0211 => (3, 1, false) | 0x0212 => (3, 1, false) | 0x0213 => (3, 1, false) | 0x0214 => (1, 1, false) | 0x0215 => (1, 1, false)
  | 0x0301 => (3, 3, false) | 0x0302 => (3, 3, false) | 0x0303 => (1, 3, false)
  | 0x0401 => (0, 0, true) | 0x0402 => (1, 0, false) | 0x0403 => (0, 1, false) | 0x0404 => (1, 1, false) | 0x0405 => (1, 0, false)
  | 0x0406 => (1, 1, false)
  | 0x0501 => (1, 1, false) | 0x0502 => (0, 1, false) | 0x0503 => (3, 1, false) | 0x0504 => (1, 1, false) | 0x0505 => (3, 5, false)
  | 0x0601 => (1, 4, false) | 0x0602 => (3, 1, false)
  | 0x0701 => (1, 4, false) | 0x0702 => (3, 5, false) | 0x0703 => (3, 5, false) | 0x0704 => (3, 5, false)
  | 0x0F01 => (2, 4, false) | 0x0F02 => (2, 5, false)
  | _ => (3, 5, false)

/-- The quadrant whose agent queues the records of die `d`; none for the hub. -/
def dieQuad (d : Nat) : Option Nat := if d < 8 then some (d % 4) else none

/-- The records of one queue of at most `cap`, with a new record merged or appended; `none` when the queue is full (R326). -/
def queueRec (cap : Nat) (merge : Bool) (r : Rec) (q : List Rec) : Option (List Rec × Bool) :=
  let same (x : Rec) : Bool := x.open_ && x.code == r.code && x.die == r.die && x.unit == r.unit && x.d0 == r.d0
  if merge && q.any same then some (q.map fun x => if same x then { x with count := min (x.count + r.count) 65535 } else x, false)
  else if q.length < cap then some (q ++ [r], true) else none

/-- What goes into a new record beside its code (R327). -/
structure RecArgs where
  code : Nat
  die : Nat
  unit : Nat
  d0 : W64 := 0
  d1 : W64 := 0
  d2 : W64 := 0
  count : Nat := 1
  injected : Bool := false
  /-- CLASS where the code table leaves a choice (TABLE_PARITY) -/
  cls : Option Nat := none

/-- The record of R327 as detected now. The loads of the last 10 µs are free values (log entry 8). (DEDUCED log entry 28.) -/
def Hw.mkRec (h : Hw) (a : RecArgs) : Rec × Hw :=
  let (ld, h) := h.draw
  let (lu, h) := h.draw
  let share (v : W64) : Byte := BitVec.ofNat 8 (v.toNat % 201)
  let info := recInfo a.code
  let stack := decide (0x0401 ≤ a.code) && decide (a.code ≤ 0x0404)
  let tj : Byte := if stack then h.pwr.tStack.getD a.unit 0x80 else h.pwr.tjDie.getD a.die 0x80
  let before : Byte := if stack then h.pwr.tStackBefore.getD a.unit tj else h.pwr.tjBefore.getD a.die tj
  let rate := if a.die < 4 then h.fld (.coreRate a.die) Fld.coreRate_pRate
    else if a.die < 8 then h.fld (.coreRate (a.die - 4)) Fld.coreRate_cRate else 0
  let qseq := match dieQuad a.die with | some q => h.err.quadSeq.get q | none => h.err.hubSeq
  ({ code := a.code, cls := a.cls.getD info.1, scope := info.2.1, injected := a.injected, die := a.die, qseq := qseq,
     count := a.count, unit := a.unit, ns := h.fabNs, sec := h.fabSec, tj := tj, slope := tj - before,
     loadDie := if a.die < 8 then share ld else 0xff, loadUnit := if unitLoads a.code then share lu else 0xff, rate := rate,
     d0 := a.d0, d1 := a.d1, d2 := a.d2, open_ := true }, h)

/-- Queue an error record with its agent or the hub (R26, R326); a record that merges into a queued one raises no interrupt source. A full queue discards and counts it. (DEDUCED log entry 61.) -/
def Hw.record (h : Hw) (a : RecArgs) : Hw :=
  let (r, h) := h.mkRec a
  let merge := (recInfo a.code).2.2
  match dieQuad a.die with
  | some q =>
    match queueRec 4096 merge r (h.err.quadQ.get q) with
    | some (l, new) =>
      let sec := match queueRec 4096 merge r (h.err.secQ.get q) with | some x => x.1 | none => h.err.secQ.get q
      let h := { h with err := { h.err with quadQ := h.err.quadQ.set q l, secQ := h.err.secQ.set q sec,
                                            quadSeq := h.err.quadSeq.set q (if new then r.qseq + 1 else r.qseq) } }
      if new then h.icEvent (65 + q) else h
    | none => ({ h with err := { h.err with quadOver := h.err.quadOver.set q (h.err.quadOver.get q + 1) } }).count 8 0x203 q 1
  | none =>
    match queueRec 1024 merge r h.err.hubQ with
    | some (l, new) => { h with err := { h.err with hubQ := l, hubSeq := if new then r.qseq + 1 else r.qseq } }
    | none => ({ h with err := { h.err with hubOver := h.err.hubOver + 1 } }).count 8 0x203 4 1

/-- Gliuk runs on the management cores. -/
def Hw.gliuk (h : Hw) : Bool := h.bit .hubState Fld.hubState_gliukRun
def Hw.dpReady (h : Hw) : Bool := h.bit .hubState Fld.hubState_dpReady
def Hw.fatalChip (h : Hw) : Bool := h.bit .errStatus Fld.errStatus_fatalChip
def Hw.fatalQ (h : Hw) (q : Nat) : Bool := (h.reg .errStatus).getLsbD (q % 4)
def Hw.qdBusy (h : Hw) (q : Nat) : Bool := (h.reg .resetStatus).getLsbD (1 + q % 4)
def Hw.parked (h : Hw) (q : Nat) : Bool := (h.reg .powerStatus).getLsbD (q % 4)
def Hw.parkReq (h : Hw) (q : Nat) : Bool := (h.reg .quadPark).getLsbD (q % 4)
/-- Quadrant `q` serves the data plane: neither in FATAL nor in reset, and the chip is neither in FATAL nor being wiped. -/
def Hw.quadOk (h : Hw) (q : Nat) : Bool := h.dpReady && !h.fatalChip && !h.fatalQ q && !h.qdBusy q

/-- A register as P-die `q` holds it: a hub register written while the hub path of `q` was lost keeps its old value there (R21). -/
def Hw.dieReg (h : Hw) (q : Nat) (r : Reg) : W64 :=
  match h.fwd.stale.find? fun x => x.1 == q && x.2.1 == r with
  | some x => x.2.2
  | none => h.reg r
def Hw.dieFld (h : Hw) (q : Nat) (r : Reg) (f : Fld) : Nat := f.get (h.dieReg q r)

/-- Set a hub register that the agents apply to every P-die; a P-die whose hub path is lost keeps the old value (R21, R61). -/
def Hw.setHubReg (h : Hw) (r : Reg) (v : W64) : Hw :=
  let lost := (List.range 4).filter fun q => h.err.hubLost.get q && !(h.fwd.stale.any fun x => x.1 == q && x.2.1 == r)
  let h := { h with fwd := { h.fwd with stale := h.fwd.stale ++ lost.map fun q => (q, r, h.reg r) } }
  h.setReg r v

/-- Host event GLIUK and the bit itself when HUB_STATE.GLIUK_RUN changes (R271). -/
def Hw.setGliuk (h : Hw) (b : Bool) : Hw :=
  if h.gliuk = b then h else (h.setFld .hubState Fld.hubState_gliukRun (if b then 1 else 0)).hostEvent 7

/-! ### The exported memory (R190 to R195, R215) -/

/-- What an exported byte that is not listed reads as: the wipe of every reset writes zeros (R364). (DEDUCED log entry 59.) -/
def Mem.unlisted : Byte := 0

/-- The canonical form: addresses strictly rising, no cell equal to what an unlisted address reads as. -/
def cellsWf : List Host.Cell → Bool
  | [] => true
  | [c] => decide (c.2 ≠ Mem.unlisted)
  | c :: d :: l => decide (c.2 ≠ Mem.unlisted) && decide (c.1 < d.1) && cellsWf (d :: l)

/-- DEDUCED log entry 59. -/
def Mem.wf (m : Mem) : Bool := cellsWf m.cells

/-- Read one byte. -/
def cellsRead : List Host.Cell → Nat → Byte
  | [], _ => Mem.unlisted
  | c :: l, a => if c.1 = a then c.2 else cellsRead l a

/-- DEDUCED log entry 59. -/
def Mem.read (m : Mem) (a : Nat) : Byte := cellsRead m.cells a

/-- Write one byte and keep the canonical form. -/
def cellsWrite : List Host.Cell → Nat → Byte → List Host.Cell
  | [], a, b => if b = Mem.unlisted then [] else [(a, b)]
  | c :: l, a, b =>
    if a < c.1 then (if b = Mem.unlisted then c :: l else (a, b) :: c :: l)
    else if a = c.1 then (if b = Mem.unlisted then l else (a, b) :: l)
    else c :: cellsWrite l a b

def Mem.write (m : Mem) (a : Nat) (b : Byte) : Mem := { m with cells := cellsWrite m.cells a b }

/-- Write a byte string from address `a` upward; a write that covers a whole 64-byte unit clears its poison (R215). -/
def Mem.writeBytes (m : Mem) (a : Nat) : List Byte → Mem
  | [] => m
  | b :: l => Mem.writeBytes (m.write a b) (a + 1) l

def Mem.store (m : Mem) (a : Nat) (l : List Byte) : Mem :=
  let m := m.writeBytes a l
  { m with poison := m.poison.filter fun u => !(decide (a ≤ 64 * u) && decide (64 * u + 64 ≤ a + l.length)) }

/-- Read `n` bytes from address `a`. -/
def Mem.load (m : Mem) (a : Nat) : Nat → List Byte
  | 0 => []
  | n + 1 => m.read a :: m.load (a + 1) n

/-- Whether a range of bytes meets a poisoned unit. -/
def Mem.poisoned (m : Mem) (a n : Nat) : Bool := m.poison.any fun u => decide (64 * u < a + n) && decide (a < 64 * u + 64)

/-- Keep only the bytes and poison marks whose address satisfies `p` (the others are wiped to zero). -/
def Mem.keep (m : Mem) (p : Nat → Bool) : Mem :=
  { cells := m.cells.filter fun c => p c.1, poison := m.poison.filter fun u => p (64 * u) }

/-- Wipe a range of bytes and clear its poison (R265, item 8). -/
def Mem.wipe (m : Mem) (a n : Nat) : Mem := m.keep fun x => !(decide (a ≤ x) && decide (x < a + n))

def State.onMem (s : State) (f : Mem → Mem) : State := { s with mem := f s.mem }

end Sys2Proof.Machine
end

