-- ==== Sys2Proof/Machine/HostOps.lean ====
section
/-! DEFINITION. Ring pairs, completions, interrupts and record buffers as every command uses them (R257 to R263, R270, R271). -/

namespace Sys2Proof.Machine

def RingSt.fresh : RingSt := { phase := true, cqHead := 0, armed := false, waiting := [], heldCq := [] }
/-- Completions not yet signaled, and the time of the first of them. -/
def RingSt.unsignaled (x : RingSt) : Nat := x.waiting.length
def RingSt.firstAt (x : RingSt) : Option Nat := x.waiting.head?

def Hw.ring (h : Hw) (r : Nat) : RingSt := (aget r h.hst.rings).getD RingSt.fresh
def Hw.setRing (h : Hw) (r : Nat) (x : RingSt) : Hw := { h with hst := { h.hst with rings := aput r x h.hst.rings } }

def Hw.ringState (h : Hw) (r : Nat) : Nat := h.fld (.ringStatus r) Fld.ringStatus_state
def Hw.setRingState (h : Hw) (r n : Nat) : Hw := h.setFld (.ringStatus r) Fld.ringStatus_state n
/-- The entries of a ring of size field `l`: 2^l with l from 6 to 16. -/
def Hw.sqSize (h : Hw) (r : Nat) : Nat := 2 ^ h.fld (.ringCtl r) Fld.ringCtl_sqLog2
def Hw.cqSize (h : Hw) (r : Nat) : Nat := 2 ^ h.fld (.ringCtl r) Fld.ringCtl_cqLog2

/-- A pair goes to ERROR with cause `e`, and RING_ERR is raised (R257). -/
def Hw.ringError (h : Hw) (r e : Nat) : Hw :=
  ((h.setRingState r 3).setFld (.ringStatus r) Fld.ringStatus_err e).hostEvent 8

/-- Send the CQ's message if it is armed and COAL_N completions wait, or `force` (R271). -/
def Hw.cqSignal (h : Hw) (r : Nat) (force : Bool) : Hw :=
  let x := h.ring r
  let n := max 1 (h.fld (.ringCtl r) Fld.ringCtl_coalN)
  if x.armed && h.bit (.ringCtl r) Fld.ringCtl_irqEn && decide (0 < x.unsignaled) && (force || decide (n ≤ x.unsignaled)) then
    (h.setRing r { x with armed := false, waiting := [] }).msix (h.fld (.ringCtl r) Fld.ringCtl_vector)
  else h

/-- Write one completion entry at CQ_TAIL (R262). -/
def Hw.cqWrite (h : Hw) (r : Nat) (tag status result : Nat) : Hw :=
  let x := h.ring r
  let t := h.fld (.ringStatus r) Fld.ringStatus_cqTail
  let e := bytesLE 4 tag ++ bytesLE 2 (h.fld (.ringStatus r) Fld.ringStatus_sqHead) ++ bytesLE 1 status ++
    [if x.phase then 1 else 0] ++ bytesLE 8 result
  let h := h.emit (.hostWrite r ((h.reg (.cqBase r)).toNat / 4096 * 4096 + 16 * t) e)
  let t' := (t + 1) % h.cqSize r
  let h := h.setFld (.ringStatus r) Fld.ringStatus_cqTail t'
  let h := h.setRing r { x with phase := if t' = 0 then !x.phase else x.phase, waiting := x.waiting ++ [h.tim.local_] }
  h.cqSignal r false

/-- Complete a descriptor with TAG, STATUS and RESULT: not in ERROR or DISABLED (R257, R273), held while the chip may start no request
(R252, R275). -/
def Hw.complete (h : Hw) (r tag status result : Nat) : Hw :=
  if h.ringState r = 0 ∨ h.ringState r = 3 then h
  else if !h.hst.mayRequest then
    let x := h.ring r
    h.setRing r { x with heldCq := x.heldCq ++ [bytesLE 4 tag ++ bytesLE 1 status ++ bytesLE 8 result] }
  else h.cqWrite r tag status result

/-- Descriptor fields (R261). -/
def Desc.opcode (d : Desc) : Nat := getLE d.bytes 0 2 % 4096
def Desc.order (d : Desc) : Bool := bits (getLE d.bytes 0 2) 12 1 == 1
def Desc.flags (d : Desc) : Nat := getLE d.bytes 2 2
def Desc.tag (d : Desc) : Nat := getLE d.bytes 4 4

/-- Remove a started descriptor. -/
def Hw.dropDesc (h : Hw) (ix : Nat) : Hw := { h with hst := { h.hst with started := h.hst.started.filter fun d => d.ix != ix } }

/-- A started descriptor ends with STATUS and RESULT. -/
def Hw.finish (h : Hw) (d : Desc) (status result : Nat) : Hw := (h.dropDesc d.ix).complete d.ring d.tag status result

/-! ### Record rings (R270) -/

/-- A record buffer completes with the bytes and records it holds. -/
def Hw.finishBuf (h : Hw) (d : Desc) (status : Nat) : Hw :=
  let h := if d.filled.isEmpty then h else h.emit (.hostWrite d.ring (getLE d.bytes 8 8) d.filled)
  h.finish d status (d.filled.length + 2 ^ 32 * d.nrec)

/-- The record buffers of ring `r` in fetch order. -/
def Hw.recBufs (h : Hw) (r : Nat) : List Desc := h.hst.started.filter fun d => d.ring == r && d.opcode == 0x070 && d.begun

/-- A dropped record is counted by its TYPE (event 0x201 of R312). -/
def Hw.recDrop (h : Hw) (bytes : List Byte) : Hw := h.count 8 0x201 (getLE bytes 0 2) 1

/-- Put one whole record into ring `r` (a full buffer that may not be written out now takes no record): into the buffer at the head, or into the next one after the head has completed
because the record does not fit it, which takes a request. A record for a ring that is not RUNNING, that finds no buffer, or that is longer than the
empty buffer at the head is dropped and counted. -/
def Hw.toRing (h : Hw) (r : Nat) (bytes : List Byte) : Hw :=
  let put (h : Hw) (d : Desc) : Hw :=
    { h with hst := { h.hst with started := h.hst.started.map fun x =>
        if x.ix = d.ix then { x with filled := x.filled ++ bytes, nrec := x.nrec + 1,
                                     firstAt := x.firstAt.or (some h.tim.local_) } else x } }
  if h.ringState r ≠ 1 then h.recDrop bytes
  else
    match h.recBufs r with
    | [] => h.recDrop bytes
    | d :: rest =>
      if d.filled.length + bytes.length ≤ getLE d.bytes 16 4 then put h d
      else if d.filled.isEmpty || !h.hst.mayRequest then h.recDrop bytes
      else
        let h := h.finishBuf d 0
        match rest with
        | e :: _ => if bytes.length ≤ getLE e.bytes 16 4 then put h e else h.recDrop bytes
        | [] => h.recDrop bytes

end Sys2Proof.Machine
end

