-- ==== Sys2Proof/Machine/Header.lean ====
section
/-! DEFINITION. The Vaeth frame and its 32-byte header (R38 to R49), the frames that the chip originates (R39, R40, R57), and
the reading of standard frames (R58). -/

namespace Sys2Proof.Machine

/-! ### The header (R43, R44) -/

/-- The 32 header bytes as one big-endian word. -/
def VHdr.word (h : VHdr) : BitVec 256 :=
  h.ver ++ h.rsvd0 ++ h.tc ++ h.fence ++ h.noSpray ++ h.rsvd1 ++ h.defl ++ h.opcode ++ h.status ++ h.dst ++ h.src ++ h.plen ++
    h.roff ++ h.rsvd17 ++ h.seq ++ h.opData ++ h.check

/-- The fields of a header word. -/
def VHdr.ofWord (w : BitVec 256) : VHdr :=
  { ver := w.extractLsb' 252 4, rsvd0 := w.extractLsb' 251 1, tc := w.extractLsb' 248 3, fence := w.extractLsb' 247 1,
    noSpray := w.extractLsb' 246 1, rsvd1 := w.extractLsb' 243 3, defl := w.extractLsb' 240 3, opcode := w.extractLsb' 232 8,
    status := w.extractLsb' 224 8, dst := w.extractLsb' 200 24, src := w.extractLsb' 176 24, plen := w.extractLsb' 160 16,
    roff := w.extractLsb' 120 40, rsvd17 := w.extractLsb' 112 8, seq := w.extractLsb' 80 32, opData := w.extractLsb' 16 64,
    check := w.extractLsb' 0 16 }

/-- The header's bytes in wire order. -/
def VHdr.bytes (h : VHdr) : List Byte := (List.range 32).map fun i => h.word.extractLsb' (248 - 8 * i) 8

/-- A header read from the first 32 bytes of a byte string. -/
def VHdr.ofBytes (l : List Byte) : VHdr := VHdr.ofWord (BitVec.ofNat 256 (getBE l 0 32))

/-- HDR_CHECK over bytes 0 to 29 (R44). -/
def VHdr.checkOf (h : VHdr) : BitVec 16 := crc16 (h.bytes.take 30)
def VHdr.checkOk (h : VHdr) : Bool := h.check == h.checkOf
/-- The header with its HDR_CHECK computed. -/
def VHdr.seal (h : VHdr) : VHdr := { h with check := h.checkOf }

/-- A header with the given class, opcode and ends, every other field 0 and VER 1. -/
def VHdr.make (tc opcode : Nat) (dst src : Node) : VHdr :=
  { ver := 1, rsvd0 := 0, tc := BitVec.ofNat 3 tc, fence := 0, noSpray := 0, rsvd1 := 0, defl := 0,
    opcode := BitVec.ofNat 8 opcode, status := 0, dst := dst, src := src, plen := 0, roff := 0, rsvd17 := 0, seq := 0,
    opData := 0, check := 0 }

/-- The link-local node number (R50). -/
def linkLocal : Node := 0xffffff

/-! ### Frames (R38 to R41) -/

end Sys2Proof.Machine

namespace Sys2Proof
open Sys2Proof.Machine

/-- Length from the destination MAC address to the FCS (R98). -/
def Frame.len (f : Frame) : Nat := 12 + 4 * f.tags.length + 2 + f.body.length + 4

/-- TPID 0x8100 in front of an 802.1Q tag. -/
def isTag (t : BitVec 32) : Bool := t.toNat / 65536 == 0x8100

/-- The EtherType at the position R38 and R58 read: after exactly one 802.1Q tag where ACCEPT_VLAN is 1, else directly after
the source address, where a tag shows its TPID. -/
def Frame.readType (acceptVlan : Bool) (f : Frame) : Nat :=
  match f.tags with
  | [] => f.etype.toNat
  | [t] => if acceptVlan && isTag t then f.etype.toNat else t.toNat / 65536
  | t :: _ => t.toNat / 65536

/-- Bytes of the Ethernet header before the body. -/
def Frame.head (f : Frame) : List Byte :=
  bytesBE 6 f.dmac.toNat ++ bytesBE 6 f.smac.toNat ++ f.tags.flatMap (fun t => bytesBE 4 t.toNat) ++ bytesBE 2 f.etype.toNat

/-- IEEE 802.3 CRC-32, bit by bit with the reflected polynomial (R38's FCS). -/
def crc32Bit (c : BitVec 32) : BitVec 32 := if c.getLsbD 0 then (c >>> 1) ^^^ 0xedb88320 else c >>> 1
def crc32Byte (c : BitVec 32) (b : Byte) : BitVec 32 :=
  let c := c ^^^ b.zeroExtend 32
  crc32Bit (crc32Bit (crc32Bit (crc32Bit (crc32Bit (crc32Bit (crc32Bit (crc32Bit c)))))))
/-- PRESUMED log entry 15. -/
def crc32 (l : List Byte) : BitVec 32 := ~~~(l.foldl crc32Byte 0xffffffff)

/-- The frame from the destination MAC address onward, with its FCS; a wrong FCS is shown inverted (R41). (PRESUMED log entry 15.) -/
def Frame.bytes (f : Frame) : List Byte :=
  let p := f.head ++ f.body
  let c := crc32 p
  p ++ bytesLE 4 (if f.fcsOk then c else ~~~c).toNat

/-- The Vaeth header of a frame whose body starts with one. -/
def Frame.hdr (f : Frame) : VHdr := VHdr.ofBytes f.body

/-- The payload that a consuming block reads: PAYLOAD_LEN bytes after the header (R46). -/
def Frame.payload (f : Frame) : List Byte := slice f.body 32 f.hdr.plen.toNat

end Sys2Proof

namespace Sys2Proof.Machine

/-- A Vaeth frame that the chip originates (R39): untagged, from VAETH_DA and VAETH_SA, padded to 64 bytes; the source address
takes the first lane of the egress port when the frame leaves. -/
def Hw.vframe (h : Hw) (hd : VHdr) (payload : List Byte) : Frame :=
  let hd := { hd with plen := BitVec.ofNat 16 payload.length }.seal
  { dmac := (h.reg .vaethDa).setWidth 48, smac := (h.reg .vaethSa).setWidth 48, tags := [],
    etype := (h.reg .vaethCfg).setWidth 16, body := padTo 46 (hd.bytes ++ payload), fcsOk := true }

/-- The source address of an originated frame on egress port `n` (R39). -/
def stampSource (n : Nat) (f : Frame) : Frame := { f with smac := BitVec.ofNat 48 (f.smac.toNat / 1024 * 1024 + n % 1024) }

/-! ### The chip's own node (R51, R52) -/

def Hw.nodeValid (h : Hw) : Bool := h.bit .nodeId Fld.nodeId_valid
def Hw.node (h : Hw) : Node := (h.reg .nodeId).setWidth 24
/-- SRC_NODE of the frames the chip originates as itself. -/
def Hw.srcNode (h : Hw) : Node := if h.nodeValid then h.node else linkLocal
/-- NODE_ID as P-die `q` holds it. -/
def Hw.dieOwns (h : Hw) (q : Nat) (n : Node) : Bool :=
  h.dieFld q .nodeId Fld.nodeId_valid == 1 && h.dieFld q .nodeId Fld.nodeId_node == n.toNat

/-! ### Operation codes (R55) -/

/-- The classes an assigned opcode of the table may travel in; none: not assigned by R55, no restriction. -/
def opClasses (op : Nat) : Option (List Nat) :=
  if 1 ≤ op ∧ op ≤ 0x3f then some [3, 4, 5, 6, 7]
  else match op with
    | 0x40 | 0x41 => some [3, 5, 6]
    | 0x42 | 0x43 => some [4, 5, 6]
    | 0x44 | 0x45 | 0x4a | 0x4b => some [6]
    | 0x48 => some [5]
    | 0x49 => some [5, 6]
    | 0x60 | 0x61 | 0x62 | 0x63 | 0x64 | 0x65 => some [2]
    | 0x70 | 0x71 | 0x72 | 0x73 | 0x74 => some [1]
    | 0x78 => some [0]
    | _ => none

/-- Opcodes that may be link-local (R50). -/
def opLinkLocal (op : Nat) : Bool := op == 0x72 || op == 0x74 || op == 0x78
/-- Collective opcodes (R52). -/
def opCollective (op : Nat) : Bool := decide (0x60 ≤ op) && decide (op ≤ 0x65)
/-- Notices, VENT_NOTICE and PATH_EPOCH among them, and LINK_STATE: no notice is sent for them (R111). -/
def opNotice (op : Nat) : Bool := decide (0x70 ≤ op) && decide (op ≤ 0x74)

/-! ### IPv6 fields of a standard frame (R58) -/

end Sys2Proof.Machine

namespace Sys2Proof
open Sys2Proof.Machine

/-- PRESUMED log entry 15. -/
def Frame.ip6Dst (f : Frame) : Nat := getBE f.body 24 16
def Frame.ip6Src (f : Frame) : Nat := getBE f.body 8 16
def Frame.ip6Next (f : Frame) : Nat := getBE f.body 6 1
def Frame.ip6Dscp (f : Frame) : Nat := bits (getBE f.body 0 4) 22 6
def Frame.udpDst (f : Frame) : Nat := getBE f.body 42 2
/-- The PTP message of an untagged standard frame, on either transport of R304. -/
def Frame.ptp (f : Frame) : Option (List Byte) :=
  if f.etype = 0x88f7 then some f.body
  else if f.etype = 0x86dd ∧ f.ip6Next = 17 ∧ (f.udpDst = 319 ∨ f.udpDst = 320) then some (f.body.drop 48)
  else none

end Sys2Proof

namespace Sys2Proof.Machine

/-- The sum of the 16-bit words of a byte string. -/
def sum16 : List Byte → Nat
  | a :: b :: l => a.toNat * 256 + b.toNat + sum16 l
  | [a] => a.toNat * 256
  | [] => 0

/-- The Internet checksum (PRESUMED RFC 1071, log entry 15): the complement of the one's complement sum. -/
def inetCheck (l : List Byte) : Nat := let s := sum16 l; if s = 0 then 0xffff else 0xffff - ((s - 1) % 0xffff + 1)

/-- The checksum of an upper-layer packet over the IPv6 pseudo-header (PRESUMED RFC 8200, log entry 15). -/
def ip6Check (src dst next : Nat) (l : List Byte) : Nat :=
  inetCheck (bytesBE 16 src ++ bytesBE 16 dst ++ bytesBE 4 l.length ++ bytesBE 4 next ++ l)

/-- An IPv6 packet (PRESUMED RFC 8200, log entry 15.) -/
def ip6Packet (src dst next hop dscp : Nat) (l : List Byte) : List Byte :=
  bytesBE 4 (6 * 2 ^ 28 + dscp * 2 ^ 22) ++ bytesBE 2 l.length ++ bytesBE 1 next ++ bytesBE 1 hop ++ bytesBE 16 src ++ bytesBE 16 dst ++ l

/-- A UDP datagram over IPv6 (PRESUMED RFC 768, log entry 15). -/
def udp6 (src dst sport dport : Nat) (l : List Byte) : List Byte :=
  let head (c : Nat) : List Byte := bytesBE 2 sport ++ bytesBE 2 dport ++ bytesBE 2 (8 + l.length) ++ bytesBE 2 c
  let c := ip6Check src dst 17 (head 0 ++ l)
  head (if c = 0 then 0xffff else c) ++ l

/-- The chip's own IPv6 address in the fabric prefix of P-die `q` (R58). -/
def Hw.ownIp6 (h : Hw) (q : Nat) : Nat :=
  (h.dieReg q .fabricPrefixHi).toNat * 2 ^ 64 + h.dieFld q .fabricPrefixLo Fld.fabricPrefixLo_prefixLo * 2 ^ 24 + h.node.toNat

/-- What a frame that is not a Vaeth frame is (R58); the first row that matches. -/
inductive Std where
  | macControl | lldp | ptp | mcast6 | fabric6 (node : Node) (tc0 : Bool) | other
deriving DecidableEq, Repr

def Hw.classify (h : Hw) (q : Nat) (f : Frame) : Std :=
  let av := h.dieFld q .vaethCfg Fld.vaethCfg_acceptVlan == 1
  let ty := f.readType av
  let ip6 := decide (ty = 0x86dd) && decide (40 ≤ f.body.length)
  if ty = 0x8808 then .macControl
  else if ty = 0x88cc then .lldp
  else if ty = 0x88f7 then .ptp
  else if ip6 && f.ip6Next == 17 && decide (48 ≤ f.body.length) && (f.udpDst == 319 || f.udpDst == 320) then .ptp
  else if ip6 && f.ip6Dst / 2 ^ 112 == 0xff02 then .mcast6
  else if ip6 && h.dieFld q .vaethCfg Fld.vaethCfg_ipv6Fwd == 1 &&
      f.ip6Dst / 2 ^ 64 == (h.dieReg q .fabricPrefixHi).toNat &&
      bits f.ip6Dst 24 40 == h.dieFld q .fabricPrefixLo Fld.fabricPrefixLo_prefixLo then
    .fabric6 (BitVec.ofNat 24 f.ip6Dst)
      (f.ip6Dscp == h.dieFld q .vaethCfg Fld.vaethCfg_mgmtDscpA || f.ip6Dscp == h.dieFld q .vaethCfg Fld.vaethCfg_mgmtDscpB)
  else .other

end Sys2Proof.Machine
end

