-- ==== Sys2Proof/Machine/Ports.lean ====
section
/-! DEFINITION. Port shapes (R222), the state a port shows to forwarding (R67, R75, R91), and table access with parity (R70). -/

namespace Sys2Proof.Machine

/-- SHAPE of an octet. -/
def Hw.shape (h : Hw) (o : Nat) : Nat := h.fld (.octetCfg o) Fld.octetCfg_shape
/-- Lanes per port of a shape (R222). -/
def shapeLanes (s : Nat) : Nat := if s = 1 then 2 else if s = 2 then 4 else 1
def Hw.portLanes (h : Hw) (n : Nat) : Nat := shapeLanes (h.shape (n / 8))
/-- Lane `n` is the first lane of a port in the present shape of its octet. -/
def Hw.portStart (h : Hw) (n : Nat) : Bool := decide (n < 1024) && n % h.portLanes n == 0
/-- The port that holds lane `n`. -/
def Hw.portOf (h : Hw) (n : Nat) : Nat := n / h.portLanes n * h.portLanes n
/-- The ports of octet `o`. -/
def Hw.octetPorts (h : Hw) (o : Nat) : List Nat := ((List.range 8).map (8 * o + ·)).filter h.portStart
/-- The octet runs Oslux 400. -/
def Hw.oslux (h : Hw) (n : Nat) : Bool := h.shape (n / 8) != 3
/-- The P-die of a port. -/
def portDie (n : Nat) : Nat := n / 256 % 4

def Hw.linkState (h : Hw) (n : Nat) : Nat := h.fld (.portLink n) Fld.portLink_state
def Hw.linkUp (h : Hw) (n : Nat) : Bool := h.linkState n == 3

/-- Entries of the circuit map that are not OFF. -/
def Hw.circuits (h : Hw) : List Nat :=
  h.regs.filterMap fun x => match x.1 with
    | .circuitCtl i => if Fld.circuitCtl_state.get x.2 ≠ 0 then some i else none
    | _ => none
def Hw.circuitPort (h : Hw) (i : Nat) : Nat := h.fld (.circuitMap i) Fld.circuitMap_port
def Hw.circuitState (h : Hw) (i : Nat) : Nat := h.fld (.circuitCtl i) Fld.circuitCtl_state
/-- A bypass port (R91). -/
def Hw.bypass (h : Hw) (n : Nat) : Bool := h.circuits.any fun i => h.circuitPort i == n

def Hw.ventState (h : Hw) (n : Nat) : Nat := h.fld (.portFwd n) Fld.portFwd_ventState
def Hw.peerVent (h : Hw) (n : Nat) : Bool := h.bit (.portFwd n) Fld.portFwd_peerVent
/-- PORT_FWD[n].IN_SERVICE: link up, VENT_STATE 0, and not a bypass port (R75). -/
def Hw.inService (h : Hw) (n : Nat) : Bool := h.portStart n && h.linkUp n && h.ventState n == 0 && !h.bypass n
/-- What R67 asks of the port of an eligible member. -/
def Hw.portEligible (h : Hw) (n : Nat) : Bool := h.inService n && !h.peerVent n

/-- Active transmit lanes of a port. -/
def Hw.txLanes (h : Hw) (n : Nat) : Nat :=
  ((List.range 4).filter fun i => Nat.testBit (h.fld (.portLink n) Fld.portLink_txMask) i).length
/-- Line rate of a port in units of 100 Mb/s, by its active lanes (R238); a port that is not up counts at its full width. -/
def Hw.lineRate (h : Hw) (n : Nat) : Nat :=
  if h.shape (n / 8) = 3 then 2000 else 4000 * (if h.txLanes n = 0 then h.portLanes n else h.txLanes n)

/-- Recompute OVERBOOK of a port (R118): CIR over the eight shapers against 90 % of the line rate. -/
def Hw.overbook (h : Hw) (n : Nat) : Hw :=
  let sum := ((List.range 8).map fun t => h.fld (.shaper n t 0) Fld.shaper_rate).sum
  h.setFld (.schedPort n) Fld.schedPort_overbook (if 10 * sum > 9 * h.lineRate n then 1 else 0)

/-! ### Table parity (R70) -/

/-- The entry reads with bad parity in the replica of P-die or C-die `q`. -/
def Hw.tblBad (h : Hw) (q : Nat) (t : TblRef) : Bool := h.fwd.bad.any fun x => x.1 == t && x.2 == q

/-- UNIT of TABLE_PARITY (R329), which is also the qualifier of event 0x021 for the forwarding tables. -/
def tblUnit : Tbl → Nat
  | .level _ => 0 | .spar => 1 | .exc => 2 | .mcast => 3 | .circuit => 4 | .bridle => 5 | .member => 6 | .recipe => 7

/-- A replica of the same entry with good parity stands in another quadrant. -/
def Hw.tblGood (h : Hw) (t : TblRef) : Bool := (List.range 4).any fun q => !h.tblBad q t

/-- A lookup in P-die `q` met bad parity: the event is counted and a record queued, CE while a good replica exists (R70). -/
def Hw.parityMiss (h : Hw) (q : Nat) (t : TblRef) : Hw :=
  (h.count q 0x021 (tblUnit t.tbl) 1).record
    { code := 0x0103, die := q, unit := (tblUnit t.tbl), d0 := BitVec.ofNat 64 t.ix, cls := some (if h.tblGood t then 0 else 1) }

/-! ### Words damaged on purpose (R318, R319, R330) -/

/-- Spend an armed ERR_INJECT at point `pt` of die `d`: none, a single-bit or a double-bit error. BITS 0 and 3 have no stated
effect: a free value says which of the three it is (log entry 11). (DEDUCED log entry 40.) -/
def Hw.inject (h : Hw) (pt d : Nat) : Nat × Hw :=
  if h.bit .errInject Fld.errInject_arm && h.fld .errInject Fld.errInject_point == pt && h.fld .errInject Fld.errInject_die == d then
    let b := h.fld .errInject Fld.errInject_bits
    let h := h.setFld .errInject Fld.errInject_arm 0
    if b = 1 ∨ b = 2 then (b, h)
    else
      let (v, h) := h.draw
      (v.toNat % 3, h)
  else (0, h)

/-- A memory corrects a single-bit error, a boundary does not (R318). -/
def pointMemory (pt : Nat) : Bool := pt == 1 || pt == 3 || pt == 4 || pt == 7 || pt == 10 || pt == 12

/-- A frame or request of class `c` passes point `pt` of die `d`: whether a word of it stays uncorrected. `inverted` says that
its transmission has begun, so that it ends with an inverted FCS (R319). (DEDUCED log entry 40.) -/
def Hw.eccPass (h : Hw) (pt d c : Nat) (inverted : Bool) : Bool × Hw :=
  let (b, h) := h.inject pt d
  if b = 0 then (false, h)
  else if b = 1 ∧ pointMemory pt = true then
    (false, (h.satFld (.errCount d) Fld.errCount_ce 1).record { code := 0x0105, die := d, unit := pt, injected := true })
  else
    (true, (h.satFld (.errCount d) Fld.errCount_uc 1).record
      { code := 0x0104, die := d, unit := pt, d0 := BitVec.ofNat 64 c, d1 := if inverted then 1 else 0, injected := true })

end Sys2Proof.Machine
end

