-- ==== Sys2Proof/Machine/Buffer.lean ====
section
/-! DEFINITION. The packet buffer and the virtual output queues as they stand (R96 to R103): cells, depths, admission. -/

namespace Sys2Proof.Machine

/-- Cells of a frame of length `n` (R98). -/
def cellsOf (n : Nat) : Nat := (n + 255) / 256

def Held.len (x : Held) : Nat := x.frame.len

def Spot.inQueue (s : Spot) : Bool := s == .queue || s == .spill

/-- The frame holds packet-buffer cells: some copy still waits in SRAM (R98). -/
def Held.inSram (x : Held) : Bool := !x.ballast && x.copies.any fun c => c.spot == .queue

/-- Bytes in queue (n, t) of P-die `q`, spilled bytes counted (R100). -/
def Hw.depth (h : Hw) (q n t : Nat) : Nat :=
  (h.buf.held.map fun x =>
    if x.die = q ∧ x.cls = t ∧ x.ballast = false then
      x.len * (x.copies.filter fun c => c.port == n && c.spot.inQueue).length else 0).sum

/-- The SRAM part of a queue. -/
def Hw.sramDepth (h : Hw) (q n t : Nat) : Nat :=
  (h.buf.held.map fun x =>
    if x.die = q ∧ x.cls = t ∧ x.ballast = false then
      x.len * (x.copies.filter fun c => c.port == n && c.spot == .queue).length else 0).sum

/-- Cells that class `t` uses in P-die `q`. -/
def Hw.used (h : Hw) (q t : Nat) : Nat :=
  (h.buf.held.map fun x => if x.die = q ∧ x.cls = t ∧ x.inSram = true then cellsOf x.len else 0).sum

/-- Cells held in P-die `q` for replies that a service owes: of 64 bytes and class 6, one for each atomic that waits for its execution and
one for each retry that waits with it (R97, R99). (DEDUCED log entry 37.) -/
def Hw.promised (h : Hw) (q t : Nat) : Nat :=
  if t = 6 then
    (h.gon.atomQ.map fun y => (if portDie y.port = q then 1 else 0) + (y.waiters.filter fun w => portDie w.2 == q).length).sum
  else 0

/-- Cells that class `t` uses or has promised. (DEDUCED log entry 37.) -/
def Hw.charged (h : Hw) (q t : Nat) : Nat := h.used q t + h.promised q t

/-- Cells of a P-die (R98). -/
def bufCells : Nat := 655360

def Hw.reserve (h : Hw) (q t : Nat) : Nat := 256 * h.fld (.bufClass q t) Fld.bufClass_reserve
def Hw.limit (h : Hw) (q t : Nat) : Nat := 256 * h.fld (.bufClass q t) Fld.bufClass_limit

/-- Free cells of the shared pool: the cells no class reserves, less what classes use or have promised beyond their reserves. -/
def Hw.poolFree (h : Hw) (q : Nat) : Nat :=
  bufCells - ((List.range 8).map fun t => h.reserve q t).sum - ((List.range 8).map fun t => h.charged q t - h.reserve q t).sum

/-- FREE_CELLS of BUF_STATUS. -/
def Hw.freeCells (h : Hw) (q : Nat) : Nat := bufCells - ((List.range 8).map fun t => h.used q t).sum

/-- R98 admits a frame of class `t` and length `n` to the buffer of P-die `q`. -/
def Hw.admits (h : Hw) (q t n : Nat) : Bool :=
  let c := cellsOf n
  let u := h.charged q t + c
  decide (u ≤ h.reserve q t) || (decide (2 ≤ t) && decide (c ≤ h.poolFree q) && decide (u ≤ h.limit q t))

/-- Bytes spilled by P-die `q`. -/
def Hw.spillUsed (h : Hw) (q : Nat) : Nat :=
  (h.buf.held.map fun x => if x.die = q then x.len * (x.copies.filter fun c => c.spot == .spill).length else 0).sum

/-- Bytes that spill may move in 1 µs (R103): a share of the quadrant's 3.6 TB/s. (DESIGN CHOICE log entry 10.) -/
def Hw.spillBudget (h : Hw) (q : Nat) : Nat := 36000 * h.fld (.spillCfg q) Fld.spillCfg_spillBwPct

/-- The spill region of P-die `q` has room and bandwidth for `n` bytes (R103). -/
def Hw.spillFits (h : Hw) (q n : Nat) : Bool :=
  h.bit (.spillCfg q) Fld.spillCfg_spillEn && decide (h.spillUsed q + n ≤ h.fld (.spillCfg q) Fld.spillCfg_spillGib * 2 ^ 30) &&
    decide (h.buf.spillNow.get q + n ≤ h.spillBudget q)

/-- DESIGN CHOICE log entry 10. -/
def Hw.spillMoved (h : Hw) (q n : Nat) : Hw :=
  { h with buf := { h.buf with spillNow := h.buf.spillNow.set q (h.buf.spillNow.get q + n) } }

/-- Bytes in the egress staging of an octet (R29); of a frame still crossing, the cells that have arrived. -/
def Hw.staged (h : Hw) (o : Nat) : Nat :=
  (h.buf.held.map fun x => ((x.copies.filter fun c => c.port / 8 == o && (c.spot == .staging || c.spot == .wire || c.spot == .floor)).map
    fun c => x.len - 256 * c.left).sum).sum

/-- Egress staging of an octet has room for `n` bytes; the longest frame finds room in empty staging. (DESIGN CHOICE log entry 19.) -/
def Hw.stagingRoom (h : Hw) (o n : Nat) : Bool := h.staged o == 0 || decide (h.staged o + n ≤ Config.stagingBytes)

/-- The floor path from P-die `a` to P-die `b` has room for `n` bytes. (DESIGN CHOICE log entry 19.) -/
def Hw.floorRoom (h : Hw) (a b n : Nat) : Bool :=
  let used := (h.buf.held.map fun x => if x.die = a then
    256 * ((x.copies.filter fun c => portDie c.port == b).map (·.left)).sum else 0).sum
  a == b || used == 0 || decide (used + n ≤ Config.floorBytes)

/-- QLIMIT of class `t` in P-die `q`, in bytes. -/
def Hw.qlimit (h : Hw) (q t : Nat) : Nat := 4096 * h.fld (.voqCfg q t) Fld.voqCfg_qlimit

/-- Depth in units of 4 KiB, rounded up (R121). -/
def units4k (n : Nat) : Nat := (n + 4095) / 4096

/-- Queue (n, t) of P-die `q` has reached SPILL_THRESH: new frames of TC5 and TC6 spill (R103). -/
def Hw.spillOver (h : Hw) (q n t : Nat) : Bool :=
  (t == 5 || t == 6) && h.bit (.spillCfg q) Fld.spillCfg_spillEn &&
    decide (4096 * h.fld (.voqCfg q t) Fld.voqCfg_spillThresh ≤ h.sramDepth q n t)

/-- What one queue keeps (R109). -/
def Hw.voq (h : Hw) (q n t : Nat) : Voq := (aget (q * 8192 + 8 * n + t) h.buf.voq).getD ⟨[], 0, 0⟩
def Hw.setVoq (h : Hw) (q n t : Nat) (v : Voq) : Hw :=
  let k := q * 8192 + 8 * n + t
  { h with buf := { h.buf with voq := if v = ⟨[], 0, 0⟩ then adel k h.buf.voq else aput k v h.buf.voq } }

/-! ### Frames by number -/

def Hw.heldAt (h : Hw) (id : Nat) : Option Held := h.buf.held.find? fun x => x.id == id
def Hw.mapHeld (h : Hw) (id : Nat) (f : Held → Held) : Hw :=
  { h with buf := { h.buf with held := h.buf.held.map fun x => if x.id = id then f x else x } }
def Hw.dropHeld (h : Hw) (id : Nat) : Hw := { h with buf := { h.buf with held := h.buf.held.filter fun x => x.id != id } }
/-- The place of the copy of frame `id` toward port `n` changes; its order stays. -/
def Hw.setSpot (h : Hw) (id n : Nat) (spot : Spot) : Hw :=
  h.mapHeld id fun x => { x with copies := x.copies.map fun c => if c.port = n then { c with spot := spot } else c }
/-- Remove a frame whose last copy is gone. -/
def Hw.sweepHeld (h : Hw) (id : Nat) : Hw :=
  { h with buf := { h.buf with held := h.buf.held.filter fun x => x.id != id || !x.copies.isEmpty } }
/-- DESIGN CHOICE log entry 19. -/
def Hw.freshId (h : Hw) : Nat × Hw := (h.buf.nextId, { h with buf := { h.buf with nextId := h.buf.nextId + 1 } })

/-! ### The scheduler's view (R113, R114) -/

def Hw.sched (h : Hw) (n : Nat) : Sched := (aget n h.egr.sched).getD Sched.zero
def Hw.setSched (h : Hw) (n : Nat) (s : Sched) : Hw := { h with egr := { h.egr with sched := aput n s h.egr.sched } }

/-- Frames waiting for egress port `n` in class `t`, in any P-die and in Ballast. -/
def Hw.backlogged (h : Hw) (n t : Nat) : Bool :=
  h.buf.held.any fun x => x.cls == t && x.copies.any fun c => c.port == n && c.spot.inQueue

/-- on_wake of R114 in one band. -/
def Band.wake (b : Band) (t : Nat) : Band := { b with start := b.start.set t (max b.vtime (b.finish.getD t 0)) }
/-- on_serve of R114 in one band. -/
def Band.serve (b : Band) (t len w : Nat) (still : Bool) : Band :=
  let b := { b with vtime := max b.vtime (b.start.getD t 0) }
  let b := if w = 0 then b else { b with finish := b.finish.set t (b.start.getD t 0 + len * 65536 / w) }
  if still then { b with start := b.start.set t (b.finish.getD t 0) } else b

/-- Class `t` of port `n` becomes backlogged. -/
def Hw.onWake (h : Hw) (n t : Nat) : Hw :=
  let s := h.sched n
  h.setSched n { s with comm := s.comm.wake t, exc := s.exc.wake t }

/-- A class that became empty loses its starvation timer and promotion (R116). -/
def Hw.onEmpty (h : Hw) (n t : Nat) : Hw :=
  if h.backlogged n t then h
  else
    let s := h.sched n
    h.setSched n { s with starve := s.starve.set t 0, promoted := s.promoted.set t false }

/-- A copy of frame `id` joins its queue at `spot`: the copy takes the next place, and the class wakes if it was empty. -/
def Hw.joinCopy (h : Hw) (id : Nat) (n t : Nat) (spot : Spot) : Hw :=
  let h := if h.backlogged n t then h else h.onWake n t
  let j := h.buf.nextJoin
  let h := { h with buf := { h.buf with nextJoin := j + 1 } }
  h.mapHeld id fun x => { x with copies := x.copies.map fun c => if c.port = n then { c with spot := spot, join := j } else c }

end Sys2Proof.Machine
end

