-- ==== Sys2Proof/Machine/Route.lean ====
section
/-! DEFINITION. The order of lookup and the choice of path (R62 to R70, R76 to R80, R85, R86, R91). -/

namespace Sys2Proof.Machine

/-- The bucket of a node in the exception table (R68). -/
def excBucket (node : Node) (seed : BitVec 32) : Nat :=
  let x := (node.zeroExtend 32 ^^^ seed) * 0x9E3779B1
  (x ^^^ (x >>> 16)).toNat % 131072

/-- pin_hash of R79. (DEDUCED log entry 23.) -/
def pinHash (src dst : Node) (tc : Nat) (seed : BitVec 32) : Nat :=
  let x : W64 := (src.zeroExtend 64 <<< 27) ||| (dst.zeroExtend 64 <<< 3) ||| BitVec.ofNat 64 tc
  let x := (x ^^^ seed.zeroExtend 64) * 0x9E3779B97F4A7C15
  ((x ^^^ (x >>> 29)) >>> 32).toNat

/-- What a route asks of a frame. -/
structure Ask where
  dst : Node
  src : Node
  tc : Nat
  /-- Vaeth frame with NO_SPRAY = 0 -/
  sprayable : Bool
  /-- Bridle group number of a TC2 frame that carries one -/
  group : Option Nat
  inPort : Option Nat
deriving DecidableEq, Repr

/-- The source that enters the pin hash: 0 for TC5 and TC6 Vaeth frames (R78). (DEDUCED log entry 23.) -/
def Ask.pinSrc (a : Ask) : Node := if a.tc = 5 ∨ a.tc = 6 then 0 else a.src

def Hw.pinSeed (h : Hw) (q : Nat) : BitVec 32 := BitVec.ofNat 32 (h.dieFld q .fwdSeed Fld.fwdSeed_pinSeed)

/-! ### Lookup (R62) -/

/-- The new seed of a rehash whose entries are moving (R265, item 3). -/
def Hw.rehashing (h : Hw) (k : LongOp) : Option (BitVec 32) :=
  (h.hst.long.find? fun l => l.op == k && l.tested).map fun l => BitVec.ofNat 32 (l.latch.headD 0)

/-- Whether keys in these buckets fit: four in each bucket, the rest in overflow stores of `cap` for each of `dies` dies. -/
def bucketsFit (bs : List Nat) (dies cap : Nat) : Bool :=
  (List.range dies).all fun c =>
    let mine := bs.filter fun b => b % dies == c
    decide ((mine.dedup.map fun b => mine.count b - 4).sum ≤ cap)

/-- Exception entry of a node in the replica of P-die `q`. -/
def Hw.excFind (h : Hw) (q : Nat) (node : Node) : Option ExcEnt := (h.fwd.exc.get q).find? fun e => e.node == node

/-- The route an exception entry names. -/
def Hw.excRoute (h : Hw) (e : ExcEnt) : Route :=
  match e.kind with
  | 0 => if h.portStart e.target then .port e.target else .none
  | 1 => .spar (e.target % 4096)
  | 2 => .mcast e.target
  | _ => .none

/-- Circuits onto which a frame is steered (R91), with the bad map entries met on the way. (DEDUCED log entry 23.) -/
def Hw.circuitMatch (h : Hw) (q : Nat) (a : Ask) : List Nat × List Nat :=
  let live := h.circuits.filter fun i => h.circuitState i == 1
  let bad := live.filter fun i => h.tblBad q ⟨.circuit, i⟩
  (((List.range 256).filter fun i => live.contains i && !bad.contains i).filter fun i =>
    !h.peerVent (h.circuitPort i) && h.fld (.circuitMap i) Fld.circuitMap_remoteRack == a.dst.toNat / 256 &&
    (Nat.testBit (h.fld (.circuitMap i) Fld.circuitMap_classMask) a.tc ||
      (h.bit (.circuitMap i) Fld.circuitMap_groupEn && a.tc == 2 &&
        a.group == some (h.fld (.circuitMap i) Fld.circuitMap_group))), bad)

/-- The word of a level table in the replica of P-die `q`. -/
def levelReg (l : Level) (q i : Nat) : Reg :=
  match l with
  | .zone => .zoneTbl q i
  | .row => .rowTbl q i
  | .rack => .rackTbl q i

/-- The index of a destination in a level table. -/
def levelIx (l : Level) (dst : Node) : Nat :=
  match l with
  | .zone => dst.toNat / 2 ^ 20
  | .row => dst.toNat / 2 ^ 14
  | .rack => dst.toNat / 2 ^ 8

/-- Entries of a level table. -/
def levelSize (l : Level) : Nat :=
  match l with
  | .zone => 16
  | .row => 1024
  | .rack => 65536

/-- The route of a valid level entry; LEARNED counts in the Rack table only (R64, R65). -/
def levelRoute (l : Level) (v : W64) : Route :=
  if Fld.rackTbl_discard.get v = 1 then .none
  else if l = .rack ∧ Fld.rackTbl_learned.get v = 1 then .flood (Fld.rackTbl_spar.get v)
  else .spar (Fld.rackTbl_spar.get v)

/-- The first level table that holds a valid good entry. -/
def Hw.levelLookup (h : Hw) (q : Nat) (dst : Node) : List Level → Route × Hw
  | [] => (.none, h)
  | l :: ls =>
    let i := levelIx l dst
    let v := h.reg (levelReg l q i)
    let t : TblRef := ⟨.level l, i⟩
    if h.tblBad q t then Hw.levelLookup (h.parityMiss q t) q dst ls
    else if Fld.rackTbl_valid.get v = 1 then (levelRoute l v, h)
    else Hw.levelLookup h q dst ls

/-- The route of R62. -/
def Hw.lookup (h : Hw) (q : Nat) (a : Ask) : Route × Hw :=
  let exc := h.excFind q a.dst
  let bad := h.tblBad q ⟨.exc, a.dst.toNat⟩
  let h := if exc.isSome && bad then h.parityMiss q ⟨.exc, a.dst.toNat⟩ else h
  match (if bad then none else exc) with
  | some e => (h.excRoute e, h)
  | none =>
    let m := h.circuitMatch q a
    let h := m.2.foldl (fun h i => h.parityMiss q ⟨.circuit, i⟩) h
    match m.1 with
    | [] => h.levelLookup q a.dst [.rack, .row, .zone]
    | c :: cs =>
      let k := pinHash a.pinSrc a.dst a.tc (h.pinSeed q) % (c :: cs).length
      (.port (h.circuitPort ((c :: cs).getD k c)), h)

/-! ### Spars (R66, R67, R79, R80) -/

/-- One word of a Spar as two slots; both are ineligible when its parity is bad (R70). -/
def Hw.sparWord (h : Hw) (q s w : Nat) : List (Nat × Nat) :=
  if h.tblBad q ⟨.spar, 32 * s + w⟩ then [(0, 0), (0, 0)]
  else
    let v := h.reg (.sparTbl q (32 * s + w))
    [(Fld.sparTbl_portA.get v, Fld.sparTbl_weightA.get v), (Fld.sparTbl_portB.get v, Fld.sparTbl_weightB.get v)]

/-- The 64 slots of a Spar as port and weight; a slot that is not eligible has weight 0 (R67). (DESIGN CHOICE log entry 21.) -/
def Hw.sparSlots (h : Hw) (q s : Nat) : List (Nat × Nat) :=
  ((List.range 32).flatMap fun w => h.sparWord q s w).map fun m => (m.1, if m.2 ≠ 0 ∧ h.portEligible m.1 = true then m.2 else 0)

/-- Count the bad words of a Spar that a lookup read. -/
def Hw.sparParity (h : Hw) (q s : Nat) : Hw :=
  (List.range 32).foldl (fun h w => if h.tblBad q ⟨.spar, 32 * s + w⟩ then h.parityMiss q ⟨.spar, 32 * s + w⟩ else h) h

/-- The eligible ports of a Spar. -/
def Hw.sparPorts (h : Hw) (q s : Nat) : List Nat := (((h.sparSlots q s).filter fun m => m.2 != 0).map (·.1)).dedup

def sparTotal (s : List (Nat × Nat)) : Nat := (s.map (·.2)).sum

/-- weighted_pick of R79: the slot index. -/
def weightedPick : List (Nat × Nat) → Nat → Nat → Nat
  | [], _, i => i
  | m :: l, r, i => if r < m.2 then i else weightedPick l (r - m.2) (i + 1)

/-- avoid_in of R79. -/
def avoidIn (s : List (Nat × Nat)) (m : Nat) (inPort : Option Nat) : Nat :=
  if some (s.getD m (0, 0)).1 ≠ inPort then m
  else
    match ((List.range 64).drop 1).find? fun i =>
        let x := s.getD ((m + i) % 64) (0, 0)
        x.2 != 0 && some x.1 != inPort with
    | some i => (m + i) % 64
    | none => m

/-- The member that a pinned frame takes (R79). -/
def pinMember (s : List (Nat × Nat)) (a : Ask) (seed : BitVec 32) : Nat :=
  avoidIn s (weightedPick s (pinHash a.pinSrc a.dst a.tc seed % sparTotal s) 0) a.inPort

/-- The member that a sprayed frame takes (R80); the two draws are free values. (DESIGN CHOICE log entry 4.) -/
def Hw.sprayMember (h : Hw) (q : Nat) (s : List (Nat × Nat)) (a : Ask) : Nat × Hw :=
  let (x, h) := h.draw
  let (y, h) := h.draw
  let i := avoidIn s (weightedPick s (x.toNat % 2 ^ 32 % sparTotal s) 0) a.inPort
  let j := avoidIn s (weightedPick s (y.toNat % 2 ^ 32 % sparTotal s) 0) a.inPort
  let port (k : Nat) : Nat := (s.getD k (0, 0)).1
  (if h.depth q (port j) a.tc < h.depth q (port i) a.tc then j else i, h)

/-- A frame is sprayed: TC3, TC4 or TC7 with NO_SPRAY = 0 and PIN_ALL = 0 (R78). -/
def Hw.sprays (h : Hw) (q : Nat) (a : Ask) : Bool :=
  a.sprayable && (a.tc == 3 || a.tc == 4 || a.tc == 7) && h.dieFld q .fwdCfg Fld.fwdCfg_pinAll == 0

/-- The port of a Spar route; none when no member is eligible (R67). -/
def Hw.sparPick (h : Hw) (q s : Nat) (a : Ask) : Option Nat × Hw :=
  let h := h.sparParity q s
  let sl := h.sparSlots q s
  if sparTotal sl = 0 then (none, h)
  else if h.sprays q a then
    let (m, h) := h.sprayMember q sl a
    (some (sl.getD m (0, 0)).1, h)
  else (some (sl.getD (pinMember sl a (h.pinSeed q)) (0, 0)).1, h)

/-! ### Targets -/

/-- The ports of a multicast group that name a first lane (R85), in the replica of P-die `q`. -/
def Hw.groupPorts (h : Hw) (q g : Nat) : List Nat := ((aget g (h.fwd.mcast.get q)).getD []).filter h.portStart

/-- The egress ports of a route (R76, R78, R86); a venting port takes no new frame (R88, R89). Skipped multicast targets are counted. -/
def Hw.targets (h : Hw) (q : Nat) (a : Ask) (r : Route) : List Nat × Hw :=
  match r with
  | .none => ([], h)
  | .port n => (if h.ventState n = 0 then [n] else [], h)
  | .spar s => let (p, h) := h.sparPick q s a; (p.toList, h)
  | .flood s =>
    let h := (h.sparParity q s).count q 0x022 0 1
    ((h.sparPorts q s).filter fun n => some n != a.inPort, h)
  | .mcast g =>
    if h.tblBad q ⟨.mcast, g⟩ then ([], h.parityMiss q ⟨.mcast, g⟩)
    else
      let l := (h.groupPorts q g).filter fun n => some n != a.inPort
      let ok := l.filter fun n => h.inService n && !h.peerVent n
      (ok, if ok.length < l.length then h.count q 0x026 0 (l.length - ok.length) else h)

/-- A route over which a frame is stored once and copied (R86). -/
def Route.multi : Route → Bool
  | .mcast _ | .flood _ => true
  | _ => false

end Sys2Proof.Machine
end

