-- ==== Sys2Proof/Machine/Send.lean ====
section
/-! DEFINITION. What the forwarding plane sends of its own: sample and mirror records (R87, R270, R313 to R315), originated
frames (R99), notices with their filter (R57, R109 to R111), and path epochs (R83). -/

namespace Sys2Proof.Machine

/-! ### Sample and mirror records -/

/-- The record `b` finds room in ring `r` (R270). -/
def Hw.ringTakes (h : Hw) (r n : Nat) : Bool :=
  h.ringState r == 1 &&
    match h.recBufs r with
    | [] => false
    | d :: rest =>
      decide (d.filled.length + n ≤ getLE d.bytes 16 4) ||
        (!d.filled.isEmpty && h.hst.mayRequest && match rest with | e :: _ => decide (n ≤ getLE e.bytes 16 4) | [] => false)

/-- A delta of a sample record in ns (R315). -/
def sampleDelta (born : Nat) (pts : List (Nat × Nat)) (k : Nat) : Nat :=
  match aget k pts with
  | some s => min ((s - born) * 25 / 16) 0xfffffffe
  | none => 0xffffffff

/-- What a frame with a sampling tag shows in its record (R315). -/
structure Sampled where
  die : Nat
  tag : SampleTag
  born : Nat
  inPort : Nat
  outPort : Option Nat
  frame : Frame
  hdr : Option VHdr
  cls : Nat
  deflected : Bool
  mcast : Bool
deriving DecidableEq, Repr

def Sampled.bytes (x : Sampled) (now outcome detail : Nat) : List Byte :=
  let n (f : VHdr → Nat) : Nat := match x.hdr with | some d => f d | none => 0
  let pts := aput 8 now x.tag.pts
  let b (v : Bool) (k : Nat) : Nat := if v then k else 0
  bytesLE 2 1 ++ bytesLE 2 64 ++ bytesLE 4 x.tag.stamp.toNat ++ bytesLE 4 x.tag.tagId.toNat ++ bytesLE 2 x.inPort ++
    bytesLE 2 (x.outPort.getD 0x3ff) ++ bytesLE 3 (n fun d => d.src.toNat) ++ bytesLE 1 (n fun d => d.opcode.toNat) ++
    bytesLE 3 (n fun d => d.dst.toNat) ++
    bytesLE 1 (x.cls + 8 * (n fun d => d.defl.toNat) + 64 * (n fun d => d.fence.toNat) + b x.hdr.isNone 128) ++
    bytesLE 2 x.frame.len ++ bytesLE 1 outcome ++
    bytesLE 1 (b x.deflected 1 + b x.tag.spilled 2 + b x.tag.sprayed 4 + b x.mcast 8) ++ bytesLE 1 detail ++ bytesLE 3 0 ++
    ([2, 3, 4, 5, 6, 7, 8].flatMap fun k => bytesLE 4 (sampleDelta x.born pts k)) ++ bytesLE 4 (n fun d => d.seq.toNat)

/-- A tagged frame reaches point 8 (R314). -/
def Hw.sampleEnd (h : Hw) (x : Sampled) (outcome detail : Nat) : Hw :=
  let b := x.bytes (h.slot x.die) outcome detail
  if h.bit .sampleCfg Fld.sampleCfg_dest then h.toRing (h.fld .sampleCfg Fld.sampleCfg_ring) b else h.emit (.coreRecord b)

/-- The record of a held frame, if it carries a tag. (DESIGN CHOICE log entry 22.) -/
def Hw.sampleHeld (h : Hw) (x : Held) (out : Option Nat) (outcome detail : Nat) : Hw :=
  match x.tag with
  | some t => h.sampleEnd ⟨x.die, t, x.born, x.inPort.getD 0, out, x.frame, x.hdr, x.cls, x.deflected, x.mcast⟩ outcome detail
  | none => h

/-- The sample record of a consumed frame that reaches the points `ks` now and ends with `outcome` (R314). -/
def Hw.takenEnd (h : Hw) (x : Taken) (ks : List Nat) (outcome : Nat) : Hw :=
  match x.tag with
  | none => h
  | some t =>
    let q := portDie x.port
    let pts := ks.foldl (fun l k => aput k (h.slot q) l) t.pts
    h.sampleEnd ⟨q, { t with pts := pts }, x.born, x.port, none, x.frame, some x.hdr, x.hdr.tc.toNat, false, false⟩ outcome 0

/-- Note that a held tagged frame reached point `k`. -/
def Hw.samplePoint (h : Hw) (id k : Nat) : Hw :=
  h.mapHeld id fun x => { x with tag := x.tag.map fun t => { t with pts := aput k (h.slot x.die) t.pts } }

/-- Note a point that one copy of a tagged frame reached: only the copy that carries the tag counts (R313). -/
def Hw.copyPoint (h : Hw) (id n k : Nat) : Hw :=
  h.mapHeld id fun x => { x with tag := x.tag.map fun t => if t.port = some n then { t with pts := aput k (h.slot x.die) t.pts } else t }

/-- The copy of a frame toward port `n` reaches point 8: the record, if that copy carries the tag. -/
def Hw.sampleCopy (h : Hw) (x : Held) (n outcome : Nat) : Hw :=
  match x.tag with
  | some t => if t.port = some n then (h.sampleHeld x (some n) outcome 0).mapHeld x.id fun y => { y with tag := none } else h
  | none => h

/-- The record of the copy that carries the tag, if it is among those that satisfy `p`. -/
def Hw.sampleCopies (h : Hw) (x : Held) (p : Copy → Bool) (outcome : Nat) : Hw :=
  (x.copies.filter p).foldl (fun h c => h.sampleCopy x c.port outcome) h

/-- The mirror record of R270. -/
def mirrorRecord (stamp : Nat) (m dir cls port : Nat) (f : Frame) : List Byte :=
  let c := f.bytes.take 128
  bytesLE 2 2 ++ bytesLE 2 192 ++ bytesLE 4 stamp ++ bytesLE 2 (m + 16 * dir + 32 * cls) ++ bytesLE 2 port ++
    bytesLE 2 f.len ++ bytesLE 2 c.length ++ List.replicate 48 0 ++ padTo 128 c

/-- One mirror session sees a frame of class `t` at its port and direction (R87). -/
def Hw.mirrorOne (h : Hw) (m n dir t : Nat) (f : Frame) : Hw :=
  let r := Reg.mirrorCfg m
  let every := h.fld r Fld.mirrorCfg_n
  if !h.bit r Fld.mirrorCfg_enable || every == 0 || h.fld r Fld.mirrorCfg_port != n || h.fld r Fld.mirrorCfg_dir != dir ||
      !Nat.testBit (h.fld r Fld.mirrorCfg_classMask) t then h
  else
    let k := (aget m h.fwd.mirror).getD 0 + 1
    let h := { h with fwd := { h.fwd with mirror := aput m (if k = every then 0 else k) h.fwd.mirror } }
    if k ≠ every then h
    else
      let b := mirrorRecord h.stamp32.toNat m dir t n f
      if h.bit r Fld.mirrorCfg_dest then
        let ring := h.fld r Fld.mirrorCfg_ring
        let h := if h.ringTakes ring b.length then h else h.count (portDie n) 0x027 m 1
        h.toRing ring b
      else h.emit (.coreRecord b)

/-- All sixteen sessions. -/
def Hw.mirrors (h : Hw) (n dir t : Nat) (f : Frame) : Hw := (List.range 16).foldl (fun h m => h.mirrorOne m n dir t f) h

/-! ### Unreachable frames (R63) -/

/-- Count an unreachable discard and queue its record. -/
def Hw.unreachable (h : Hw) (q : Nat) (dst : Node) : Hw :=
  (h.count q 0x020 0 1).record { code := 0x0102, die := q, unit := 0, d1 := dst.zeroExtend 64 }

/-! ### Originated frames (R99) -/

/-- A frame is added to the chip. -/
def Hw.addHeld (h : Hw) (x : Held) : Hw := { h with buf := { h.buf with held := h.buf.held ++ [x] } }

/-- The copies of frame `id` join their queues. -/
def Hw.joinAll (h : Hw) (id t : Nat) (ports : List Nat) (spot : Spot) : Hw := ports.foldl (fun h n => h.joinCopy id n t spot) h

/-- Sources of the last frames admitted to a queue (R109). -/
def Hw.noteSource (h : Hw) (q n t : Nat) (src : Option Node) : Hw :=
  let v := h.voq q n t
  h.setVoq q n t { v with srcs := (src :: v.srcs).take 16 }

/-- An admission to queue (n, t) is at or above the back-pressure threshold (R109). -/
def Hw.overThresh (h : Hw) (q n t : Nat) : Bool :=
  let th := 4096 * h.fld (.voqCfg q t) Fld.voqCfg_bpThresh
  decide (2 ≤ t) && th != 0 && decide (th ≤ h.depth q n t)

/-- A frame of the chip's own joins queue (n, t): its source is noted, and the notice that R111 does not send for it is counted. A TC5
or TC6 frame spills while the queue has reached SPILL_THRESH and spill has room. (DESIGN CHOICE log entry 19.) -/
def Hw.joinOwn (h : Hw) (id q n t len : Nat) (src : Option Node) : Hw :=
  let spill := h.spillOver q n t && h.spillFits q len
  let h := if spill then (h.spillMoved q len).count q 0x035 0 1 else h
  let h := (h.joinCopy id n t (if spill then .spill else .queue)).noteSource q n t src
  if h.overThresh q n t then h.count q 0x028 2 1 else h

/-- The chip sends a frame of its own from P-die `q` to the given ports: it joins its queues once R98 admits it, and waits in
its block until then. A Ballast frame takes no packet buffer. -/
def Hw.originateTo (h : Hw) (q : Nat) (f : Frame) (hd : Option VHdr) (t : Nat) (route : Route) (ports : List Nat)
    (ballast : Bool) : Hw :=
  let (id, h) := h.freshId
  let ok := ballast || h.admits q t f.len
  let h := h.addHeld { id := id, frame := f, hdr := hd, cls := t, die := q, inPort := none, born := h.slot q, route := route,
                       copies := ports.map fun n => ⟨n, .landing, 0, 0, false⟩, mcast := decide (1 < ports.length),
                       deflected := false, ballast := ballast, badTail := false, tag := none }
  if ballast then h.joinAll id t ports .queue
  else if ok then ports.foldl (fun h n => h.joinOwn id q n t f.len (hd.map (·.src))) h
  else h.count q 0x030 t 1

/-- The chip may originate frames from P-die `q` (R324, R366). -/
def Hw.mayOriginate (h : Hw) (q : Nat) : Bool := h.quadOk q && !h.parked q

/-- A Vaeth frame of the chip's own, routed on its DST_NODE from P-die `q` (R39, R51, R99). -/
def Hw.originate (h : Hw) (q : Nat) (hd : VHdr) (payload : List Byte) : Hw :=
  if !h.mayOriginate q || !h.nodeValid then h
  else
    let f := h.vframe hd payload
    let t := hd.tc.toNat
    let a : Ask := { dst := hd.dst, src := hd.src, tc := t, sprayable := hd.noSpray == 0, group := none, inPort := none }
    let (r, h) := h.lookup q a
    let (ports, h) := h.targets q a r
    if ports.isEmpty then h.unreachable q hd.dst else h.originateTo q f (some f.hdr) t r ports false

/-- A frame of the chip's own on a given port: a link-local frame, or a TC2 frame that a C-die sends from Ballast. -/
def Hw.originateOn (h : Hw) (q n : Nat) (hd : VHdr) (payload : List Byte) (ballast : Bool) : Hw :=
  if !h.mayOriginate q || (!h.nodeValid && hd.dst != linkLocal) then h
  else
    let f := h.vframe hd payload
    h.originateTo q f (some f.hdr) hd.tc.toNat (.port n) [n] ballast

/-! ### Notices (R57, R110, R111) -/

/-- The header of a notice with the next notice count. -/
def Hw.noticeHdr (h : Hw) (opcode : Nat) (dst src : Node) (data : W64) : VHdr × Hw :=
  ({ VHdr.make 1 opcode dst src with seq := h.buf.noticeSeq, opData := data },
   { h with buf := { h.buf with noticeSeq := h.buf.noticeSeq + 1 } })

/-- A notice finds room in the TC1 reserve of P-die `q`; a refused one is dropped and counted. (DEDUCED log entry 24.) -/
def Hw.noticeRoom (h : Hw) (q : Nat) : Bool := h.admits q 1 64

/-- Whether a key was sent within NOTICE_GAP_US (R111). (DEDUCED log entry 24.) -/
def Hw.noticeFresh (h : Hw) (q : Nat) (op : Nat) (target dst : Node) (t : Nat) : Bool :=
  (h.buf.filter.get q).any fun k => k.opcode == op && k.target == target && k.dst == dst && k.cls == t &&
    decide (h.slot q < k.time + slotsUs * h.fld (.noticeCfg q) Fld.noticeCfg_noticeGapUs)

/-- Record that a key was sent now; a full table loses its least recently used key. -/
def Hw.noticeKey (h : Hw) (q : Nat) (op : Nat) (target dst : Node) (t : Nat) : Hw :=
  let l := (h.buf.filter.get q).filter fun k => !(k.opcode == op && k.target == target && k.dst == dst && k.cls == t)
  let l := if l.length < 4096 then l else l.drop 1
  { h with buf := { h.buf with filter := h.buf.filter.set q (l ++ [⟨op, target, dst, t, h.slot q⟩]) } }

/-- BP_NOTICE or DISCARD_NOTICE about a frame of class `t`, with the rest of OP_DATA in `low` (R57, R109 to R111). (DEDUCED log entry 24.) -/
def Hw.notice (h : Hw) (q : Nat) (x : Held) (op : Nat) (low : Nat) : Hw :=
  match x.hdr with
  | none => h.count q 0x028 2 1
  | some d =>
    let en := if op = 0x70 then Fld.noticeCfg_bpEn else Fld.noticeCfg_discEn
    if d.src == linkLocal || x.inPort.isNone || opNotice d.opcode.toNat || !h.nodeValid || !h.bit (.noticeCfg q) en then
      h.count q 0x028 2 1
    else if h.noticeFresh q op d.src d.dst d.tc.toNat then h.count q 0x028 1 1
    else if !h.noticeRoom q then h.count q 0x028 3 1
    else
      let h := h.noticeKey q op d.src d.dst d.tc.toNat
      let (hd, h) := h.noticeHdr op d.src h.node (BitVec.ofNat 64 (d.dst.toNat * 2 ^ 40 + d.tc.toNat * 2 ^ 37 + low))
      (h.count q (if op = 0x70 then 0x037 else 0x038) 0 1).originate q hd []

/-- DISCARD_NOTICE with REASON 0 (age) or 1 (deflection count) (R110). -/
def Hw.discardNotice (h : Hw) (x : Held) (reason : Nat) : Hw :=
  h.notice x.die x 0x71 (reason * 2 ^ 34 + match x.hdr with | some d => d.seq.toNat | none => 0)

/-- BP_NOTICE for an admission to queue (n, t) at or above the threshold (R109). -/
def Hw.bpNotice (h : Hw) (x : Held) (n t : Nat) : Hw :=
  let q := x.die
  let dep := h.depth q n t
  if !h.overThresh q n t then h
  else
    let v := h.voq q n t
    let k := max 1 (v.srcs.filterMap id).dedup.length
    let rate := min 0xffff (v.deqLast * 8 / (100 * k))
    h.notice q x 0x70 (min (units4k dep) 0xffff * 65536 + rate)

/-- VENT_NOTICE on port `n` (R57, R88). -/
def Hw.ventNotice (h : Hw) (n scope state : Nat) : Hw :=
  let q := portDie n
  if !h.mayOriginate q then h
  else if !h.noticeRoom q then h.count q 0x028 3 1
  else
    let (hd, h) := h.noticeHdr 0x72 linkLocal linkLocal (BitVec.ofNat 64 (scope * 2 ^ 62 + state * 2 ^ 60 + n))
    h.originateOn q n hd [] false

/-! ### Re-routes and path epochs (R83) -/

/-- The P-die that originates PATH_EPOCH notices. -/
def Hw.epochDie (h : Hw) : Option Nat := (List.range 4).find? fun q => !h.fatalQ q && !h.qdBusy q && !h.parked q

/-- A destination set that a re-route names: LEVEL and ROUTE_KEY. -/
structure RouteKey where
  level : Nat
  key : Node
deriving DecidableEq, Repr

/-- OP_DATA of PATH_EPOCH. -/
def RouteKey.data (k : RouteKey) (epoch : Nat) : W64 := BitVec.ofNat 64 (k.key.toNat * 2 ^ 40 + k.level * 2 ^ 38 + epoch)

/-- A PATH_EPOCH notice of the chip's own with the same key, still waiting to leave. -/
def RouteKey.waits (k : RouteKey) (x : Held) : Bool :=
  x.inPort.isNone && (x.copies.any fun c => c.spot == .landing || c.spot.inQueue) &&
    match x.hdr with
    | some d => d.opcode == 0x73 && d.opData.toNat / 2 ^ 38 == k.key.toNat * 4 + k.level
    | none => false

/-- A waiting notice takes the latest EPOCH. -/
def RouteKey.renew (k : RouteKey) (e : Nat) (x : Held) : Held :=
  match x.hdr with
  | some d =>
    let d' := VHdr.seal { d with opData := k.data e }
    { x with hdr := some d', frame := { x.frame with body := overlay x.frame.body 0 d'.bytes } }
  | none => x

/-- One notice of a re-route: suppressed, merged with a waiting one, or originated. -/
def Hw.epochNotice (h : Hw) (k : RouteKey) : Hw :=
  match h.epochDie with
  | none => h
  | some q =>
    let e := h.fld .epochStatus Fld.epochStatus_epoch
    if h.dieFld q .fwdCfg Fld.fwdCfg_epochEn == 0 || !h.nodeValid then
      (h.satFld .epochStatus Fld.epochStatus_suppressed 1).count q 0x028 0 1
    else if h.buf.held.any k.waits then
      { h with buf := { h.buf with held := h.buf.held.map fun x => if k.waits x then k.renew e x else x } }
    else if !h.noticeRoom q then h.count q 0x028 3 1
    else
      let (hd, h) := h.noticeHdr 0x73 (BitVec.ofNat 24 (h.dieFld q .fwdCfg Fld.fwdCfg_epochNode)) h.node (k.data e)
      h.originate q hd []

/-- A re-route: EPOCH rises by one and the notices follow. Inside a STAGE_COMMIT the notices are gathered for its one re-route. -/
def Hw.reroute (h : Hw) (ks : List RouteKey) : Hw :=
  match h.fwd.gathered with
  | some l => { h with fwd := { h.fwd with gathered := some (l ++ ks.map fun k => (k.level, k.key)) } }
  | none =>
  let h := h.setFld .epochStatus Fld.epochStatus_epoch (h.fld .epochStatus Fld.epochStatus_epoch + 1)
  ks.dedup.foldl (fun h k => h.epochNotice k) h

/-- The LEVEL 3 key of a Zone. -/
def zoneKey (z : Nat) : RouteKey := ⟨3, BitVec.ofNat 24 (z % 16 * 2 ^ 20)⟩
def nodeKey (n : Node) : RouteKey := ⟨0, n⟩
def rackKey (r : Nat) : RouteKey := ⟨1, BitVec.ofNat 24 (r * 256)⟩

/-- The Zones that hold a valid level entry or a valid exception entry that names one of the Spars. -/
def Hw.sparZones (h : Hw) (q : Nat) (ss : List Nat) : List Nat :=
  let lev := h.regs.filterMap fun x =>
    let hit := Fld.zoneTbl_valid.get x.2 == 1 && ss.contains (Fld.zoneTbl_spar.get x.2)
    match x.1 with
    | .zoneTbl q' i => if q' = q ∧ hit = true then some i else none
    | .rowTbl q' i => if q' = q ∧ hit = true then some (i / 64) else none
    | .rackTbl q' i => if q' = q ∧ hit = true then some (i / 4096) else none
    | _ => none
  let exc := (h.fwd.exc.get q).filterMap fun e => if e.kind = 1 ∧ ss.contains e.target = true then some (e.node.toNat / 2 ^ 20) else none
  (lev ++ exc).dedup

/-- The Spars with a slot of nonzero weight that names one of the ports. -/
def Hw.sparsOf (h : Hw) (q : Nat) (ns : List Nat) : List Nat :=
  (h.regs.filterMap fun x =>
    match x.1 with
    | .sparTbl q' i =>
      if q' = q ∧ ((Fld.sparTbl_weightA.get x.2 ≠ 0 ∧ ns.contains (Fld.sparTbl_portA.get x.2) = true) ∨
          (Fld.sparTbl_weightB.get x.2 ≠ 0 ∧ ns.contains (Fld.sparTbl_portB.get x.2) = true)) then some (i / 32) else none
    | _ => none).dedup

/-- Apply `f`; where it changes the eligibility of any of the ports `ns` in a Spar, that is one re-route (R67, R83). -/
def Hw.portsChange (h : Hw) (ns : List Nat) (f : Hw → Hw) : Hw :=
  let h' := f h
  let moved := ns.filter fun n => h.portEligible n != h'.portEligible n
  let q := h'.epochDie.getD 0
  let ss := h'.sparsOf q moved
  if ss.isEmpty then h' else h'.reroute ((h'.sparZones q ss).map zoneKey)

end Sys2Proof.Machine
end

