-- ==== Sys2Proof/Machine/Admit.lean ====
section
/-! DEFINITION. Admission to the packet buffer, spill, deflection, ageing and loss of an egress port (R97 to R107). -/

namespace Sys2Proof.Machine

/-- Remove the copies of frame `id` that satisfy `p`; the frame goes with its last copy, and classes that became empty lose
their starvation timers. -/
def Hw.dropCopies (h : Hw) (id : Nat) (p : Copy → Bool) : Hw :=
  match h.heldAt id with
  | none => h
  | some x =>
    let gone := x.copies.filter p
    let h := (h.mapHeld id fun x => { x with copies := x.copies.filter fun c => !p c }).sweepHeld id
    gone.foldl (fun h c => h.onEmpty c.port x.cls) h

/-- The whole frame goes. -/
def Hw.dropFrame (h : Hw) (id : Nat) : Hw := h.dropCopies id fun _ => true

/-- Queue (n, t) of P-die `q` is full for a frame of length `len` that is neither multicast nor the chip's own (R100). -/
def Hw.queueFull (h : Hw) (q n t len : Nat) : Bool := decide (h.qlimit q t < h.depth q n t + len) || !h.admits q t len

/-- The frame already lies in the spill region. -/
def Held.inSpill (x : Held) : Bool := x.copies.any fun c => c.spot == .spill

/-- A TC5 or TC6 frame goes to the spill region where its queue has reached SPILL_THRESH or R98 refuses it (R103); one that lies there
stays there. -/
def Hw.wantsSpill (h : Hw) (x : Held) (n : Nat) : Bool :=
  x.inSpill || (x.hdr.isSome && (h.spillOver x.die n x.cls ||
    ((x.cls == 5 || x.cls == 6) && h.bit (.spillCfg x.die) Fld.spillCfg_spillEn && !h.admits x.die x.cls x.len)))

/-- The queue toward port `n` is full for the frame (R100, R101, R103). -/
def Hw.fullFor (h : Hw) (x : Held) (n : Nat) : Bool :=
  if h.wantsSpill x n then
    decide (h.qlimit x.die x.cls < h.depth x.die n x.cls + x.len) || !(x.inSpill || h.spillFits x.die x.len)
  else h.queueFull x.die n x.cls x.len

/-- roomiest of R105: the eligible member of a Spar, neither chosen nor the ingress port, whose queue is not full, with the
shallowest queue, ties to the lower port. -/
def Hw.roomiest (h : Hw) (x : Held) (s chosen : Nat) : Option Nat :=
  let q := x.die
  let t := x.cls
  ((h.sparPorts q s).filter fun n => n != chosen && some n != x.inPort && !h.fullFor x n).foldl (fun best n =>
    match best with
    | none => some n
    | some b => if h.depth q n t < h.depth q b t ∨ (h.depth q n t = h.depth q b t ∧ n < b) then some n else some b) none

/-- The Zone entry toward a destination, with bad parity counted (R70): its Spar, if the entry is valid and no discard. -/
def Hw.zoneSpar (h : Hw) (q : Nat) (dst : Node) : Option Nat × Hw :=
  let z := dst.toNat / 2 ^ 20
  let v := h.reg (.zoneTbl q z)
  if h.tblBad q ⟨.level .zone, z⟩ then (none, h.parityMiss q ⟨.level .zone, z⟩)
  else (if Fld.zoneTbl_valid.get v = 1 ∧ Fld.zoneTbl_discard.get v = 0 then some (Fld.zoneTbl_spar.get v) else none, h)

/-- The roomiest other port of the Spar that the frame's own route names. -/
def Hw.routeRoom (h : Hw) (x : Held) (chosen : Nat) : Option Nat × Hw :=
  match x.route with
  | .spar s => let h := h.sparParity x.die s; (h.roomiest x s chosen, h)
  | _ => (none, h)

/-- The roomiest other port of the Zone's Spar. -/
def Hw.zoneRoom (h : Hw) (x : Held) (dst : Node) (chosen : Nat) : Option Nat × Hw :=
  match h.zoneSpar x.die dst with
  | (some s, h) => let h := h.sparParity x.die s; (h.roomiest x s chosen, h)
  | (none, h) => (none, h)

/-- deflect of R105: the new port, or none for WAIT; the tables read count their bad entries. -/
def Hw.deflectPort (h : Hw) (x : Held) (dst : Node) (chosen : Nat) : Option Nat × Hw :=
  match h.routeRoom x chosen with
  | (some n, h) => (some n, h)
  | (none, h) => h.zoneRoom x dst chosen

/-- The frame of a deflected Vaeth frame: DEFL_CNT one higher, HDR_CHECK and FCS anew (R42, R106). -/
def Held.deflect (x : Held) : Held :=
  match x.hdr with
  | some d =>
    let d' := VHdr.seal { d with defl := d.defl + 1 }
    { x with hdr := some d', frame := { x.frame with body := overlay x.frame.body 0 d'.bytes }, deflected := true }
  | none => x

/-- A frame whose deflections are exhausted is discarded with a DISCARD_NOTICE (R105, R110). -/
def Hw.exhausted (h : Hw) (x : Held) : Hw :=
  (((h.count x.die 0x033 0 1).sampleHeld x none 3 0).dropFrame x.id).discardNotice x 1

/-- A received frame enters its queue in SRAM or in spill: sources noted, tag point 4, BP_NOTICE (R109). -/
def Hw.enterQueue (h : Hw) (x : Held) (ports : List Nat) (spot : Spot) : Hw :=
  let h := (h.joinAll x.id x.cls ports spot).samplePoint x.id 4
  ports.foldl (fun h n =>
    (h.noteSource x.die n x.cls (x.hdr.map (·.src))).bpNotice x n x.cls) h

/-- A frame that its queue takes enters it, by way of the spill region where R103 says so. (DESIGN CHOICE log entry 19.) -/
def Hw.enterAt (h : Hw) (x : Held) (n : Nat) : Hw :=
  if !h.wantsSpill x n then h.enterQueue x [n] .queue
  else
    let h := if x.inSpill then h else (h.spillMoved x.die x.len).count x.die 0x035 0 1
    let tag := x.tag.map fun g => { g with spilled := true }
    (h.mapHeld x.id fun y => { y with tag := tag }).enterQueue { x with tag := tag } [n] .spill

/-- The frame finds its queue full: deflected, discarded, or left waiting (R101, R105). -/
def Hw.findsFull (h : Hw) (x : Held) (chosen : Nat) : Hw :=
  match x.hdr with
  | none => h
  | some d =>
    if x.cls < 3 ∨ x.inPort = none ∨ x.mcast = true ∨ x.deflected = true then h
    else if 4 ≤ d.defl.toNat then h.exhausted x
    else
      match h.deflectPort x d.dst chosen with
      | (none, h) => h
      | (some n, h) =>
        let y := x.deflect
        let y := { y with tag := y.tag.map fun t => { t with port := some n },
                          copies := [⟨n, if x.inSpill then .spill else .landing, 0, 0, false⟩] }
        let h := (h.count x.die 0x031 x.cls 1).mapHeld x.id fun _ => y
        (h.enterAt y n).onEmpty chosen x.cls

/-- One attempt to admit a frame that waits in a landing zone or in its block (R98 to R101). (DESIGN CHOICE log entry 22.) -/
def Hw.tryAdmit (h : Hw) (id : Nat) : Hw :=
  match h.heldAt id with
  | none => h
  | some x =>
    let q := x.die
    let t := x.cls
    let ports := (x.copies.filter fun c => c.spot == .landing).map (·.port)
    if ports.isEmpty then h
    else if x.inPort.isNone then
      if h.admits q t x.len then ports.foldl (fun h n => h.joinOwn id q n t x.len (x.hdr.map (·.src))) h
      else h.count q 0x030 t 1
    else
      let (bad, h) := h.eccPass 1 q t false
      if bad then
        let (v, h) := h.draw
        (h.sampleHeld x none (v.toNat % 256) 0).dropFrame id
      else if x.route.multi then
        if h.admits q t x.len then h.enterQueue x ports .queue else h.count q 0x030 t 1
      else
        let n := ports.headD 0
        if h.fullFor x n then
          let h := if h.wantsSpill x n then h.count q 0x036 0 1 else h
          (h.count q 0x030 t 1).findsFull x n
        else h.enterAt x n

/-- A consumed request that waits in the landing zone for its service (R97). -/
def waitsInLanding (op : Nat) : Bool := op == 0x40 || op == 0x41 || op == 0x44 || op == 0x4a

/-- A consumed frame that stands in its landing zone: for its service, or behind a fence (R82, R97). -/
def Taken.waits (x : Taken) : Bool := waitsInLanding x.hdr.opcode.toNat || x.hdr.fence == 1

/-- An older frame of the same port and class stands in the landing zone (R97). -/
def Hw.landingBefore (h : Hw) (p id t : Nat) : Bool :=
  (h.buf.held.any fun y => decide (y.id < id) && y.inPort == some p && y.cls == t && y.copies.any fun c => c.spot == .landing) ||
    h.buf.taken.any fun y => decide (y.id < id) && y.port == p && y.hdr.tc.toNat == t && y.waits

/-- TC0 and TC1 frames leave a landing zone ahead of the others (R32): one that R98 would admit stands before a frame of class `t`. (DESIGN CHOICE log entry 19.) -/
def Hw.landingYields (h : Hw) (p t : Nat) : Bool :=
  decide (2 ≤ t) && h.buf.held.any fun y => y.inPort == some p && decide (y.cls < 2) && (y.copies.any fun c => c.spot == .landing) &&
    h.admits y.die y.cls y.len

/-- The frame is next in its landing zone; a frame of the chip's own waits behind older ones of its class and P-die. -/
def Hw.landingFirst (h : Hw) (x : Held) : Bool :=
  match x.inPort with
  | some p => !h.landingBefore p x.id x.cls && !h.landingYields p x.cls
  | none => !(h.buf.held.any fun y => decide (y.id < x.id) && y.inPort.isNone && y.cls == x.cls && y.die == x.die &&
      y.copies.any fun c => c.spot == .landing)

/-! ### Age (R107, R108) -/

def Hw.ageLimit (h : Hw) (q t : Nat) : Nat := slotsUs * h.fld (.classCfg q t) Fld.classCfg_ageUs
def Hw.aged (h : Hw) (x : Held) : Bool := !x.ballast && decide (h.ageLimit x.die x.cls < h.slot x.die - x.born)

/-- Waiting point of the age-discard event; a frame of the chip's own that waits in its block counts at point 0. (DESIGN CHOICE log
entry 22.) (DESIGN CHOICE log entry 22.) -/
def Spot.agePoint : Spot → Option Nat
  | .landing => some 0
  | .queue => some 1
  | .spill => some 2
  | _ => none

/-- A frame past its age limit leaves every place where it waits; each copy is counted, and a DISCARD_NOTICE follows. -/
def Hw.ageOut (h : Hw) (x : Held) : Hw :=
  let out := x.copies.filter fun c => c.spot.agePoint.isSome
  if out.isEmpty then h
  else
    let h := out.foldl (fun h c => (h.count x.die 0x032 (16 * c.spot.agePoint.getD 0 + x.cls) 1).sampleCopy x c.port 2) h
    (h.dropCopies x.id fun c => c.spot.agePoint.isSome).discardNotice x 0

/-- A consumed frame as the notices and sample records see a frame. -/
def Taken.held (x : Taken) : Held :=
  { id := x.id, frame := x.frame, hdr := some x.hdr, cls := x.hdr.tc.toNat, die := portDie x.port, inPort := some x.port, born := x.born,
    route := .none, copies := [], mcast := false, deflected := false, ballast := false, badTail := false, tag := x.tag }

/-- A consumed frame that still waits in its landing zone is past its age limit. -/
def Hw.takenAged (h : Hw) (x : Taken) : Bool := x.waits && h.aged x.held

/-- A consumed frame that waits past its age limit goes (R82, R107, R112). -/
def Hw.takenAgeOut (h : Hw) (x : Taken) : Hw :=
  let y := x.held
  let h := ((h.count y.die 0x032 y.cls 1).sampleHeld y none 2 0)
  ({ h with buf := { h.buf with taken := h.buf.taken.filter fun z => z.id != x.id } }).discardNotice y 0

/-! ### Loss of an egress port (R102) -/

/-- Count a frame discarded from egress staging of port `n`; one whose transmission had begun is cut off. -/
def Hw.linkLossDiscard (h : Hw) (x : Held) (c : Copy) : Hw :=
  let h := h.count (portDie c.port) 0x034 c.port 1
  let h := if c.spot == .wire then h.emit (.cut c.port x.frame) else h
  h.sampleCopy x c.port 8

/-- R102 for the frames toward port `n`: staging is emptied, and queued frames of TC3 to TC7 find their queue full. -/
def Hw.linkLoss (h : Hw) (n : Nat) : Hw :=
  h.buf.held.foldl (fun h x =>
    match x.copies.find? fun c => c.port == n with
    | none => h
    | some c =>
      if c.spot == .staging || c.spot == .wire then (h.linkLossDiscard x c).dropCopies x.id fun c => c.port == n
      else if c.spot.inQueue && !x.ballast then h.findsFull x n
      else h) h

/-- P-die `q` holds this copy of a frame: in its buffer or landing zones, in staging of one of its ports, or on a floor path to
or from it. -/
def Held.holds (x : Held) (q : Nat) (c : Copy) : Bool :=
  if c.spot = .staging ∨ c.spot = .wire then portDie c.port == q
  else x.die == q || (c.spot == .floor && portDie c.port == q)

/-- P-die `q` discards every frame it holds (R323, R364), those it has consumed and not yet served among them. -/
def Hw.dieDiscard (h : Hw) (q : Nat) : Hw :=
  let cut (x : Held) : Held := { x with copies := x.copies.filter fun c => !x.holds q c }
  { h with buf := { h.buf with held := (h.buf.held.map cut).filter fun x => !x.copies.isEmpty,
                               taken := h.buf.taken.filter fun x => portDie x.port != q,
                               voq := h.buf.voq.filter fun v => v.1 / 8192 != q } }

/-- The frames that P-die `q` holds are lost in a FATAL: the tagged ones end, with an outcome that has no code of R315. (DESIGN CHOICE log entry 22.) -/
def Hw.dieLost (h : Hw) (q : Nat) : Hw :=
  let (v, h) := h.draw
  let k := v.toNat % 256
  let h := h.buf.held.foldl (fun h x => if x.copies.all (x.holds q) then h.sampleHeld x none k 0 else h.sampleCopies x (x.holds q) k) h
  ((h.buf.taken.filter fun x => portDie x.port == q).foldl (fun h x => h.takenEnd x [] k) h).dieDiscard q

/-- Frames that P-die `q` holds. -/
def Hw.dieFrames (h : Hw) (q : Nat) : Nat :=
  (h.buf.held.filter fun x => x.copies.any (x.holds q)).length + (h.buf.taken.filter fun x => portDie x.port == q).length

end Sys2Proof.Machine
end

