-- ==== Sys2Proof/Machine/Retry.lean ====
section
/-! DEFINITION. Link-layer retry of Oslux 400 ports (R230 to R233). -/

namespace Sys2Proof.Machine

/-! ### The preamble (R13, R230) -/

/-- The link-layer preamble of an Oslux 400 frame, every bit of it. -/
structure Preamble where
  lseq : BitVec 16
  ack : BitVec 16
  nak : Bool
  ctrl : Bool
  resync : Bool
  rsvd4 : BitVec 5
  rsvd5 : Byte
  pchk : Byte
deriving DecidableEq, Repr

/-- The seven bytes as one number, the byte at offset 0 most significant. -/
def Preamble.word (p : Preamble) : BitVec 56 :=
  p.lseq ++ p.ack ++ BitVec.ofBool p.nak ++ BitVec.ofBool p.ctrl ++ BitVec.ofBool p.resync ++ p.rsvd4 ++ p.rsvd5 ++ p.pchk

/-- The fields of seven bytes. -/
def Preamble.ofWord (w : BitVec 56) : Preamble :=
  { lseq := w.extractLsb' 40 16, ack := w.extractLsb' 24 16, nak := w.getLsbD 23, ctrl := w.getLsbD 22, resync := w.getLsbD 21,
    rsvd4 := w.extractLsb' 16 5, rsvd5 := w.extractLsb' 8 8, pchk := w.extractLsb' 0 8 }

/-- The seven bytes in wire order. -/
def Preamble.bytes (p : Preamble) : List Byte := bytesBE 7 p.word.toNat

/-- PCHK over bytes 0 to 5. -/
def Preamble.checkOf (p : Preamble) : Byte := crc8 (p.bytes.take 6)
def Preamble.checkOk (p : Preamble) : Bool := p.pchk == p.checkOf
/-- The preamble with its PCHK computed. -/
def Preamble.seal (p : Preamble) : Preamble := { p with pchk := p.checkOf }

end Sys2Proof.Machine

namespace Sys2Proof
open Sys2Proof.Machine

/-- The preamble a received frame came with. -/
def RxFrame.preamble (r : RxFrame) : Preamble := Preamble.ofWord r.pre
/-- Every codeword that the frame overlaps was correctable (R228). -/
def RxFrame.codewordOk (r : RxFrame) : Bool := r.codewords.all (·.2)

end Sys2Proof

namespace Sys2Proof.Machine

/-- A link that holds nothing. -/
def Link.fresh : Link :=
  { txSeq := 0, rxNext := 0, held := [], replayFrom := none, nakOut := false, nakAt := none, resync := false, peer := none,
    peerBefore := none, peerRx := 0, stuck := 0, fails := [], outAt := [], wirePre := none, light := false, lockAt := none, lsSeq := 0, lsAt := 0,
    since := 0, lastTry := none }

def Hw.link (h : Hw) (p : Nat) : Link := (aget p h.lgt.links).getD Link.fresh
def Hw.setLink (h : Hw) (p : Nat) (l : Link) : Hw := { h with lgt := { h.lgt with links := aput p l h.lgt.links } }

/-- The port runs link-layer retry (R225, OCTET_CFG.RETRY_EN). -/
def Hw.retryOn (h : Hw) (p : Nat) : Bool := h.oslux p && h.bit (.octetCfg (p / 8)) Fld.octetCfg_retryEn

/-- The retry buffer of a port in bytes (R232). -/
def Hw.retryBytes (h : Hw) (p : Nat) : Nat := 32768 * h.portLanes p

/-- Frames the peer acknowledges leave the retry buffer. -/
def Link.acked (l : Link) (ack : BitVec 16) : Link :=
  { l with held := l.held.filter fun f => decide ((f.lseq - (ack + 1)).toNat < 32768) }

/-- Retry losses: counted, with a record once per tick (R232). -/
def Hw.retryLoss (h : Hw) (p n : Nat) : Hw :=
  if n = 0 then h
  else (h.count (portDie p) 0x045 p n).record { code := 0x0205, die := portDie p, unit := p, d1 := BitVec.ofNat 64 n }

/-- A NAK from the peer: replay from ACK + 1, or RESYNC when that frame is no longer held and others followed it. -/
def Hw.nakFrom (h : Hw) (p : Nat) (ack : BitVec 16) : Hw :=
  let l := (h.link p).acked ack
  if l.held.any fun f => f.lseq == ack + 1 then h.setLink p { l with replayFrom := some (ack + 1) }
  else h.setLink p { l with replayFrom := l.held.head?.map (·.lseq), resync := decide (ack + 1 ≠ l.txSeq) || l.resync }

/-- The receiver asks for a replay: in a control block at once, at most once per 1 µs for the same ACK (R231), and with every frame
and block it sends after that until the expected frame comes. -/
def Hw.askReplay (h : Hw) (p : Nat) : Hw :=
  let l := h.link p
  let now := h.slot (portDie p)
  let due := match l.nakAt with | some t => decide (t + slotsUs ≤ now) | none => true
  if due then (h.setLink p { l with nakOut := true, nakAt := some now }).emit (.control p (l.rxNext - 1) true)
  else h.setLink p { l with nakOut := true }

/-- What the retry layer does with a received frame. -/
inductive RetryIn where
  /-- handed to the parser -/
  | accept
  /-- handed to the parser as a frame with a wrong FCS (R228) -/
  | damaged
  /-- dropped by the retry layer -/
  | drop
deriving DecidableEq, Repr

/-- A frame is bad and is not handed on: one of the sequence asks for a replay, an older one is a duplicate (R231). -/
def Hw.retryBad (h : Hw) (p : Nat) (x : Preamble) : RetryIn × Hw :=
  let d := (x.lseq - (h.link p).rxNext).toNat
  if !x.checkOk then (.drop, h.askReplay p)
  else if d = 0 then (.damaged, h.askReplay p)
  else if d < 32768 then (.drop, h.askReplay p)
  else (.drop, h.count (portDie p) 0x043 p 1)

/-- ACK and NAK of a preamble whose check is right. -/
def Hw.linkAckIn (h : Hw) (p : Nat) (x : Preamble) : Hw :=
  let h := h.setLink p ((h.link p).acked x.ack)
  if x.nak then h.nakFrom p x.ack else h

/-- The next expected LSEQ becomes `k`; nothing is asked for any more. -/
def Hw.expect (h : Hw) (p : Nat) (k : BitVec 16) : Hw := h.setLink p { h.link p with rxNext := k, nakOut := false, nakAt := none }

/-- The retry layer of R230 to R232 on one received frame. (DEDUCED log entry 25.) -/
def Hw.retryIn (h : Hw) (p : Nat) (rx : RxFrame) : RetryIn × Hw :=
  let x := rx.preamble
  if !h.oslux p then (if rx.codewordOk then .accept else .damaged, h)
  else if !h.retryOn p then
    if rx.codewordOk && x.checkOk then (.accept, if x.ctrl then h else h.expect p (x.lseq + 1)) else (.damaged, h)
  else
    let h := if x.checkOk then h.linkAckIn p x else h
    if x.checkOk && x.ctrl then (if rx.codewordOk then .accept else .damaged, h)
    else if !x.checkOk || !rx.codewordOk then h.retryBad p x
    else
      let d := (x.lseq - (h.link p).rxNext).toNat
      if x.resync && decide (d < 32768) then (.accept, (h.expect p (x.lseq + 1)).retryLoss p d)
      else if d = 0 then (.accept, h.expect p (x.lseq + 1))
      else if d < 32768 then (.drop, h.askReplay p)
      else (.drop, h.count (portDie p) 0x043 p 1)

/-- NAK may go out with this frame or block: a replay is wanted, and none was asked for in the last 1 µs under the same ACK (R231). -/
def Hw.nakDue (h : Hw) (p : Nat) : Bool :=
  (h.link p).nakOut && match (h.link p).nakAt with
    | some t => decide (t + slotsUs ≤ h.slot (portDie p))
    | none => true

/-- A NAK has gone out. -/
def Hw.nakSent (h : Hw) (p : Nat) : Hw :=
  if h.nakDue p then h.setLink p { h.link p with nakAt := some (h.slot (portDie p)) } else h

/-- Corrected and uncorrectable codewords, by lane (R250). (DEDUCED log entry 25.) -/
def Hw.countCodewords (h : Hw) (p : Nat) (l : List (Fin 4 × Bool)) : Hw :=
  l.foldl (fun h x => if x.1.val < h.portLanes p then h.count (portDie p) (if x.2 then 0x040 else 0x041) (p + x.1) 1 else h) h

/-- Hold a frame for retry; the oldest held frames make room and are counted as overruns (R232). -/
def trimRetry : Nat → List RetryFrame → Nat → List RetryFrame × Nat
  | 0, l, _ => (l, 0)
  | n + 1, l, room =>
    if (l.map fun f => f.frame.len).sum ≤ room then (l, 0)
    else
      let (m, k) := trimRetry n (l.drop 1) room
      (m, k + 1)

def Hw.setReplay (h : Hw) (p : Nat) (k : Option (BitVec 16)) : Hw := h.setLink p { h.link p with replayFrom := k }

def Hw.holdFrame (h : Hw) (p : Nat) (f : Frame) : Hw :=
  let l := h.link p
  let all := l.held ++ [⟨l.txSeq, f⟩]
  let (kept, lost) := trimRetry all.length all (h.retryBytes p)
  let h := h.setLink p { l with held := kept, txSeq := l.txSeq + 1 }
  if lost = 0 then h else h.count (portDie p) 0x044 p lost

end Sys2Proof.Machine
end

