-- ==== Sys2Proof/Machine/Forward.lean ====
section
/-! DEFINITION. FRAME_RECEIVE: a whole frame arrives at an ingress port (R32, R38 to R60, R62, R71 to R74, R76, R87, R119,
R313). -/

namespace Sys2Proof.Machine

/-! ### Sampling tag (R313) -/

/-- Tags that P-die `q` carries. -/
def Hw.tagsOf (h : Hw) (q : Nat) : Nat :=
  (h.buf.held.filter fun x => x.tag.isSome && (match x.inPort with | some n => portDie n == q | none => false)).length +
    (h.buf.taken.filter fun x => x.tag.isSome && portDie x.port == q).length

/-- Draw whether a received frame is tagged. (DESIGN CHOICE log entry 4.) -/
def Hw.drawTag (h : Hw) (q : Nat) : Option SampleTag × Hw :=
  if h.dieFld q .sampleCfg Fld.sampleCfg_enable = 0 then (none, h)
  else
    let (v, h) := h.draw
    if v.toNat % 2 ^ h.dieFld q .sampleCfg Fld.sampleCfg_nLog2 ≠ 0 then (none, h)
    else if 4096 ≤ h.tagsOf q then (none, h.count q 0x051 0 1)
    else
      let k := h.tim.tagCount.get q
      (some { tagId := k, stamp := h.stamp32, pts := [], port := none, spilled := false, sprayed := false },
       ({ h with tim := { h.tim with tagCount := h.tim.tagCount.set q (k + 1) } }).count q 0x050 0 1)

/-! ### A frame in the parser -/

/-- A frame on its way through the parser. -/
structure Rx where
  port : Nat
  die : Nat
  frame : Frame
  hdr : Option VHdr
  cls : Nat
  tag : Option SampleTag
  born : Nat
  badTail : Bool
deriving DecidableEq, Repr

/-- The sample record of a frame that ends in its landing zone or in the parser, with the points it reached there; an outcome without a
code of R315 is a free value. -/
def Hw.endRxAt (h : Hw) (x : Rx) (ks : List Nat) (outcome : Option Nat) (detail : Nat) : Hw :=
  match x.tag with
  | none => h
  | some t =>
    let (v, h) := h.draw
    let t := { t with pts := ks.foldl (fun l k => aput k (h.slot x.die) l) t.pts }
    h.sampleEnd ⟨x.die, t, x.born, x.port, none, x.frame, x.hdr, x.cls, false, false⟩ (outcome.getD (v.toNat % 256)) detail

/-- As `endRxAt`, for a frame whose parse is complete (point 2). -/
def Hw.endRx (h : Hw) (x : Rx) (outcome : Option Nat) (detail : Nat) : Hw := h.endRxAt x [2] outcome detail

/-- A parse discard with its reason code (R60). -/
def Hw.parseDiscard (h : Hw) (x : Rx) (reason : Nat) : Hw :=
  let h := h.count x.die 0x010 (1024 * reason + x.port) 1
  let h := if reason = 12 ∨ reason = 13 then h
    else h.record { code := 0x0101, die := x.die, unit := x.port, d0 := BitVec.ofNat 64 reason }
  h.endRx x (some 4) reason

/-! ### Landing zone (R32, R97) -/

/-- Bytes in the landing zone of port `p` taken by TC0 and TC1, or by the other classes. (DESIGN CHOICE log entry 19.) -/
def Hw.landingUsed (h : Hw) (p : Nat) (high : Bool) : Nat :=
  (h.buf.held.map fun x =>
    if x.inPort = some p ∧ decide (x.cls < 2) = high ∧ (x.copies.any fun c => c.spot == .landing) = true then x.len else 0).sum +
  (h.buf.taken.map fun x =>
    if x.port = p ∧ decide (x.hdr.tc.toNat < 2) = high ∧ x.waits = true then x.frame.len else 0).sum

/-- DESIGN CHOICE log entry 19. -/
def Hw.landingRoom (h : Hw) (p cls len : Nat) : Bool :=
  if cls < 2 then decide (h.landingUsed p true + len ≤ 16384) else decide (h.landingUsed p false + len ≤ 49152)

/-! ### Consumption (R51, R52) -/

/-- The replica of C-die `c` holds the entry of Bridle `b` (R128, R256). -/
def Hw.bridleIn (h : Hw) (c : Nat) (b : Bridle) : Bool := !h.coll.absent.contains (b.ix, c)

/-- An active Bridle with the frame's group number has the arrival port as a member or parent port. -/
def Hw.bridleTakes (h : Hw) (p : Nat) (d : VHdr) : Bool :=
  opCollective d.opcode.toNat && h.coll.bridles.any fun b => b.group.toNat == d.opData.toNat / 2 ^ 48 && h.bridleIn (portDie p) b &&
    ((b.members.any fun m => m.port == p) || (b.parentEn && b.parentPort == p))

def Hw.consumes (h : Hw) (q p : Nat) (d : VHdr) : Bool := d.dst == linkLocal || h.dieOwns q d.dst || h.bridleTakes p d

/-- The first parse check of a Vaeth header that fails: VER, HDR_CHECK, PAYLOAD_LEN, the opcode rules (R45, R46, R50, R55, R56). The order
of the checks is the model's. (DESIGN CHOICE log entry 20.) -/
def Hw.headerReason (h : Hw) (q p : Nat) (f : Frame) (d : VHdr) : Option Nat :=
  let op := d.opcode.toNat
  let taken := h.consumes q p d
  if d.ver ≠ 1 then some 4
  else if !d.checkOk then some 5
  else if f.body.length < 32 + d.plen.toNat then some 6
  else if op = 0 then some 8
  else if (match opClasses op with | some l => !l.contains d.tc.toNat | none => false) then some 7
  else if d.dst = linkLocal ∧ opLinkLocal op = false then some 9
  else if taken ∧ op ≤ 0x3f then some 10
  else if taken ∧ opClasses op = none then some 8
  else none

/-! ### Policing (R119) -/

/-- The refill of R117 and R119, in units of 1/80 byte. -/
def Bucket.refill (b : Bucket) (now cir cbs pir pbs : Nat) : Bucket :=
  let dt := min (now - b.last) (2 ^ 40)
  { last := now, c := min (b.c + (dt * cir : Nat)) ((max cbs 16 * 1024 * 80 : Nat) : Int),
    p := min (b.p + (dt * pir : Nat)) ((max pbs 16 * 1024 * 80 : Nat) : Int) }

/-- A bucket pair of rates and bursts `cir cbs pir pbs` after its refill; one that is not listed is full (R120). -/
def Hw.bucket (h : Hw) (r : BucketRef) (now cir cbs pir pbs : Nat) : Bucket :=
  match aget r h.egr.buckets with
  | some b => b.refill now cir cbs pir pbs
  | none => { c := ((max cbs 16 * 1024 * 80 : Nat) : Int), p := ((max pbs 16 * 1024 * 80 : Nat) : Int), last := now }

def Hw.setBucket (h : Hw) (r : BucketRef) (b : Bucket) : Hw := { h with egr := { h.egr with buckets := aput r b h.egr.buckets } }

inductive Color where
  | green | yellow | red
deriving DecidableEq, Repr

/-- two_bucket of R119. -/
def Hw.twoBucket (h : Hw) (q k len : Nat) : Color × Hw :=
  let cw := h.reg (.policer q k 0)
  let pw := h.reg (.policer q k 1)
  let cir := Fld.policer_rate.get cw
  let pir := Fld.policer_rate.get pw
  let b := h.bucket (.policer q k) (h.ns q) cir (Fld.policer_burst.get cw) pir (Fld.policer_burst.get pw)
  let need : Int := (len * 80 : Nat)
  if pir ≠ 0 ∧ b.p < need then (.red, h.setBucket (.policer q k) b)
  else
    let b := if pir = 0 then b else { b with p := b.p - need }
    if cir = 0 ∨ b.c < need then (.yellow, h.setBucket (.policer q k) b)
    else (.green, h.setBucket (.policer q k) { b with c := b.c - need })

/-- What policing leaves of a frame: its queueing class, or none when it is discarded. -/
def Hw.police (h : Hw) (q p cls len : Nat) : Option Nat × Hw :=
  let m := Reg.policeMap p cls
  if cls < 3 ∨ h.bit m Fld.policeMap_en = false then (some cls, h)
  else
    let k := h.fld m Fld.policeMap_policer
    let (c, h) := h.twoBucket q k len
    match c with
    | .green => (some cls, h.count q 0x03a k 1)
    | .yellow => (some cls, h.count q 0x03b k 1)
    | .red =>
      let h := h.count q 0x03c k 1
      if h.bit m Fld.policeMap_redAction then (some 7, h) else (none, h.count q 0x03d k 1)

/-! ### Learning (R71 to R74) -/

/-- Learned entries whose TARGET is port `p`. -/
def Hw.learnCount (h : Hw) (p : Nat) : Nat :=
  ((h.fwd.exc.get (h.epochDie.getD 0)).filter fun e => !e.static && e.kind == 0 && e.target == p).length

/-- Apply a change to the exception table of every replica. -/
def Hw.mapExc (h : Hw) (f : List ExcEnt → List ExcEnt) : Hw := { h with fwd := { h.fwd with exc := h.fwd.exc.map f } }

def Hw.mapEntry (h : Hw) (node : Node) (f : ExcEnt → ExcEnt) : Hw :=
  h.mapExc fun l => l.map fun e => if e.node = node then f e else e

def Hw.dropEntry (h : Hw) (node : Node) : Hw := h.mapExc fun l => l.filter fun e => e.node != node

/-- The exception entry of a node has been written anew in every replica: its parity is good (R70). -/
def Hw.excGood (h : Hw) (node : Node) : Hw :=
  { h with fwd := { h.fwd with bad := h.fwd.bad.filter fun x => x.1 != ⟨.exc, node.toNat⟩ } }

/-- The exception entry that a reader of P-die `q` finds: one with bad parity is counted and taken as absent (R70). -/
def Hw.excRead (h : Hw) (q : Nat) (node : Node) : Option ExcEnt × Hw :=
  match h.excFind q node with
  | none => (none, h)
  | some e => if h.tblBad q ⟨.exc, node.toNat⟩ then (none, h.parityMiss q ⟨.exc, node.toNat⟩) else (some e, h)

/-- The source's Rack entry is valid with LEARNED = 1 (R71); one with bad parity is counted and taken as absent (R70). -/
def Hw.rackLearns (h : Hw) (q : Nat) (src : Node) : Bool × Hw :=
  let i := levelIx .rack src
  let v := h.reg (.rackTbl q i)
  if h.tblBad q ⟨.level .rack, i⟩ then (false, h.parityMiss q ⟨.level .rack, i⟩)
  else (Fld.rackTbl_valid.get v == 1 && Fld.rackTbl_learned.get v == 1, h)

/-- A learned entry is hit, on the port it names or on one to which it moves (R72). -/
def Hw.learnHit (h : Hw) (q p : Nat) (node : Node) : Hw :=
  (h.mapEntry node fun e => { e with target := p, hit := true, lastHit := h.slot q }).excGood node

/-- The event learn excess on port `p` for a node with a learned entry elsewhere (R73): with LEARN_EXCESS 1 the entry goes. -/
def Hw.learnExcess (h : Hw) (q p : Nat) (node : Node) : Hw :=
  let h := h.count q 0x023 p 1
  if h.bit (.portFwd p) Fld.portFwd_learnExcess then ((h.dropEntry node).excGood node).reroute [nodeKey node] else h

/-- Learning from a received frame; false when the frame is discarded as learn excess (R73). A refresh or a move takes effect at once;
only an insertion waits in the queue of R74. (DESIGN CHOICE log entry 21.) -/
def Hw.learn (h : Hw) (q p : Nat) (d : VHdr) : Bool × Hw :=
  let r := Reg.portFwd p
  if (d.tc ≠ 3 ∧ d.tc ≠ 4) ∨ d.src = linkLocal ∨ h.bit r Fld.portFwd_learnEn = false ∨ h.bypass p = true then (true, h)
  else
    match h.rackLearns q d.src with
    | (false, h) => (true, h)
    | (true, h) =>
      let room := decide (h.learnCount p < h.fld r Fld.portFwd_learnLimit)
      let exceed := h.bit r Fld.portFwd_learnExcess
      match h.excRead q d.src with
      | (some e, h) =>
        if e.static then (true, h)
        else if e.target = p then (true, h.learnHit q p d.src)
        else if room then (true, (h.learnHit q p d.src).reroute [nodeKey d.src])
        else (exceed, h.learnExcess q p d.src)
      | (none, h) =>
        if room then
          let w := h.fwd.learnQ.get q
          if w.length < 1024 then (true, { h with fwd := { h.fwd with learnQ := h.fwd.learnQ.set q (w ++ [(d.src, p)]) } })
          else (true, h.count q 0x024 0 1)
        else (exceed, h.count q 0x023 p 1)

/-! ### Route and admission -/

/-- The Bridle group number that a collective frame carries. -/
def VHdr.group (d : VHdr) : Option Nat := if opCollective d.opcode.toNat then some (d.opData.toNat / 2 ^ 48) else none

/-- Route a frame that the chip forwards and offer it to the packet buffer. -/
def Hw.forward (h : Hw) (x : Rx) (dst src : Node) (cls : Nat) : Hw :=
  let q := x.die
  let a : Ask := { dst := dst, src := src, tc := x.cls, sprayable := (match x.hdr with | some d => d.noSpray == 0 | none => false),
                   group := x.hdr.bind VHdr.group, inPort := some x.port }
  let (r, h) := h.lookup q a
  let spray := match r with | .spar _ => h.sprays q a | _ => false
  let (ports, h) := h.targets q a r
  if ports.isEmpty then (h.unreachable q dst).endRx x (some 5) 0
  else
    let (id, h) := h.freshId
    let low := ports.min?
    let tag := x.tag.map fun t => { t with pts := aput 3 (h.slot q) (aput 2 (h.slot q) t.pts), sprayed := spray, port := low }
    let y : Held := { id := id, frame := x.frame, hdr := x.hdr, cls := cls, die := q, inPort := some x.port, born := x.born,
                      route := r, copies := ports.map fun n => ⟨n, .landing, 0, 0, false⟩, mcast := r.multi, deflected := false,
                      ballast := false, badTail := x.badTail, tag := tag }
    let h := h.addHeld y
    if h.landingFirst y then h.tryAdmit id else h

/-- A consumed Vaeth frame, its words read out of the landing zone (R318, point 1), waits for the unit that serves it. -/
def Hw.takeIn (h : Hw) (x : Rx) (d : VHdr) : Hw :=
  match h.eccPass 1 x.die x.cls false with
  | (true, h) => h.endRxAt x [2, 3] none 0
  | (false, h) =>
    let (id, h) := h.freshId
    let tag := x.tag.map fun t => { t with pts := aput 3 (h.slot x.die) (aput 2 (h.slot x.die) t.pts) }
    { h with buf := { h.buf with taken := h.buf.taken ++ [⟨id, x.port, x.frame, d, x.born, tag⟩] } }

/-- Delivery to the management cores ends the frame as consumed; `f` hands it over. -/
def Hw.delivered (h : Hw) (x : Rx) (f : Hw → Hw) : Hw :=
  match h.eccPass 1 x.die x.cls false with
  | (true, h) => h.endRxAt x [2, 3] none 0
  | (false, h) => (f h).endRxAt x [2, 3, 4] (some 1) 0

def Hw.toCores (h : Hw) (x : Rx) : Hw :=
  h.delivered x fun h => ({ h with mgt := { h.mgt with cpuFrames := h.mgt.cpuFrames ++ [(x.port, x.frame)] } }).icEvent 76

/-- RX_CORR of R249 in units of 0.1 ns. -/
def Hw.rxCorr (h : Hw) (p : Nat) : Int :=
  if !h.oslux p then 1456
  else
    match ((List.range 4).filter fun i => Nat.testBit (h.fld (.portLink p) Fld.portLink_rxMask) i).length with
    | 1 => 1264 | 2 => 1200 | 3 => 1179 | _ => 1168

/-- PTP runs on port `p` (R304). -/
def Hw.ptpOn (h : Hw) (p : Nat) : Bool := (h.reg (.tuPtpEn (p / 64))).getLsbD (p % 64) && h.portStart p

/-- A Vaeth frame that passed the parse checks: mirrored, policed, learned from, consumed or forwarded. -/
def Hw.vaethIn (h : Hw) (x : Rx) (d : VHdr) : Hw :=
  let q := x.die
  let h := h.mirrors x.port 0 x.cls x.frame
  match h.police q x.port x.cls x.frame.len with
  | (none, h) => h.endRx x (some 6) 0
  | (some cls, h) =>
    match h.learn q x.port d with
    | (false, h) => h.endRx x none 0
    | (true, h) =>
      match h.eccPass 2 q x.cls false with
      | (true, h) => h.endRx x none 0
      | (false, h) => if h.consumes q x.port d then h.takeIn x d else h.forward x d.dst d.src cls

/-- A standard frame (R58). -/
def Hw.stdIn (h : Hw) (x : Rx) : Hw :=
  let q := x.die
  match h.classify q x.frame with
  | .macControl => h.parseDiscard x 12
  | .lldp => h.toCores x
  | .ptp =>
    if h.ptpOn x.port then
      let h := h.mirrors x.port 0 1 x.frame
      h.delivered x fun h =>
        { h with tim := { h.tim with ptpIn := h.tim.ptpIn ++ [(x.port, (h.tim.fabric : Int) * 10 - h.rxCorr x.port, x.frame)] } }
    else h.parseDiscard x 13
  | .mcast6 => (h.mirrors x.port 0 0 x.frame).toCores x
  | .fabric6 node tc0 =>
    let x := { x with cls := if tc0 then 0 else 7 }
    let h := h.mirrors x.port 0 x.cls x.frame
    if h.dieOwns q node then h.toCores x
    else
      match h.police q x.port x.cls x.frame.len with
      | (none, h) => h.endRx x (some 6) 0
      | (some cls, h) =>
        match h.eccPass 2 q x.cls false with
        | (true, h) => h.endRx x none 0
        | (false, h) => h.forward x node (BitVec.ofNat 24 x.frame.ip6Src) cls
  | .other => h.parseDiscard x 11

/-- The class a frame shows before it is parsed: the TC of a Vaeth frame, the class of R58 of another. MAC control, LLDP and unsupported
frames, for which R58 gives no class, use the part of the landing zone that TC7 uses. (DESIGN CHOICE log entry 20.) -/
def Hw.rxClass (h : Hw) (q : Nat) (f : Frame) (vaeth : Bool) : Nat :=
  if vaeth then f.hdr.tc.toNat
  else match h.classify q f with
    | .ptp => 1
    | .mcast6 => 0
    | .fabric6 _ tc0 => if tc0 then 0 else 7
    | _ => 7

/-- The frame is a Vaeth frame (R38). -/
def Hw.isVaeth (h : Hw) (q : Nat) (f : Frame) : Bool :=
  let av := h.dieFld q .vaethCfg Fld.vaethCfg_acceptVlan == 1
  let ty := h.dieFld q .vaethCfg Fld.vaethCfg_ethertype
  (f.tags.length == 0 || (f.tags.length == 1 && av && f.tags.all isTag)) && f.etype.toNat == ty

/-- A frame longer than 2,048 bytes may already have begun to leave when its FCS proves wrong or it grows past a MAX_FRAME above 2,048
(R29, R41): whether it had is a free value. (DESIGN CHOICE log entry 20.) -/
def Hw.cutThrough (h : Hw) (q : Nat) (f : Frame) : Bool × Hw :=
  if 2048 < f.len ∧ 2048 < h.dieFld q .vaethCfg Fld.vaethCfg_maxFrame then
    let (v, h) := h.draw
    (v.getLsbD 0, h)
  else (false, h)

/-- A parsed frame whose envelope is right: discarded with the reason its header gives, or handled. -/
def Hw.parsed (h : Hw) (x : Rx) : Hw :=
  match x.hdr with
  | some d =>
    match h.headerReason x.die x.port x.frame d with
    | some r => h.parseDiscard x r
    | none => h.vaethIn x d
  | none => h.stdIn x

/-- The frame numbered `id` stands in a queue toward a port that transmits: only such a frame can have begun to leave. (DESIGN CHOICE log entry 20.) -/
def Hw.couldBegin (h : Hw) (id : Nat) : Bool :=
  h.buf.held.any fun x => x.id == id && x.copies.any fun c => c.spot == .queue && h.linkUp c.port

/-- A frame whose FCS is wrong, or that is cut at MAX_FRAME, after its transmission has begun (R41): none where it is not forwarded. -/
def Hw.forwardBad (h : Hw) (x : Rx) : Option Hw :=
  let mx := h.dieFld x.die .vaethCfg Fld.vaethCfg_maxFrame
  let f := { x.frame with body := x.frame.body.take (mx - 18 - 4 * x.frame.tags.length), fcsOk := false }
  let h' := h.parsed { x with frame := f, badTail := true }
  if h'.couldBegin h.buf.nextId then some (h'.count x.die 0x012 x.port 1) else none

/-- Parse checks of the envelope, then of the header (R60). (DESIGN CHOICE log entry 20.) -/
def Hw.parse (h : Hw) (x : Rx) : Hw :=
  let mx := h.dieFld x.die .vaethCfg Fld.vaethCfg_maxFrame
  let long := decide (mx < x.frame.len)
  if x.frame.len < 64 then h.parseDiscard x 1
  else if long || !x.frame.fcsOk then
    let (begun, h) := h.cutThrough x.die x.frame
    match (if begun then h.forwardBad x else none) with
    | some h => h
    | none =>
      let h := h.parseDiscard x (if long then 2 else 3)
      match x.hdr with
      | some d =>
        -- a damaged collective frame that the chip consumes still meets the checks of R139 (R145)
        if !long && (h.headerReason x.die x.port x.frame d).isNone && opCollective d.opcode.toNat && h.consumes x.die x.port d then
          h.takeIn { x with tag := none } d else h
      | none => h
  else h.parsed x

/-- A frame counts against the quiet time of a withdrawal unless it is link-local, IPv6 link-local multicast (R58) included, or PTP (R341); in
STATE 2 it returns STATE to 1. (DESIGN CHOICE log entry 62.) -/
def Hw.unquiet (h : Hw) (q : Nat) (f : Frame) (vaeth : Bool) : Hw :=
  if (if vaeth then f.hdr.dst == linkLocal else h.classify q f == .ptp || h.classify q f == .mcast6) then h
  else
    let h := { h with err := { h.err with quietFrom := h.slot 0 } }
    if h.fld .withdrawCtl Fld.withdrawCtl_state = 2 then h.setFld .withdrawCtl Fld.withdrawCtl_state 1 else h

/-- A frame from the retry layer enters its landing zone and the parser. -/
def Hw.landIn (h : Hw) (p : Nat) (f : Frame) : Hw :=
  let q := portDie p
  let (tag, h) := h.drawTag q
  let v := h.isVaeth q f
  let cls := h.rxClass q f v
  let x : Rx := { port := p, die := q, frame := f, hdr := if v then some f.hdr else none, cls := cls, tag := tag,
                  born := h.slot q, badTail := false }
  let h := h.unquiet q f v
  if h.landingRoom p cls f.len then h.parse x else (h.count q 0x011 p 1).endRxAt x [] (some 7) 0

/-- The port takes frames in: in UP every frame, in TRAINING, RETRAINING and LOST only those outside the retry sequence (R229,
R234). (DESIGN CHOICE log entry 1.) -/
def Hw.takesFrames (h : Hw) (p : Nat) (ctrl : Bool) : Bool :=
  h.portStart p && h.quadOk (portDie p) && !h.parked (portDie p) &&
    (h.linkState p == 3 || (ctrl && h.oslux p && (h.linkState p == 1 || h.linkState p == 2 || h.linkState p == 4)))

/-- A table entry of the ingress P-die is found with bad parity. -/
def Hw.upset (h : Hw) (q : Nat) (t : TblRef) : Hw :=
  if h.tblBad q t then h else { h with fwd := { h.fwd with bad := (t, q) :: h.fwd.bad } }

/-- FRAME_RECEIVE (R62). -/
def Hw.frameReceive (h : Hw) (p : Nat) (rx : RxFrame) (up : Option TblRef) : Hw :=
  let q := portDie p
  if !h.takesFrames p rx.preamble.ctrl then h
  else
    let h := match up with | some t => h.upset q t | none => h
    let h := ((h.countCodewords p rx.codewords).count q 0x001 p 1).count q 0x003 p ((rx.frame.len + 63) / 64)
    match h.retryIn p rx with
    | (.accept, h) => h.landIn p rx.frame
    | (.damaged, h) => h.landIn p { rx.frame with fcsOk := false }
    | (.drop, h) => h

def execFrameReceive (p : Port) (rx : RxFrame) (upset : Option TblRef) (s : State) : Host.Outcome State Fault Refusal :=
  .next (s.onHw fun h => h.frameReceive p rx upset)

/-! ### Consumed frames (R52, R82, R97) -/

/-- The frame has FENCE and an earlier frame of the same source and class has not left the chip (R82). (DESIGN CHOICE log entry 19.) -/
def Hw.fenced (h : Hw) (id : Nat) (d : VHdr) : Bool :=
  d.fence == 1 &&
    ((h.buf.held.any fun x => decide (x.id < id) && match x.hdr with | some e => e.src == d.src && e.tc == d.tc | none => false) ||
      (h.buf.taken.any fun x => decide (x.id < id) && x.hdr.src == d.src && x.hdr.tc == d.tc))

/-- The consumed frame may be acted on: no fence holds it, nothing older of its class stands before it in the landing zone, a collective
frame apart (R97, R112), and it has not waited past its age limit. -/
def Hw.mayTake (h : Hw) (x : Taken) : Bool :=
  !h.fenced x.id x.hdr && (opCollective x.hdr.opcode.toNat || !h.landingBefore x.port x.id x.hdr.tc.toNat) && !h.takenAged x

/-- The oldest consumed frame on port `p` whose opcode is in `ops`, if it may be acted on. -/
def Hw.takeFrame (h : Hw) (p : Nat) (ops : List Nat) : Option Taken × Hw :=
  match h.buf.taken.find? fun x => x.port == p && ops.contains x.hdr.opcode.toNat with
  | none => (none, h)
  | some x =>
    if !h.mayTake x then (none, h)
    else (some x, { h with buf := { h.buf with taken := h.buf.taken.filter fun y => y.id != x.id } })

/-- A consumed frame is done with. -/
def Hw.consumed (h : Hw) (x : Taken) : Hw := h.takenEnd x [4] 1

end Sys2Proof.Machine
end

