-- ==== Sys2Proof/Machine/Egress.lean ====
section
/-! DEFINITION. From the packet buffer to the wire: admission retries, spill, ageing, the egress scheduler, floor crossing,
transmission, and depth telemetry (R96 to R122, R240). -/

namespace Sys2Proof.Machine

/-! ### Waiting frames -/

/-- FRAME_ADMIT (R98): a frame in its landing zone or block retries, if nothing older of its class waits before it. -/
def Hw.frameAdmit (h : Hw) (id : Nat) : Hw :=
  match h.heldAt id with
  | some x => if h.quadOk x.die ∧ h.landingFirst x = true ∧ h.aged x = false then h.tryAdmit id else h
  | none => h

/-- AGE_DISCARD (R107): a frame held for an egress port, or a consumed frame that waits in its landing zone. -/
def Hw.ageDiscard (h : Hw) (id : Nat) : Hw :=
  match h.heldAt id with
  | some x => if h.aged x then h.ageOut x else h
  | none =>
    match h.buf.taken.find? fun x => x.id == id with
    | some x => if h.takenAged x then h.takenAgeOut x else h
    | none => h

def execAgeDiscard (id : Nat) (s : State) : Host.Outcome State Fault Refusal := .next (s.onHw fun h => h.ageDiscard id)

/-- The first copy in a list by queue order. -/
def firstJoin (l : List (Held × Copy)) : Option (Held × Copy) :=
  l.foldl (fun best x => match best with | none => some x | some b => if x.2.join < b.2.join then some x else some b) none

/-- The copies toward port `n` that satisfy `p`, with their frames. -/
def Hw.copiesTo (h : Hw) (n : Nat) (p : Held → Copy → Bool) : List (Held × Copy) :=
  h.buf.held.flatMap fun x => (x.copies.filter fun c => c.port == n && p x c).map fun c => (x, c)

/-- A queue's head: in SRAM or in spill (R100, R103). -/
def Hw.queueHead (h : Hw) (q n t : Nat) : Option (Held × Copy) :=
  firstJoin (h.copiesTo n fun x c => x.die == q && x.cls == t && !x.ballast && c.spot.inQueue)

/-- Set the place of the copy of frame `id` toward port `n`; the move gives it the next place in order. -/
def Hw.moveCopy (h : Hw) (id n : Nat) (spot : Spot) (left : Nat) : Hw :=
  let j := h.buf.nextJoin
  let h := { h with buf := { h.buf with nextJoin := j + 1 } }
  h.mapHeld id fun x => { x with copies := x.copies.map fun c =>
    if c.port = n then { c with spot := spot, join := j, left := left } else c }

/-! ### The egress scheduler (R113 to R116) -/

/-- Floor path k from P-die a to P-die b (spec/08). -/
def floorK (a b : Nat) : Nat := 3 * a + b - (if b > a then 1 else 0)

/-- Groups of the die-pair path from `a` to `b` in use. -/
def Hw.pathUp (h : Hw) (a b : Nat) : Bool := a == b || h.fld (.floorPath (floorK a b)) Fld.floorPath_upMask != 0

/-- The head of a participant can go: it waits in SRAM or Ballast, has not passed its age limit, is not held by a fence (R82), its
path stands, and the floor path and egress staging have room (R96). -/
def Hw.canGo (h : Hw) (x : Held) (c : Copy) : Bool :=
  c.spot == .queue && !h.aged x && h.quadOk x.die && h.pathUp x.die (portDie c.port) &&
    h.floorRoom x.die (portDie c.port) x.len && h.stagingRoom (c.port / 8) x.len &&
    match x.hdr with | some d => x.inPort.isNone || !h.fenced x.id d | none => true

/-- The five participants of class `t` at port `n`: the queues of the four P-dies, and the C-dies' frames (R113). -/
def Hw.participant (h : Hw) (n t k : Nat) : Option (Held × Copy) :=
  if k < 4 then h.queueHead k n t else firstJoin (h.copiesTo n fun x c => x.cls == t && x.ballast && c.spot == .queue)

def Hw.participantReady (h : Hw) (n t k : Nat) : Bool :=
  match h.participant n t k with
  | some (x, c) => h.canGo x c
  | none => false

def Hw.classReady (h : Hw) (n t : Nat) : Bool := (List.range 5).any fun k => h.participantReady n t k

/-- Deficit round robin with a quantum of 9,216 bytes (R113): the participant served. A participant whose head cannot go is passed over:
it gets no quantum and keeps its deficit. (DESIGN CHOICE log entry 62.) -/
def Hw.drrPick (h : Hw) (n t : Nat) : Nat → Drr → Option (Held × Copy) × Drr
  | 0, d => (none, d)
  | fuel + 1, d =>
    let next (d : Drr) : Option (Held × Copy) × Drr :=
      let k := (d.turn + 1) % 5
      let grant := if h.participantReady n t k then 9216 else 0
      Hw.drrPick h n t fuel { turn := k, deficit := d.deficit.set k (d.deficit.getD k 0 + grant) }
    match h.participant n t d.turn with
    | none => next { d with deficit := d.deficit.set d.turn 0 }
    | some (x, c) =>
      if h.canGo x c ∧ x.len ≤ d.deficit.getD d.turn 0 then
        (some (x, c), { d with deficit := d.deficit.set d.turn (d.deficit.getD d.turn 0 - x.len) })
      else next d

/-- The shaper of class `t` of port `n` after its refill (R117). -/
def Hw.shaperNow (h : Hw) (n t : Nat) : Bucket :=
  let c := h.reg (.shaper n t 0)
  let p := h.reg (.shaper n t 1)
  h.bucket (.shaper n t) (h.ns (portDie n)) (Fld.shaper_rate.get c) (Fld.shaper_burst.get c) (Fld.shaper_rate.get p)
    (Fld.shaper_burst.get p)

/-- Refill the eight shapers of a port. -/
def Hw.refillShapers (h : Hw) (n : Nat) : Hw :=
  (List.range 8).foldl (fun h t => h.setBucket (.shaper n t) (h.shaperNow n t)) h

/-- The class is in the committed band (R115, R117). -/
def Hw.inComm (h : Hw) (n t : Nat) : Bool :=
  h.fld (.shaper n t 0) Fld.shaper_rate != 0 && decide (0 ≤ (h.shaperNow n t).c) && !h.bit (.schedPort n) Fld.schedPort_overbook
/-- The class is in the excess band; for TC0 and TC1, it is eligible. -/
def Hw.inExc (h : Hw) (n t : Nat) : Bool :=
  h.fld (.shaper n t 1) Fld.shaper_rate == 0 || decide (0 ≤ (h.shaperNow n t).p)

/-- The weight of a class (R113). -/
def Hw.weight (h : Hw) (n t : Nat) : Nat := bits (h.reg (.schedPort n)).toNat (8 * (t - 2)) 8

/-- pick_band of R114 over the classes that satisfy `p`. -/
def pickBand (b : Band) (p : Nat → Bool) : Option Nat :=
  ([2, 3, 4, 5, 6, 7].filter p).foldl (fun best t =>
    match best with
    | none => some t
    | some u => if b.start.getD t 0 < b.start.getD u 0 then some t else some u) none

/-- How level 1 chose a class (R115). -/
inductive Pick where
  | promoted (t : Nat)
  | committed (t : Nat)
  | excess (t : Nat)
  | background (t : Nat)
deriving DecidableEq, Repr

/-- Level 1 of R115. -/
def Hw.level1 (h : Hw) (n : Nat) : Option Pick :=
  let s := h.sched n
  let ready (t : Nat) : Bool := h.classReady n t && (h.inComm n t || h.inExc n t)
  match [2, 3, 4, 5, 6, 7].find? fun t => s.promoted.getD t false && ready t with
  | some t => some (.promoted t)
  | none =>
    match pickBand s.comm fun t => h.weight n t != 0 && h.classReady n t && h.inComm n t with
    | some t => some (.committed t)
    | none =>
      match pickBand s.exc fun t => h.weight n t != 0 && h.classReady n t && h.inExc n t with
      | some t => some (.excess t)
      | none =>
        (((List.range 6).map fun i => 2 + (s.w0 - 2 + 1 + i) % 6).find? fun t => h.weight n t == 0 && ready t).map .background

/-- The class the scheduler serves: level 0, then level 1 (R113). -/
def Hw.schedPick (h : Hw) (n : Nat) : Option (Nat × Option Pick) :=
  match [0, 1].find? fun t => h.classReady n t && h.inExc n t with
  | some t => some (t, none)
  | none =>
    match h.level1 n with
    | some (.promoted t) => some (t, some (.promoted t))
    | some (.committed t) => some (t, some (.committed t))
    | some (.excess t) => some (t, some (.excess t))
    | some (.background t) => some (t, some (.background t))
    | none => none

/-- Tags, turn and timer after a service of class `t` (R114 to R116). -/
def Hw.served (h : Hw) (n t len : Nat) (p : Option Pick) : Hw :=
  let s := h.sched n
  let still := h.backlogged n t
  let w := h.weight n t
  let s := match p with
    | none => s
    | some (.committed _) => { s with comm := s.comm.serve t len w still }
    | some (.background _) => { s with exc := s.exc.serve t len w still, w0 := t }
    | some _ => { s with exc := s.exc.serve t len w still }
  let s := { s with starve := s.starve.set t 0, promoted := s.promoted.set t false }
  let h := h.setSched n s
  match p with
  | some (.promoted _) => h.count (portDie n) 0x039 t 1
  | _ => h

/-- The selected frame leaves its queue: into a floor crossing, or into egress staging of the same P-die. -/
def Hw.dispatch (h : Hw) (n : Nat) (x : Held) : Hw :=
  let q := x.die
  let h := h.copyPoint x.id n 5
  let h :=
    if x.ballast then h
    else
      let v := h.voq q n x.cls
      h.setVoq q n x.cls { v with deqNow := v.deqNow + x.len }
  if q = portDie n then (h.moveCopy x.id n .staging 0).copyPoint x.id n 6 else h.moveCopy x.id n .floor (cellsOf x.len)

/-- EGRESS_SCHEDULE (R113). (DESIGN CHOICE log entry 22.) -/
def Hw.egressSchedule (h : Hw) (n : Nat) : Hw :=
  if !h.portStart n || !h.linkUp n || !h.quadOk (portDie n) then h
  else
    let h := h.refillShapers n
    match h.schedPick n with
    | none => h
    | some (t, p) =>
      let s := h.sched n
      match h.drrPick n t 16 (s.drr.getD t ⟨4, List.replicate 5 0⟩) with
      | (none, _) => h
      | (some (x, _), d) =>
        let h := h.setSched n { s with drr := s.drr.set t d }
        match (if x.ballast then (false, h) else h.eccPass 3 x.die t false) with
        | (true, h) =>
          let (v, h) := h.draw
          -- the stored copy is lost: every copy not yet read out of the packet buffer goes with it (R86)
          (h.sampleCopies x (fun c => c.spot == .queue || c.spot == .landing) (v.toNat % 256)).dropCopies x.id fun c =>
            c.spot == .queue || c.spot == .landing
        | (false, h) => ((h.dispatch n x).served n t x.len p).onEmpty n t

def execEgressSchedule (p : Port) (s : State) : Host.Outcome State Fault Refusal := .next (s.onHw fun h => h.egressSchedule p)

/-- The starvation timer of class `t` of port `n` runs (R116). (DEDUCED log entry 58.) -/
def Hw.starving (h : Hw) (n t : Nat) : Bool :=
  decide (2 ≤ t) && h.backlogged n t && (h.inComm n t || h.inExc n t) && (h.inExc n t || h.weight n t == 0) && h.linkUp n

/-- STARVE_US of a class in slots; 0 disables promotion. -/
def Hw.starveLimit (h : Hw) (n t : Nat) : Nat := slotsUs * h.fld (.classCfg (portDie n) t) Fld.classCfg_starveUs

/-- STARVATION_TIMER_EXPIRE (R116): a backlogged class whose timer has reached STARVE_US is promoted. -/
def Hw.starvationExpire (h : Hw) (n t : Nat) : Hw :=
  let s := h.sched n
  if 2 ≤ t ∧ h.backlogged n t = true ∧ h.starveLimit n t ≠ 0 ∧ h.starveLimit n t ≤ s.starve.getD t 0 then
    h.setSched n { s with promoted := s.promoted.set t true }
  else h

def execStarvationTimerExpire (p : Port) (c : Cls) (s : State) : Host.Outcome State Fault Refusal :=
  .next (s.onHw fun h => h.starvationExpire p c)

/-! ### Floor crossing and transmission -/

/-- The last cell of a frame has crossed to P-die `b` (R96, R318): a damaged word discards the frame, or ends one that has begun to leave
with an inverted FCS; a port whose link is down discards it (R102). (DESIGN CHOICE log entry 22.) (DESIGN CHOICE log entry 20.) -/
def Hw.deliver (h : Hw) (x : Held) (c : Copy) : Hw :=
  let n := c.port
  let b := portDie n
  let begun := c.spot == .wire
  match h.eccPass 5 b x.cls begun with
  | (true, h) =>
    if begun then
      (h.mapHeld x.id fun y => { y with copies := y.copies.map fun k => if k.port = n then { k with left := 0, bad := true } else k }).count
        b 0x012 n 1
    else
      let (w, h) := h.draw
      (h.sampleCopy x n (w.toNat % 256)).dropCopies x.id fun c => c.port == n
  | (false, h) =>
    if begun then
      (h.mapHeld x.id fun y => { y with copies := y.copies.map fun k => if k.port = n then { k with left := 0 } else k }).copyPoint x.id n 6
    else if h.linkUp n then (h.moveCopy x.id n .staging 0).copyPoint x.id n 6
    else (h.linkLossDiscard x { c with spot := .staging }).dropCopies x.id fun c => c.port == n

/-- FLOOR_CELL_RECEIVE (R240): the next cell of the oldest frame crossing from `a` to `b`; a bad CRC is replayed from the sending
die's floor retry buffer. -/
def Hw.floorCell (h : Hw) (a b : Nat) (crcBad : Bool) : Hw :=
  if !h.quadOk a || !h.quadOk b || !h.pathUp a b then h
  else
    let all := h.buf.held.flatMap fun x =>
      (x.copies.filter fun c => x.die == a && portDie c.port == b && (c.spot == .floor || c.spot == .wire) && c.left != 0).map
        fun c => (x, c)
    match firstJoin all with
    | none => h
    | some (x, c) =>
      if crcBad then h.count b 0x04b (floorK a b) 1
      else if 1 < c.left then
        h.mapHeld x.id fun y => { y with copies := y.copies.map fun k => if k.port = c.port then { k with left := k.left - 1 } else k }
      else h.deliver x c

def execFloorCellReceive (a b : Quad) (crcBad : Bool) (s : State) : Host.Outcome State Fault Refusal :=
  .next (s.onHw fun h => h.floorCell a b crcBad)

/-- The preamble of a frame that begins now (R230). -/
def Hw.preamble (h : Hw) (p : Nat) (lseq : BitVec 16) (ctrl : Bool) : Option (BitVec 56) :=
  if h.oslux p then
    let l := h.link p
    let x : Preamble := { lseq := lseq, ack := l.rxNext - 1, nak := h.nakDue p, ctrl := ctrl, resync := l.resync && !ctrl, rsvd4 := 0,
                          rsvd5 := 0, pchk := 0 }
    some x.seal.word
  else none

/-- A preamble has gone out: its NAK and its RESYNC are spent. -/
def Hw.preambleSent (h : Hw) (p : Nat) (ctrl : Bool) : Hw :=
  let h := h.nakSent p
  if ctrl then h else h.setLink p { h.link p with resync := false }

/-- A frame leaves the egress MAC whole, and is counted. -/
def Hw.frameOut (h : Hw) (p : Nat) (pre : Option (BitVec 56)) (f : Frame) : Hw :=
  let q := portDie p
  (((h.emit (.frame p pre f)).count q 0x002 p 1).count q 0x004 p ((f.len + 63) / 64))

/-- The class in which an egress mirror session sees a frame: its TC, or the class a standard frame queued in. -/
def Held.wireClass (x : Held) : Nat := match x.hdr with | some d => d.tc.toNat | none => x.cls

/-- The frame as it stands on the wire of port `n`. -/
def Held.onWire (x : Held) (n : Nat) (bad : Bool) : Frame :=
  let f := if x.inPort.isNone then stampSource n x.frame else x.frame
  if x.badTail || bad then { f with fcsOk := false } else f

/-- A copy of a frame may start (R29): it is wholly staged, or 2,048 bytes of it are. -/
def Held.mayStart (x : Held) (c : Copy) : Bool :=
  c.spot == .staging || (c.spot == .floor && decide (2048 ≤ x.len - 256 * c.left) && c.left != 0)

/-- TX_CORR of R249 in units of 0.1 ns. -/
def Hw.txCorr (h : Hw) (p : Nat) : Int :=
  if !h.oslux p then 896
  else
    match ((List.range 4).filter fun i => Nat.testBit (h.fld (.portLink p) Fld.portLink_txMask) i).length with
    | 1 => 712 | 2 => 648 | 3 => 627 | _ => 616

/-- The transmit stamp of a PTP message, which only the chip itself sends (R58, R249). -/
def Hw.ptpStamp (h : Hw) (n : Nat) (x : Held) : Hw :=
  match x.hdr, x.frame.ptp with
  | none, some m =>
    let typ := (m.getD 0 0).toNat % 16
    let old := h.tim.ptpOut.filter fun y => !(y.1 == n && y.2.1 == typ)
    { h with tim := { h.tim with ptpOut := old ++ [(n, typ, (h.tim.fabric : Int) * 10 + h.txCorr n)] } }
  | _, _ => h

/-- A frame begins on the wire of port `n`: its preamble is fixed, and a port with retry holds the frame. -/
def Hw.begin (h : Hw) (n : Nat) (x : Held) (bad : Bool) : Hw :=
  let l := h.link n
  let pre := h.preamble n l.txSeq false
  let h := h.preambleSent n false
  let h := h.setLink n { h.link n with wirePre := pre }
  let h := if h.retryOn n then h.holdFrame n (x.onWire n bad)
    else if h.oslux n then h.setLink n { h.link n with txSeq := l.txSeq + 1 } else h
  (h.ptpStamp n x).copyPoint x.id n 7

/-- TRANSMIT_START (R29): a replay first (R231), else the oldest frame with enough of it staged begins on the wire. Egress mirror sessions
do not see a replay. (DESIGN CHOICE log entry 20, DESIGN CHOICE log entry 22.) -/
def Hw.transmitStart (h : Hw) (n : Nat) : Hw :=
  if !h.portStart n || !h.linkUp n || !h.quadOk (portDie n) || !(h.copiesTo n fun _ c => c.spot == .wire).isEmpty then h
  else
    let l := h.link n
    match l.replayFrom.bind fun k => l.held.find? fun f => f.lseq == k with
    | some f =>
      let h := (h.frameOut n (h.preamble n f.lseq false) f.frame).count (portDie n) 0x042 n 1
      let k := f.lseq + 1
      (h.preambleSent n false).setReplay n (if l.held.any (fun g => g.lseq == k) then some k else none)
    | none =>
      match firstJoin (h.copiesTo n Held.mayStart) with
      | none => h
      | some (x, _) =>
        let (v, h) := h.draw
        let begun := decide (2048 < x.len) && v.getLsbD 0
        let (bad7, h) := h.eccPass 7 (portDie n) x.cls begun
        let (bad8, h) := h.eccPass 8 (portDie n) x.cls begun
        if (bad7 || bad8) && !begun then
          let (w, h) := h.draw
          (h.sampleCopy x n (w.toNat % 256)).dropCopies x.id fun c => c.port == n
        else
          let bad := bad7 || bad8
          let h := if bad then h.count (portDie n) 0x012 n 1 else h
          let mark (c : Copy) : Copy := if c.port = n then { c with spot := .wire, bad := bad } else c
          (h.begin n x bad).mapHeld x.id fun y => { y with copies := y.copies.map mark }

def execTransmitStart (p : Port) (s : State) : Host.Outcome State Fault Refusal := .next (s.onHw fun h => h.transmitStart p)

/-- shaper_charge of R117: a bucket that is not listed is full (R120). -/
def Hw.chargeShaper (h : Hw) (n t len : Nat) : Hw :=
  let b := match aget (.shaper n t) h.egr.buckets with
    | some b => b
    | none => h.shaperNow n t
  let need : Int := (len * 80 : Nat)
  let b := if h.fld (.shaper n t 0) Fld.shaper_rate = 0 then b else { b with c := b.c - need }
  let b := if h.fld (.shaper n t 1) Fld.shaper_rate = 0 then b else { b with p := b.p - need }
  h.setBucket (.shaper n t) b

/-- TRANSMIT_END (R314): the last byte leaves; the shaper is charged and a tagged frame writes its record. -/
def Hw.transmitEnd (h : Hw) (n : Nat) : Hw :=
  match (h.copiesTo n fun _ c => c.spot == .wire && c.left == 0).head? with
  | none => h
  | some (x, c) =>
    let f := x.onWire n c.bad
    let h := h.frameOut n (h.link n).wirePre f
    let h := (h.chargeShaper n x.cls f.len).mirrors n 1 x.wireClass f
    (h.sampleCopy x n 0).dropCopies x.id fun c => c.port == n

def execTransmitEnd (p : Port) (s : State) : Host.Outcome State Fault Refusal := .next (s.onHw fun h => h.transmitEnd p)

/-! ### Telemetry (R121, R122) -/

/-- HEAD_DELAY of a queue: the age of its head frame in units of 8 ns, saturating. -/
def Hw.headDelay (h : Hw) (q n t : Nat) : Nat :=
  match h.queueHead q n t with
  | some (x, _) => min ((h.slot q - x.born) * 25 / 16 / 8) (2 ^ 24 - 1)
  | none => 0

/-- Queues of P-die `q` that hold a frame or whose last sample was not 0. -/
def Hw.sampledQueues (h : Hw) (q : Nat) : List Nat :=
  let now := h.buf.held.flatMap fun x =>
    if x.die = q ∧ x.ballast = false then (x.copies.filter fun c => c.spot.inQueue).map fun c => 8 * c.port + x.cls else []
  let old := h.regs.filterMap fun r => match r.1 with | .voqStat q' v => if q' = q then some v else none | _ => none
  (now ++ old).dedup

/-- The sample of one queue. -/
def Hw.sampleQueue (h : Hw) (q v : Nat) : Hw :=
  let n := v / 8
  let t := v % 8
  (h.setFld (.voqStat q v) Fld.voqStat_depth (units4k (h.depth q n t))).setFld (.voqStat q v) Fld.voqStat_headDelay (h.headDelay q n t)

/-- Compare one egress port's samples with its marks (R122). Of queues with the same largest HEAD_DELAY, DELAY_CLASS names that of the
lowest P-die, and in it the lowest class. (DESIGN CHOICE log entry 10.) -/
def Hw.markPort (h : Hw) (n : Nat) : Hw :=
  let sum := ((List.range 4).map fun q => ((List.range 8).map fun t => h.fld (.voqStat q (8 * n + t)) Fld.voqStat_depth).sum).sum
  let best := (List.range 4).foldl (fun b q => (List.range 8).foldl (fun (b : Nat × Nat) t =>
      let d := h.fld (.voqStat q (8 * n + t)) Fld.voqStat_headDelay
      if b.1 < d then (d, t) else b) b) ((0, 0) : Nat × Nat)
  let r := Reg.portHwm n
  let h := if h.fld r Fld.portHwm_depthHwm < sum then h.setFld r Fld.portHwm_depthHwm (min sum (2 ^ 24 - 1)) else h
  if h.fld r Fld.portHwm_delayHwm < best.1 then
    (h.setFld r Fld.portHwm_delayHwm best.1).setFld r Fld.portHwm_delayClass best.2
  else h

/-- DEPTH_SAMPLE (R28, R121): once in every 1 µs of its time base, one sample of every queue of P-die `q`. (DESIGN CHOICE log entry 10.) -/
def Hw.depthSample (h : Hw) (q : Nat) : Hw :=
  let now := h.slot q / slotsUs
  if !h.quadOk q || now == h.buf.sampledAt.get q then h
  else
    let h := (h.sampledQueues q).foldl (fun h v => h.sampleQueue q v) h
    let roll (v : Nat × Voq) : Nat × Voq := if v.1 / 8192 = q then (v.1, { v.2 with deqLast := v.2.deqNow, deqNow := 0 }) else v
    let h := { h with buf := { h.buf with samples := h.buf.samples.set q (h.buf.samples.get q + 1), sampledAt := h.buf.sampledAt.set q now,
                                          spillNow := h.buf.spillNow.set q 0, voq := h.buf.voq.map roll } }
    let port (r : Reg × W64) : Option Nat := match r.1 with
      | .voqStat _ v => if portDie (v / 8) = q then some (v / 8) else none
      | _ => none
    let ports := (h.regs.filterMap port).dedup
    ports.foldl (fun h n => h.markPort n) h

def execDepthSample (q : Quad) (s : State) : Host.Outcome State Fault Refusal := .next (s.onHw fun h => h.depthSample q)

end Sys2Proof.Machine
end

