-- ==== Sys2Proof/Machine/Learn.lean ====
section
/-! DEFINITION. The exception table's insertions and ageing (R69, R72 to R74), and writes of the level tables, Spars, seeds, mirror
sessions, spill, shapers and policers (R64, R66, R83, R87, R104, R120). -/

namespace Sys2Proof.Machine

/-! ### Exception table -/

/-- Where R69 would place a new entry: in its bucket (false) or in the overflow store (true); none: no room. While a rehash moves the
entries, an insertion is placed under the new seed, and leaves room for every entry that is still to move (R265). (DESIGN CHOICE log entry 44.) -/
def Hw.excPlace (h : Hw) (node : Node) : Option Bool :=
  let l := h.fwd.exc.get (h.epochDie.getD 0)
  match h.rehashing .excRehash with
  | none =>
    let seed : BitVec 32 := BitVec.ofNat 32 (h.fld .fwdSeed Fld.fwdSeed_excSeed)
    let b := excBucket node seed
    if (l.filter fun e => !e.ovf && excBucket e.node seed == b).length < 4 then some false
    else if (l.filter fun e => e.ovf).length < 4096 then some true
    else none
  | some seed =>
    let b := excBucket node seed
    if bucketsFit (b :: l.map fun e => excBucket e.node seed) 1 4096 then
      some (decide (4 ≤ (l.filter fun e => e.moved && !e.ovf && excBucket e.node seed == b).length))
    else none

/-- An entry as an insertion stores it. -/
def Hw.excNew (h : Hw) (e : ExcEnt) (ovf : Bool) : ExcEnt := { e with ovf := ovf, moved := (h.rehashing .excRehash).isSome }

/-- Add an entry to every replica. -/
def Hw.excAdd (h : Hw) (e : ExcEnt) : Hw := h.mapExc fun l => l ++ [e]

/-- The entry that an insertion finds: in the replica of P-die `q`, or, while its parity is bad there, in a good one; an entry bad in all
four is absent. -/
def Hw.excForInsert (h : Hw) (q : Nat) (node : Node) : Option ExcEnt × Hw :=
  match h.excRead q node with
  | (some e, h) => (some e, h)
  | (none, h) => (((List.range 4).find? fun k => !h.tblBad k ⟨.exc, node.toNat⟩).bind fun k => h.excFind k node, h)

/-- LEARN_INSERT (R74): the oldest learn request of P-die `q`. (DESIGN CHOICE log entry 21.) -/
def Hw.learnInsert (h : Hw) (q : Nat) : Hw :=
  match h.fwd.learnQ.get q with
  | [] => h
  | (src, p) :: rest =>
    let h := { h with fwd := { h.fwd with learnQ := h.fwd.learnQ.set q rest } }
    let room := decide (h.learnCount p < h.fld (.portFwd p) Fld.portFwd_learnLimit)
    match h.excForInsert q src with
    | (some e, h) =>
      if e.static then h
      else if e.target = p then h.learnHit q p src
      else if room then (h.learnHit q p src).reroute [nodeKey src]
      else h.learnExcess q p src
    | (none, h) =>
      if !room then h.count q 0x023 p 1
      else
        let h := (h.dropEntry src).excGood src
        match h.excPlace src with
        | none => h.count q 0x025 0 1
        | some o => h.excAdd (h.excNew { node := src, static := false, kind := 0, target := p, hit := true, ovf := o, lastHit := h.slot q, moved := false } o)

def execLearnInsert (q : Quad) (s : State) : Host.Outcome State Fault Refusal := .next (s.onHw fun h => h.learnInsert q)

/-- Slots in one second. -/
def slotsSec : Nat := 640000000

/-- LEARN_AGE_EXPIRE (R72): the ager visits an entry. A learned entry not hit for LEARN_AGE is removed, which is a re-route; another loses
its HIT (R68). (DESIGN CHOICE log entry 21.) -/
def Hw.learnAgeExpire (h : Hw) (node : Node) : Hw :=
  let q := h.epochDie.getD 0
  let age := h.fld .fwdCfg Fld.fwdCfg_learnAge
  match h.excFind q node with
  | none => h
  | some e =>
    if e.static ∨ age = 0 then h
    else if h.slot q < e.lastHit + age * slotsSec then h.mapEntry node fun e => { e with hit := false }
    else ((h.dropEntry node).excGood node).reroute [nodeKey node]

def execLearnAgeExpire (node : Node) (s : State) : Host.Outcome State Fault Refusal := .next (s.onHw fun h => h.learnAgeExpire node)

/-! ### Register words under an access (R7, R8) -/

/-- The word that an access of `v` aims at, the other half taken from the present value. (DEDUCED log entry 16.) -/
def accWord (a : Acc) (old v : W64) : W64 :=
  match a with
  | .full => v
  | .lo => (old &&& 0xffffffff00000000) ||| (v &&& 0xffffffff)
  | .hi => (old &&& 0xffffffff) ||| (v <<< 32)

/-- The bits an access reaches. (DEDUCED log entry 16.) -/
def accMask (a : Acc) : W64 :=
  match a with
  | .full => 0xffffffffffffffff
  | .lo => 0xffffffff
  | .hi => 0xffffffff00000000

/-- The value of a register after a plain write: RW fields take the written bits, RW1C fields clear and RW1S fields set where a 1 is
written, every other field keeps its value. (DEDUCED log entry 16.) -/
def Hw.writeWord (h : Hw) (r : Reg) (a : Acc) (v : W64) : W64 :=
  let old := h.reg r
  let w := accWord a 0 v &&& accMask a
  let m := accMask a
  let rw := r.rwMask &&& m
  (((old &&& ~~~rw) ||| (w &&& rw)) &&& ~~~(w &&& r.w1cMask)) ||| (w &&& r.w1sMask)

/-! ### Level tables and Spars (R64, R66) -/

/-- The window of a quadrant's P-die or C-die can be reached (R21) and written: not before DP_READY (R255), and not while the quadrant
is in reset. -/
def Hw.quadReach (h : Hw) (q : Nat) : Bool := h.dpReady && !h.err.hubLost.get q && !h.qdBusy q

/-- Write a word into every replica that the hub reaches; a word of a table takes its PARITY anew, and is good again. -/
def Hw.replicate (h : Hw) (mk : Nat → Reg) (t : TblRef) (v : W64) : Hw :=
  (List.range 4).foldl (fun h q =>
    if h.err.hubLost.get q then h
    else
      let h := h.setReg (mk q) v
      { h with fwd := { h.fwd with bad := h.fwd.bad.filter fun x => !(x.1 == t && x.2 == q) } }) h

/-- The route a level entry gives, for R83: two words that give the same route are no re-route. -/
def levelMeaning (l : Level) (v : W64) : Option Route :=
  if Fld.rackTbl_valid.get v = 1 then some (levelRoute l v) else none

/-- LEVEL_TABLE_WRITE (R64): all four replicas; a change of the entry's route is a re-route of its Zone. -/
def Hw.levelWrite (h : Hw) (l : Level) (q i : Nat) (a : Acc) (v : W64) : Hw :=
  if levelSize l ≤ i ∨ h.quadReach q = false then h
  else
    let old := h.reg (levelReg l q i)
    let new := withParity (h.writeWord (levelReg l q i) a v)
    let h := h.replicate (fun q => levelReg l q i) ⟨.level l, i⟩ new
    if levelMeaning l old = levelMeaning l new then h
    else h.reroute [zoneKey (match l with | .zone => i | .row => i / 64 | .rack => i / 4096)]

def execLevelTableWrite (l : Level) (q : Quad) (i : BitVec 16) (acc : Acc) (v : W64) (s : State) :
    Host.Outcome State Fault Refusal := .next (s.onHw fun h => h.levelWrite l q i.toNat acc v)

/-- The eligible set of a Spar, slot by slot, and its weights (R83). -/
def Hw.sparShape (h : Hw) (q s : Nat) : List (Option Nat) × List Nat :=
  ((h.sparSlots q s).map fun m => if m.2 = 0 then none else some m.1, ((List.range 32).flatMap fun w => h.sparWord q s w).map (·.2))

/-- SPAR_WRITE (R66): all four replicas; a change of the Spar's eligible set or weights is a re-route. -/
def Hw.sparWrite (h : Hw) (q s w : Nat) (a : Acc) (v : W64) : Hw :=
  if h.quadReach q = false then h
  else
    let d := h.epochDie.getD 0
    let new := withParity (h.writeWord (.sparTbl q (32 * s + w)) a v)
    let h' := h.replicate (fun q => .sparTbl q (32 * s + w)) ⟨.spar, 32 * s + w⟩ new
    if h'.sparShape d s = h.sparShape d s then h' else h'.reroute ((h'.sparZones d [s]).map zoneKey)

def execSparWrite (q : Quad) (spar : BitVec 12) (w : Fin 32) (acc : Acc) (v : W64) (s : State) :
    Host.Outcome State Fault Refusal := .next (s.onHw fun h => h.sparWrite q spar.toNat w acc v)

/-- PIN_SEED_WRITE: a write of FWD_SEED; a changed PIN_SEED is a re-route of every Zone (R83). -/
def Hw.pinSeedWrite (h : Hw) (a : Acc) (v : W64) : Hw :=
  let old := h.fld .fwdSeed Fld.fwdSeed_pinSeed
  let h := h.setHubReg .fwdSeed (h.writeWord .fwdSeed a v)
  if h.fld .fwdSeed Fld.fwdSeed_pinSeed = old then h else h.reroute ((List.range 16).map zoneKey)

def execPinSeedWrite (acc : Acc) (v : W64) (s : State) : Host.Outcome State Fault Refusal :=
  .next (s.onLive fun h => h.pinSeedWrite acc v)

/-- MIRROR_CFG_WRITE (R87): the session's count restarts at 0. -/
def Hw.mirrorCfgWrite (h : Hw) (m : Nat) (a : Acc) (v : W64) : Hw :=
  let h := h.setReg (.mirrorCfg m) (h.writeWord (.mirrorCfg m) a v)
  { h with fwd := { h.fwd with mirror := adel m h.fwd.mirror } }

def execMirrorCfgWrite (m : Fin 16) (acc : Acc) (v : W64) (s : State) : Host.Outcome State Fault Refusal :=
  .next (s.onLive fun h => h.mirrorCfgWrite m acc v)

/-! ### Shapers and policers (R117 to R120) -/

/-- Both buckets are full again: the pair is no longer listed. -/
def Hw.fillBucket (h : Hw) (r : BucketRef) : Hw := { h with egr := { h.egr with buckets := adel r h.egr.buckets } }

/-- SHAPER_WRITE (R120): both buckets fill, and OVERBOOK is recomputed (R118). A port's registers exist at its first lane. -/
def Hw.shaperWrite (h : Hw) (n t w : Nat) (a : Acc) (v : W64) : Hw :=
  if !h.portStart n || !h.quadReach (portDie n) then h
  else ((h.setReg (.shaper n t w) (h.writeWord (.shaper n t w) a v)).fillBucket (.shaper n t)).overbook n

def execShaperWrite (p : Port) (c : Cls) (peak : Bool) (acc : Acc) (v : W64) (s : State) : Host.Outcome State Fault Refusal :=
  .next (s.onHw fun h => h.shaperWrite p c (if peak then 1 else 0) acc v)

/-- POLICER_WRITE (R120). -/
def Hw.policerWrite (h : Hw) (q k w : Nat) (a : Acc) (v : W64) : Hw :=
  if !h.quadReach q then h
  else (h.setReg (.policer q k w) (h.writeWord (.policer q k w) a v)).fillBucket (.policer q k)

def execPolicerWrite (q : Quad) (k : Port) (peak : Bool) (acc : Acc) (v : W64) (s : State) : Host.Outcome State Fault Refusal :=
  .next (s.onHw fun h => h.policerWrite q k (if peak then 1 else 0) acc v)

end Sys2Proof.Machine
end

