-- ==== Sys2Proof/Machine/Bridle.lean ====
section
/-! DEFINITION. Bridles: roles, the window, the frames they send, aborts, and release of positions (R126, R127, R135 to R141, R150,
R151, R398), with what a change of a port's service does to them. -/

namespace Sys2Proof.Machine

def Hw.bridleAt (h : Hw) (ix : Nat) : Option Bridle := h.coll.bridles.find? fun b => b.ix == ix
def Hw.setBridle (h : Hw) (b : Bridle) : Hw :=
  { h with coll := { h.coll with bridles := h.coll.bridles.map fun x => if x.ix = b.ix then b else x } }

/-! ### Roles (R126, R127) -/

def Bridle.owner (b : Bridle) (s : BitVec 32) : Nat := s.toNat / 2 ^ b.ownerShift % max b.ranks 1
/-- The member's range holds rank `r`. -/
def Member.covers (m : Member) (r : Nat) : Bool := decide (m.rankLo ≤ r) && decide (r < m.rankLo + m.rankN)

def Bridle.contributes (b : Bridle) (s : BitVec 32) (m : Member) : Bool :=
  match b.kind with
  | 0 | 1 => true
  | 2 => m.covers (b.owner s)
  | _ => m.covers b.rootRank

def Bridle.receives (b : Bridle) (s : BitVec 32) (m : Member) : Bool := b.kind != 1 || m.covers (b.owner s)

/-- Member indices in order. -/
def Bridle.ixs (b : Bridle) : List Nat := List.range b.members.length
def Bridle.mem (b : Bridle) (i : Nat) : Member := b.members.getD i ⟨0, false, false, 0, 0, 0⟩
def Bridle.contributors (b : Bridle) (s : BitVec 32) : List Nat := b.ixs.filter fun i => b.contributes s (b.mem i)
def Bridle.receivers (b : Bridle) (s : BitVec 32) : List Nat := b.ixs.filter fun i => b.receives s (b.mem i)

/-! ### The window (R140) -/

def Bridle.win (b : Bridle) : Nat := 2 ^ b.winLog2
def Bridle.posOf (b : Bridle) (s : BitVec 32) : Nat := s.toNat % b.win
def Pos.blank (e : BitVec 32) : Pos :=
  { expect := e, early := false, state := .free, roff := 0, ctx := [], data := [], acked := [], tries := [], straggle := none,
    opened := 0 }
def Bridle.at (b : Bridle) (p : Nat) : Pos := b.pos.getD p (Pos.blank 0)
def Bridle.setPos (b : Bridle) (p : Nat) (x : Pos) : Bridle := { b with pos := b.pos.set p x }

inductive SeqClass where
  | current | early | late
deriving DecidableEq, Repr

/-- classify_seq of R140. -/
def Bridle.classify (b : Bridle) (s : BitVec 32) : SeqClass :=
  let d := (s - (b.at (b.posOf s)).expect).toNat
  if d = 0 then .current else if d < 2 ^ 31 then .early else .late

/-- The lowest sequence from `s` onward that its position expects. -/
def seqLowFrom (b : Bridle) : Nat → BitVec 32 → BitVec 32
  | 0, s => s
  | n + 1, s => if (b.at (b.posOf s)).expect = s then s else seqLowFrom b n (s + 1)

/-- OPEN of word 5. -/
def Bridle.openCount (b : Bridle) : Nat := (b.pos.filter fun p => p.state != .free).length

/-! ### Collective frames (R135 to R137) -/

/-- Where a Bridle sends a frame. -/
inductive Toward where
  | member (i : Nat)
  | parent
deriving DecidableEq, Repr

def Bridle.port (b : Bridle) : Toward → Nat
  | .member i => (b.mem i).port
  | .parent => b.parentPort
def Bridle.node (b : Bridle) : Toward → Node
  | .member i => (b.mem i).node
  | .parent => b.parentNode
/-- MEMBER of a frame to a member or to the parent (R136). -/
def Bridle.memberField (b : Bridle) : Toward → Nat
  | .member i => i
  | .parent => b.parentMember

/-- Send a collective frame from Ballast (R99, R135). -/
def Hw.sendColl (h : Hw) (b : Bridle) (dst : Toward) (op : Nat) (seq : BitVec 32) (roff : BitVec 40) (low : Nat) (replay : Bool)
    (payload : List Byte) : Hw :=
  let n := b.port dst
  if !h.quadOk (portDie n) then h
  else
    let q := if h.quadOk b.home then b.home else portDie n
    h.originateOn q n
      { VHdr.make 2 op (b.node dst) h.node with
        status := if replay then 1 else 0, seq := seq, roff := roff,
        opData := BitVec.ofNat 64 (b.group.toNat * 2 ^ 48 + b.gen.toNat * 2 ^ 40 + b.memberField dst * 2 ^ 30 + low) } payload true

def Hw.sendChunk (h : Hw) (b : Bridle) (s : BitVec 32) (x : Pos) (replay : Bool) : Hw :=
  h.sendColl b .parent 0x60 s x.roff 0x3f80 replay x.data
def Hw.sendResult (h : Hw) (b : Bridle) (s : BitVec 32) (x : Pos) (replay : Bool) (i : Nat) : Hw :=
  h.sendColl b (.member i) 0x61 s x.roff 0 replay x.data
/-- RESULT_ACK with DIR. -/
def Hw.sendAck (h : Hw) (b : Bridle) (dst : Toward) (s : BitVec 32) (dir : Nat) : Hw :=
  h.sendColl b dst 0x62 s 0 (dir * 2 ^ 29) false []
/-- REPLAY_REQ with DIR and CAUSE, counted by its cause. -/
def Hw.sendReplayReq (h : Hw) (b : Bridle) (dst : Toward) (s : BitVec 32) (dir cause : Nat) : Hw :=
  (h.sendColl b dst 0x63 s 0 (dir * 2 ^ 29 + cause * 2 ^ 27) false []).count (4 + b.home) 0x102 cause 1
/-- BRIDLE_NOTICE with STATE: 0 READY, 1 CLOSED, 2 PENDING. (DEDUCED log entry 24.) -/
def Hw.sendNotice (h : Hw) (b : Bridle) (dst : Toward) (state : Nat) : Hw :=
  h.sendColl b dst 0x65 b.firstSeq 0 (state * 2 ^ 28) false []

/-! ### Records of the Bridle form (R328) -/

/-- LOW8: eight member indices of 11 bits, 0x7FF where unused. -/
def low8 (l : List Nat) : Nat := ((List.range 8).map fun i => l.getD i 0x7ff * 2 ^ (11 * i)).sum

def Hw.bridleRec (h : Hw) (b : Bridle) (code sub : Nat) (s : BitVec 32) (n agree : Nat) (low : List Nat) : Hw :=
  h.record { code := code, die := 4 + b.home, unit := 0,
             d0 := BitVec.ofNat 64 (b.group.toNat + b.gen.toNat * 2 ^ 16 + sub * 2 ^ 24 + s.toNat * 2 ^ 32),
             d1 := BitVec.ofNat 64 (n % 65536 + agree % 65536 * 2 ^ 16 + low8 low % 2 ^ 32 * 2 ^ 32),
             d2 := BitVec.ofNat 64 (low8 low / 2 ^ 32) }

/-! ### Aborts (R150, R151) -/

/-- Every position that is not FREE is released (R141, R143, R151); nobody is asked for a chunk of an aborted generation. -/
def Bridle.released (b : Bridle) : Bridle :=
  let out (p : Pos) : Pos := Pos.blank (if p.state = .free then p.expect else p.expect + BitVec.ofNat 32 b.win)
  let b := { b with pos := b.pos.map out }
  { b with seqLow := seqLowFrom b (b.win + 1) b.seqLow }

/-- The Bridle aborts with a reason, sequence and member; ABORT goes to every member and the parent but `except`. (DEDUCED log entry 24, DEDUCED log entry 61.) -/
def Hw.bridleAbort (h : Hw) (b : Bridle) (reason : Nat) (s : BitVec 32) (member : Nat) (except : Option Nat) : Hw :=
  if b.state = .aborted then h
  else
    let b := { b.released with state := .aborted, abortSeq := s, abortReason := reason, abortMember := member }
    let h := (h.setBridle b).count (4 + b.home) 0x105 reason 1
    let h := h.bridleRec b 0x0303 reason s 0 0 [member]
    let ends := (b.ixs.map Toward.member) ++ (if b.parentEn then [.parent] else [])
    (ends.filter fun t => some (b.port t) != except).foldl (fun h t => h.sendColl b t 0x64 s 0 (reason * 2 ^ 26) false []) h

/-- An abort tied to no sequence: SEQ_LOW (R151). -/
def Hw.bridleAbortLow (h : Hw) (b : Bridle) (reason member : Nat) : Hw := h.bridleAbort b reason b.seqLow member none

/-- The lowest-indexed member on a port; 0x7FF when it has none (R398). -/
def Bridle.memberOn (b : Bridle) (n : Nat) : Nat := (b.ixs.find? fun i => (b.mem i).port == n).getD 0x7ff

/-- A port leaves IN_SERVICE: every Bridle that has it as a member or parent port aborts with LINK (R150). -/
def Hw.bridlesLosePort (h : Hw) (n : Nat) : Hw :=
  h.coll.bridles.foldl (fun h b =>
    let parent := b.parentEn && b.parentPort == n
    if b.state != .aborted && (parent || b.memberOn n != 0x7ff) then
      h.bridleAbortLow b 2 (b.memberOn n)
    else h) h

/-- Change the state of ports `ns` by `f`: eligibility changes are re-routes (R67, R83), and Bridles on ports that left service
abort (R150). -/
def Hw.withPorts (h : Hw) (ns : List Nat) (f : Hw → Hw) : Hw :=
  let h' := h.portsChange ns f
  (ns.filter fun n => h.inService n && !h'.inService n).foldl (fun h n => h.bridlesLosePort n) h'

/-! ### Release of a position (R141) -/

/-- The position becomes FREE, EXPECT moves on by W, and contributors of the next sequence are asked again if a chunk came early. -/
def Hw.releasePos (h : Hw) (b : Bridle) (p : Nat) : Bridle × Hw :=
  let x := b.at p
  let e := x.expect + BitVec.ofNat 32 b.win
  let b := b.setPos p (Pos.blank e)
  let b := { b with seqLow := seqLowFrom b (b.win + 1) b.seqLow }
  let h := h.setBridle b
  if x.early then (b, (b.contributors e).foldl (fun h i => h.sendReplayReq b (.member i) e 1 3) h) else (b, h)

/-- One more request or resend of CAUSE 0, 1 or 2 for member `i` in position `p` (R146): the Bridle with the count, or none at the
limit. 1024 counts those toward the parent. (DEDUCED log entry 30, DEDUCED log entry 61.) -/
def Bridle.tryOnce (b : Bridle) (p i : Nat) : Option Bridle :=
  let x := b.at p
  let k := (aget i x.tries).getD 0
  if 3 ≤ k then none else some (b.setPos p { x with tries := aput i (k + 1) x.tries })

/-- The limit of R146 is reached. (DEDUCED log entry 30, DEDUCED log entry 61.) -/
def Hw.replayLimit (h : Hw) (b : Bridle) (p i : Nat) : Hw :=
  h.bridleAbort b 4 (b.at p).expect (if i < 1024 then i else 0x7ff) none

end Sys2Proof.Machine
end

