-- ==== Sys2Proof/Machine/Numbers.lean ====
section
/-! DEFINITION. Numbers of the reduction lanes: exact values, the element formats of R159 to R162, and rounding (R173 to R179). -/

namespace Sys2Proof.Machine

/-- A value of a lane: NaN, an infinity, or the exact number ± m × 2^e; a zero keeps its sign. -/
inductive Num where
  | nan
  | inf (neg : Bool)
  | fin (neg : Bool) (m : Nat) (e : Int)
deriving DecidableEq, Repr

/-- An integer as a value; 0 is +0. -/
def Num.ofInt (v : Int) : Num := .fin (decide (v < 0)) v.natAbs 0

/-- The integer ± m × 2^(e − base) of a finite value with e at least `base`. -/
def signedAt (neg : Bool) (m : Nat) (e base : Int) : Int :=
  let v : Int := (m * 2 ^ (e - base).toNat : Nat)
  if neg then -v else v

/-- Exact sum under IEEE 754's rules for special values and signs of zero. -/
def Num.add : Num → Num → Num
  | .nan, _ => .nan
  | _, .nan => .nan
  | .inf a, .inf b => if a = b then .inf a else .nan
  | .inf a, _ => .inf a
  | _, .inf b => .inf b
  | .fin a m e, .fin b n f =>
    let base := min e f
    let v := signedAt a m e base + signedAt b n f base
    if v = 0 then .fin (a && b) 0 base else .fin (decide (v < 0)) v.natAbs base

/-- Exact product under IEEE 754's rules for special values. -/
def Num.mul : Num → Num → Num
  | .nan, _ => .nan
  | _, .nan => .nan
  | .inf a, .inf b => .inf (a != b)
  | .inf a, .fin b n _ => if n = 0 then .nan else .inf (a != b)
  | .fin a m _, .inf b => if m = 0 then .nan else .inf (a != b)
  | .fin a m e, .fin b n f => .fin (a != b) (m * n) (e + f)

/-- `a` is less than `b`; neither is NaN. -/
def Num.lt : Num → Num → Bool
  | .inf a, .inf b => a && !b
  | .inf a, _ => a
  | _, .inf b => !b
  | .fin a m e, .fin b n f => decide (signedAt a m e (min e f) < signedAt b n f (min e f))
  | _, _ => false

def Num.neg : Num → Bool
  | .nan => false
  | .inf a => a
  | .fin a _ _ => a

/-- The larger, or with `least` the smaller; NaN if either is NaN; +0 is larger than −0 (R168). -/
def Num.pick (least : Bool) (a b : Num) : Num :=
  if a = .nan ∨ b = .nan then .nan
  else if a.lt b then (if least then a else b)
  else if b.lt a then (if least then b else a)
  else if a.neg == least then a else b

/-! ### Floating-point formats (R159) -/

inductive FltKind where
  /-- the largest exponent holds infinities and NaN -/
  | ieee
  /-- E4M3: one NaN code per sign, no infinity -/
  | e4m3
  /-- no special encodings -/
  | plain
deriving DecidableEq, Repr

structure Flt where
  ebits : Nat
  mbits : Nat
  bias : Nat
  kind : FltKind
deriving DecidableEq, Repr

def fp32 : Flt := ⟨8, 23, 127, .ieee⟩
def bf16 : Flt := ⟨8, 7, 127, .ieee⟩

/-- The element format of a format code; for MX formats that of their elements. -/
def fltOf (code : Nat) : Flt :=
  match code with
  | 1 => bf16
  | 2 => ⟨5, 10, 15, .ieee⟩
  | 3 | 5 => ⟨4, 3, 7, .e4m3⟩
  | 4 | 6 => ⟨5, 2, 15, .ieee⟩
  | 7 => ⟨2, 3, 1, .plain⟩
  | 8 => ⟨3, 2, 3, .plain⟩
  | 9 => ⟨2, 1, 1, .plain⟩
  | _ => fp32

/-- The value of a code. -/
def Flt.decode (f : Flt) (v : Nat) : Num :=
  let neg := Nat.testBit v (f.ebits + f.mbits)
  let ex := bits v f.mbits f.ebits
  let mn := bits v 0 f.mbits
  if f.kind = .ieee ∧ ex = 2 ^ f.ebits - 1 then (if mn = 0 then .inf neg else .nan)
  else if f.kind = .e4m3 ∧ ex = 15 ∧ mn = 7 then .nan
  else if ex = 0 then .fin neg mn (1 - (f.bias : Int) - f.mbits)
  else .fin neg (2 ^ f.mbits + mn) ((ex : Int) - f.bias - f.mbits)

/-- The rounding of a conversion (R175): to nearest even, or stochastic with the 32 bits of sr_bits. -/
inductive Rnd where
  | even
  | stoch (u : Nat)
deriving DecidableEq, Repr

/-- Whether the magnitude t + r / den is rounded up. -/
def Rnd.up (k : Rnd) (t r den : Nat) : Bool :=
  match k with
  | .even => decide (den < 2 * r) || (decide (2 * r = den) && t % 2 == 1)
  | .stoch u => decide (u * den < r * 2 ^ 32)

/-- m / d × 2^e rounded to a multiple of 2^q: the multiple. -/
def roundTo (k : Rnd) (m d : Nat) (e q : Int) : Nat :=
  let num := m * 2 ^ (e - q).toNat
  let den := d * 2 ^ (q - e).toNat
  let t := num / den
  if k.up t (num % den) den then t + 1 else t

/-- floor(log2 (m / d × 2^e)) for m ≠ 0. -/
def floorLog (m d : Nat) (e : Int) : Int :=
  let l : Int := (Nat.log2 m : Int) - Nat.log2 d
  let low := if 0 ≤ l then decide (m < d * 2 ^ l.toNat) else decide (m * 2 ^ (-l).toNat < d)
  (if low then l - 1 else l) + e

/-- The code, without sign, of the magnitude m / d × 2^e rounded once; none when it lies beyond the format's range. -/
def Flt.round (f : Flt) (k : Rnd) (m d : Nat) (e : Int) : Option Nat :=
  let emin : Int := 1 - (f.bias : Int)
  if m = 0 then some 0
  else
    let q := max (floorLog m d e) emin - f.mbits
    let t := roundTo k m d e q
    let t' := if t = 2 ^ (f.mbits + 1) then 2 ^ f.mbits else t
    let q' := if t = 2 ^ (f.mbits + 1) then q + 1 else q
    let ex := if t' < 2 ^ f.mbits then 0 else (q' + f.mbits + f.bias).toNat
    let mn := t' % 2 ^ f.mbits
    let out := match f.kind with
      | .ieee => decide (2 ^ f.ebits - 1 ≤ ex)
      | .e4m3 => decide (15 < ex) || (ex == 15 && mn == 7)
      | .plain => decide (2 ^ f.ebits ≤ ex)
    if out then none else some (ex * 2 ^ f.mbits + mn)

def Flt.sign (f : Flt) (neg : Bool) (v : Nat) : Nat := (if neg then 2 ^ (f.ebits + f.mbits) else 0) + v

/-- The largest finite code. -/
def Flt.top (f : Flt) : Nat :=
  match f.kind with
  | .ieee => (2 ^ f.ebits - 1) * 2 ^ f.mbits - 1
  | .e4m3 => 0x7e
  | .plain => 2 ^ (f.ebits + f.mbits) - 1

/-- The canonical NaN of a format (R176). -/
def Flt.nanCode (f : Flt) : Nat :=
  match f.kind with
  | .ieee => (2 ^ f.ebits - 1) * 2 ^ f.mbits + 2 ^ (f.mbits - 1)
  | _ => 0x7f

/-- What the conversions of R176 to R179 count (R189): NaN outputs, overflowed outputs, MX blocks marked NaN, NaN to integer, and the
integer saturations of R170. -/
structure Tally where
  nan : Nat
  ovf : Nat
  mxNan : Nat
  nanInt : Nat
  sat : Nat
deriving DecidableEq, Repr

def Tally.zero : Tally := ⟨0, 0, 0, 0, 0⟩
def Tally.add (a b : Tally) : Tally := ⟨a.nan + b.nan, a.ovf + b.ovf, a.mxNan + b.mxNan, a.nanInt + b.nanInt, a.sat + b.sat⟩

/-- An infinity, or a finite value that overflowed, in a format with saturation `sat` (R176). -/
def Flt.beyond (f : Flt) (sat neg : Bool) (n : Nat) : Nat × Tally :=
  if sat ∨ f.kind = .plain then (f.sign neg f.top, { Tally.zero with ovf := 1 })
  else match f.kind with
    | .ieee => (f.sign neg ((2 ^ f.ebits - 1) * 2 ^ f.mbits), { Tally.zero with ovf := n })
    | _ => (f.nanCode, { Tally.zero with nan := 1, ovf := n })

/-- One element in a floating-point format. -/
def Flt.encode (f : Flt) (k : Rnd) (sat : Bool) (x : Num) : Nat × Tally :=
  match x with
  | .nan => (f.nanCode, { Tally.zero with nan := 1 })
  | .inf neg => f.beyond sat neg 0
  | .fin neg m e =>
    match f.round k m 1 e with
    | some v => (f.sign neg v, Tally.zero)
    | none => f.beyond sat neg 1

/-- binary32 to nearest even; a finite value beyond the range becomes an infinity, or the largest finite one with `sat` (R174). -/
def toF32 (sat : Bool) (x : Num) : BitVec 32 :=
  match x with
  | .inf neg => BitVec.ofNat 32 (fp32.sign neg 0x7f800000)
  | _ => BitVec.ofNat 32 (fp32.encode .even sat x).1

def ofF32 (v : BitVec 32) : Num := fp32.decode v.toNat

/-! ### Payload layout (R160 to R163) -/

/-- Elements in a 256-byte unit of an MX format. -/
def mxUnit (code : Nat) : Nat := if code ≤ 6 then 224 else if code ≤ 8 then 320 else 480
/-- Offset of the scale bytes in a unit. -/
def mxScaleAt (code : Nat) : Nat := if code ≤ 6 then 224 else 240
def isMx (code : Nat) : Bool := decide (5 ≤ code) && decide (code ≤ 9)

/-- E of R163: the elements of `u` units. -/
def elementsOf (code u : Nat) : Nat :=
  match code with
  | 0 | 10 => 64 * u
  | 1 | 2 => 128 * u
  | 3 | 4 | 12 => 256 * u
  | 5 | 6 => 224 * u
  | 7 | 8 => 320 * u
  | 9 => 480 * u
  | 11 => 256 * u - 16
  | _ => 0

/-- L of R163: the bytes of `n` elements. -/
def lengthOf (code n : Nat) : Nat :=
  match code with
  | 0 | 10 => 4 * n
  | 1 | 2 => 2 * n
  | 3 | 4 => n
  | 5 | 6 => 256 * ((n + 223) / 224)
  | 7 | 8 => 256 * ((n + 319) / 320)
  | 9 => 256 * ((n + 479) / 480)
  | 11 => 16 + n
  | 12 => 256
  | _ => 0

/-- The code of element `i` of an MX payload. -/
def mxCode (code : Nat) (p : List Byte) (i : Nat) : Nat :=
  let base := 256 * (i / mxUnit code)
  let j := i % mxUnit code
  if code ≤ 6 then getLE p (base + j) 1
  else if code ≤ 8 then bits (getLE p (base + 3 * (j / 4)) 3) (6 * (j % 4)) 6
  else bits (getLE p (base + j / 2) 1) (4 * (j % 2)) 4

/-- The scale byte of the block of element `i`. -/
def mxScale (code : Nat) (p : List Byte) (i : Nat) : Nat :=
  getLE p (256 * (i / mxUnit code) + mxScaleAt code + i % mxUnit code / 32) 1

/-- Element `i` of a payload: the value d of R173. -/
def elemAt (code : Nat) (p : List Byte) (i : Nat) : Num :=
  match code with
  | 0 => fp32.decode (getLE p (4 * i) 4)
  | 1 | 2 => (fltOf code).decode (getLE p (2 * i) 2)
  | 3 | 4 => (fltOf code).decode (getLE p i 1)
  | 10 => Num.ofInt (BitVec.ofNat 32 (getLE p (4 * i) 4)).toInt
  | 11 => (Num.ofInt (BitVec.ofNat 8 (getLE p (16 + i) 1)).toInt).mul (fp32.decode (getLE p 0 4))
  | _ =>
    let s := mxScale code p i
    if s = 255 then .nan else ((fltOf code).decode (mxCode code p i)).mul (.fin false 1 ((s : Int) - 127))

/-! ### Outputs (R176 to R179) -/

/-- EMAX of R177. -/
def mxEmax (code : Nat) : Int :=
  match code with
  | 5 => 8
  | 6 => 15
  | 8 => 4
  | _ => 2

/-- The larger of two finite magnitudes (m, e); other values do not count. -/
def magMax (a : Option (Nat × Int)) (x : Num) : Option (Nat × Int) :=
  match x with
  | .fin _ m e =>
    if m = 0 then a
    else match a with
      | none => some (m, e)
      | some (n, f) => if (Num.fin false n f).lt (.fin false m e) then some (m, e) else a
  | _ => a

/-- The largest nonzero finite magnitude. -/
def largest (l : List Num) : Option (Nat × Int) := l.foldl magMax none

/-- A block of an MX output: its scale byte and its element codes (R177). -/
def mxBlock (code : Nat) (sat : Bool) (l : List (Num × Rnd)) : Nat × List Nat × Tally :=
  let f := fltOf code
  let bad := l.any fun x => match x.1 with | .nan => true | .inf _ => !sat | .fin _ _ _ => false
  if bad then (255, l.map fun _ => 0, { Tally.zero with mxNan := 1 })
  else
    let x : Int := match largest (l.map (·.1)) with
      | none => -127
      | some (m, e) => max (-127) (min 127 (floorLog m 1 e - mxEmax code))
    let r := l.map fun y => match y.1 with
      | .fin neg m e => f.encode y.2 true (.fin neg m (e - x))
      | v => f.encode y.2 true v
    ((x + 127).toNat, r.map (·.1), (r.map (·.2)).foldl Tally.add Tally.zero)

/-- Blocks of 32. -/
def blocks32 {α : Type} : Nat → List α → List (List α)
  | 0, _ => []
  | n + 1, l => if l.isEmpty then [] else l.take 32 :: blocks32 n (l.drop 32)

/-- Element codes packed as R160 says. -/
def packCodes (code : Nat) (l : List Nat) : List Byte :=
  if code ≤ 6 then l.map (BitVec.ofNat 8)
  else if code ≤ 8 then
    (List.range ((l.length + 3) / 4)).flatMap fun j =>
      bytesLE 3 (((List.range 4).map fun k => l.getD (4 * j + k) 0 * 2 ^ (6 * k)).sum)
  else (List.range ((l.length + 1) / 2)).map fun j => BitVec.ofNat 8 (l.getD (2 * j) 0 + 16 * l.getD (2 * j + 1) 0)

/-- Units of an MX output (R161). -/
def mxUnits (code : Nat) : Nat → List (Nat × List Nat) → List Byte
  | 0, _ => []
  | n + 1, l =>
    if l.isEmpty then []
    else
      let k := mxUnit code / 32
      let b := l.take k
      padTo 256 (padTo (mxScaleAt code) (packCodes code (b.flatMap (·.2))) ++ b.map fun x => BitVec.ofNat 8 x.1) ++
        mxUnits code n (l.drop k)

/-- One element of an INT32 output (R176, R179). -/
def toInt32 (k : Rnd) (x : Num) : Nat × Tally :=
  match x with
  | .nan => (0, { Tally.zero with nanInt := 1 })
  | .inf neg => (if neg then 0x80000000 else 0x7fffffff, { Tally.zero with ovf := 1 })
  | .fin neg m e =>
    let t := roundTo k m 1 e 0
    if neg then (if 2 ^ 31 < t then (0x80000000, { Tally.zero with ovf := 1 }) else ((2 ^ 32 - t) % 2 ^ 32, Tally.zero))
    else if 2 ^ 31 ≤ t then (0x7fffffff, { Tally.zero with ovf := 1 }) else (t, Tally.zero)

/-- The scale of an INT8 output (R178). (DESIGN CHOICE log entry 34.) -/
def int8Scale (l : List Num) : Nat :=
  match largest l with
  | none => 0x3f800000
  | some (m, e) => (fp32.round .even m 127 e).getD 0x7f7fffff

/-- 0 / 0, which an INT8 element is when the scale rounded to 0, clamped to ±127: a free value of the sign and the rounding, so that
equal runs give equal bits (R183). (DESIGN CHOICE log entry 34.) -/
def zeroByte (neg : Bool) (k : Rnd) : Byte :=
  let u := Config.zeroQuotient neg (match k with | .even => none | .stoch n => some n)
  if u = 0x80 then 0x81 else u

/-- One element of an INT8 output (R178). (DESIGN CHOICE log entry 34.) -/
def toInt8 (scale : Nat) (k : Rnd) (x : Num) : Byte × Tally :=
  let lim (neg : Bool) : Byte := if neg then 0x81 else 0x7f
  match x, fp32.decode scale with
  | .nan, _ => (0, { Tally.zero with nanInt := 1 })
  | .inf neg, _ => (lim neg, { Tally.zero with ovf := 1 })
  | .fin neg m e, .fin _ n f =>
    if n = 0 then (if m = 0 then (zeroByte neg k, Tally.zero) else (lim neg, { Tally.zero with ovf := 1 }))
    else
      let base := min e f
      if 127 * (n * 2 ^ (f - base).toNat) < m * 2 ^ (e - base).toNat then (lim neg, { Tally.zero with ovf := 1 })
      else
        let t := min 127 (roundTo k m n (e - f) 0)
        (BitVec.ofNat 8 (if neg then 256 - t else t), Tally.zero)
  | .fin _ _ _, _ => (0, Tally.zero)

/-- Values packed in an output format with the tally of what happened. -/
def packOut (code : Nat) (sat : Bool) (l : List (Num × Rnd)) : List Byte × Tally :=
  let sum (t : List Tally) : Tally := t.foldl Tally.add Tally.zero
  if isMx code then
    let b := (blocks32 l.length l).map (mxBlock code sat)
    (mxUnits code b.length (b.map fun x => (x.1, x.2.1)), sum (b.map (·.2.2)))
  else if code = 10 then
    let r := l.map fun x => toInt32 x.2 x.1
    (r.flatMap fun x => bytesLE 4 x.1, sum (r.map (·.2)))
  else if code = 11 then
    let s := int8Scale (l.map (·.1))
    let r := l.map fun x => toInt8 s x.2 x.1
    (bytesLE 4 s ++ List.replicate 12 0 ++ r.map (·.1), sum (r.map (·.2)))
  else
    let w := if code = 0 then 4 else if code ≤ 2 then 2 else 1
    let r := l.map fun x => (fltOf code).encode x.2 sat x.1
    (r.flatMap fun x => bytesLE w x.1, sum (r.map (·.2)))

/-- sr_bits of R175. -/
def srBits (group seq elem : Nat) : Nat :=
  let x : BitVec 64 := BitVec.ofNat 64 (group % 65536 * 2 ^ 48 + seq % 2 ^ 32 * 65536 + elem % 65536)
  let x := x ^^^ (x >>> 33)
  let x := x * 0xFF51AFD7ED558CCD
  let x := x ^^^ (x >>> 33)
  let x := x * 0xC4CEB9FE1A85EC53
  let x := x ^^^ (x >>> 33)
  x.toNat % 2 ^ 32

end Sys2Proof.Machine
end

