-- ==== Sys2Proof/Machine/Reduce.lean ====
section
/-! DEFINITION. The reduction lanes: recipes, contributions, accumulation, the fixed association, the finish of a result, and the vote
(R157 to R189). -/

namespace Sys2Proof.Machine

/-! ### Recipes (R164 to R167) -/

/-- A recipe as its four words say. -/
structure Rcp where
  valid : Bool
  op : Nat
  inFmt : Nat
  scaleEn : Bool
  outFmt : Nat
  upFmt : Nat
  stoch : Bool
  sat : Bool
  normEn : Bool
  quorum : Nat
  inScale : Nat
  norm : Nat
deriving DecidableEq, Repr

def Rcp.ofWords (w0 w1 w2 w3 : Nat) : Rcp :=
  { valid := bits w0 0 1 == 1, op := bits w0 1 3, inFmt := bits w0 4 4, scaleEn := bits w0 8 1 == 1, inScale := bits w1 0 32,
    outFmt := bits w2 0 4, upFmt := bits w2 4 4, stoch := bits w2 8 1 == 1, sat := bits w2 9 1 == 1, normEn := bits w2 10 1 == 1,
    quorum := bits w2 16 11, norm := bits w3 0 32 }

/-- Recipe slot `r` in the replica of C-die `c`. -/
def Hw.rcp (h : Hw) (c r : Nat) : Rcp :=
  let w (i : Nat) : Nat := (h.reg (.recipeW c (4 * r + i))).toNat
  Rcp.ofWords (w 0) (w 1) (w 2) (w 3)

/-- The table of R165. -/
def Rcp.allowed (r : Rcp) : Bool :=
  decide (r.quorum ≤ 1024) &&
  match r.op with
  | 0 | 1 | 2 | 3 => decide (r.inFmt ≤ 11) && decide (r.outFmt ≤ 11) && decide (r.upFmt ≤ 11)
  | 4 => r.inFmt == 10 && r.outFmt == 10 && r.upFmt == 10 && !r.scaleEn && !r.normEn
  | 5 => decide (r.inFmt ≤ 11) && r.outFmt == 10 && r.upFmt == 10 && !r.scaleEn && !r.normEn
  | 6 => r.inFmt == 12 && r.outFmt == 12 && r.upFmt == 12 && !r.scaleEn && !r.normEn && !r.stoch
  | _ => false

/-- How a sequence accumulates. -/
inductive Path where
  | float | int | unsigned | exact | vote
deriving DecidableEq, Repr

/-- The path of a recipe in a Bridle with EXACT (R169 to R171). -/
def Rcp.path (r : Rcp) (exact : Bool) : Path :=
  if r.op = 6 then .vote
  else if r.op = 4 ∨ r.op = 5 then .unsigned
  else if exact then .exact
  else if r.inFmt = 10 ∧ r.op ≤ 2 ∧ r.scaleEn = false then .int
  else .float

/-! ### Stages 1 to 3 (R173, R174) -/

/-- The product of R174 before it is rounded, and whether a factor took part. (DESIGN CHOICE log entry 34.) -/
def Rcp.product (r : Rcp) (gate : Nat) (d : Num) : Num × Bool :=
  let y := if r.scaleEn then d.mul (fp32.decode r.inScale) else d
  (if r.op = 3 then y.mul (bf16.decode gate) else y, r.scaleEn || r.op == 3)

/-- A superaccumulator that holds one value (R171). -/
def exactOf (x : Num) : AccV :=
  match x with
  | .nan => .exact 0 3
  | .inf neg => .exact 0 (if neg then 2 else 1)
  | .fin neg m e => .exact (signedAt neg m e (-149)) 0

/-- The contribution x of element `i` of a chunk (R168, R174). (DESIGN CHOICE log entry 34.) -/
def Rcp.contribution (r : Rcp) (exact : Bool) (gate : Nat) (p : List Byte) (i : Nat) : AccV :=
  let d := elemAt r.inFmt p i
  match r.path exact with
  | .unsigned =>
    if r.op = 4 then .i32 (BitVec.ofNat 32 (getLE p (4 * i) 4))
    else .i32 (match d with | .fin _ m _ => if m = 0 then 0 else 1 | _ => 1)
  | .int => .i32 (BitVec.ofNat 32 (getLE p (4 * i) 4))
  | .exact =>
    let y := r.product gate d
    exactOf (if y.2 then ofF32 (toF32 r.sat y.1) else d)
  | _ => .f32 (toF32 r.sat (r.product gate d).1)

/-! ### Stage 4 (R168 to R171) -/

/-- A signed sum in 32 bits, wrapping or saturating, and whether it saturated (R170). -/
def addI32 (sat : Bool) (a b : BitVec 32) : BitVec 32 × Nat :=
  let v := a.toInt + b.toInt
  if sat then
    if v < -(2 : Int) ^ 31 then (0x80000000, 1) else if (2 : Int) ^ 31 ≤ v then (0x7fffffff, 1) else (BitVec.ofInt 32 v, 0)
  else (BitVec.ofInt 32 v, 0)

/-- The tag of a sum in exact mode (R171). -/
def joinTag (a b : Fin 4) : Fin 4 := if a = 0 then b else if b = 0 ∨ a = b then a else 3

/-- combine of R168 on one element, with the integer saturations. -/
def combine1 (r : Rcp) (exact : Bool) (a b : AccV) : AccV × Nat :=
  match a, b with
  | .f32 x, .f32 y =>
    if r.op = 1 ∨ r.op = 2 then (.f32 (toF32 false (Num.pick (r.op == 2) (ofF32 x) (ofF32 y))), 0)
    else (.f32 (toF32 false ((ofF32 x).add (ofF32 y))), 0)
  | .i32 x, .i32 y =>
    match r.path exact, r.op with
    | .unsigned, 4 => (.i32 (x ||| y), 0)
    | .unsigned, _ => if 2 ^ 32 ≤ x.toNat + y.toNat then (.i32 0xffffffff, 1) else (.i32 (x + y), 0)
    | _, 1 => (.i32 (if x.toInt < y.toInt then y else x), 0)
    | _, 2 => (.i32 (if y.toInt < x.toInt then y else x), 0)
    | _, _ => let z := addI32 r.sat x y; (.i32 z.1, z.2)
  | .exact x s, .exact y t => (.exact (x + y) (joinTag s t), 0)
  | x, _ => (x, 0)

/-- combine on all elements. -/
def combineAll (r : Rcp) (exact : Bool) (a b : List AccV) : List AccV × Nat :=
  let z := List.zipWith (combine1 r exact) a b
  (z.map (·.1), (z.map (·.2)).sum)

/-- A partial that may be EMPTY, with the saturations counted on the way to it. -/
abbrev Partial := Option (List AccV) × Nat

/-- combine on partials: an empty one yields the other operand (R180). -/
def Partial.join (r : Rcp) (exact : Bool) (a b : Partial) : Partial :=
  match a.1, b.1 with
  | some x, some y => let z := combineAll r exact x y; (some z.1, a.2 + b.2 + z.2)
  | some x, none => (some x, a.2 + b.2)
  | none, y => (y, a.2 + b.2)

/-- One round of lane_tree at width `w` over `lq` virtual lanes (R180). -/
def treeRound (r : Rcp) (exact : Bool) (lq : Nat) (v : List Partial) (w : Nat) : List Partial :=
  ((List.range lq).filter fun j => j % (2 * w) == 0 && decide (j + w < lq)).foldl (fun v j =>
    v.set j (Partial.join r exact (v.getD j (none, 0)) (v.getD (j + w) (none, 0)))) v

/-- lane_tree of R180: at most 16 virtual lanes. -/
def laneTree (r : Rcp) (exact : Bool) (lq : Nat) (v : List Partial) : Partial :=
  (([1, 2, 4, 8].filter fun w => decide (w < lq)).foldl (treeRound r exact lq) v).headD (none, 0)

/-- Virtual lanes of a quadrant (R180). -/
def lanesPerQuad (canon : Nat) : Nat := (canon + 3) / 4

/-- The quadrant partial of a context. -/
def QCtx.partial (x : QCtx) (r : Rcp) (exact : Bool) (canon : Nat) : Partial :=
  let lq := lanesPerQuad canon
  laneTree r exact lq ((List.range lq).map fun v => (aget v x.lanes, 0))

/-- A contribution is taken into its virtual lane: the first is stored, later ones combine (R169). The saturations follow. -/
def QCtx.take (x : QCtx) (r : Rcp) (exact : Bool) (v : Nat) (y : List AccV) : QCtx × Nat :=
  let k := (aget v x.taken).getD 0
  let z := match aget v x.lanes with
    | none => (y, 0)
    | some a => combineAll r exact a y
  ({ x with lanes := aput v z.1 x.lanes, taken := aput v (k + 1) x.taken }, z.2)

/-! ### Stages 6 and 7 (R172, R174 to R179) -/

/-- The value of a finished accumulator. -/
def AccV.num (p : Path) : AccV → Num
  | .f32 v => ofF32 v
  | .i32 v => if p = .unsigned then Num.ofInt v.toNat else Num.ofInt v.toInt
  | .exact v t =>
    if t = 1 then .inf false else if t = 2 then .inf true else if t = 3 then .nan
    else .fin (decide (v < 0)) v.natAbs (-149)

/-- The value after NORM, which the top chip applies (R172, R174). -/
def Rcp.normed (r : Rcp) (exact top : Bool) (a : AccV) : Num :=
  let x := a.num (r.path exact)
  if r.normEn && top then
    let y := x.mul (fp32.decode r.norm)
    match r.path exact with
    | .float => ofF32 (toF32 false y)
    | _ => y
  else x

/-- The output of a finished sequence: OUT_FMT at the top, UP_FMT below it (R172), with its tally. -/
def Rcp.output (r : Rcp) (exact top : Bool) (group seq : Nat) (l : List AccV) : List Byte × Tally :=
  let code := if top then r.outFmt else r.upFmt
  if r.op = 4 then (l.flatMap fun a => match a with | .i32 v => bytesLE 4 v.toNat | _ => bytesLE 4 0, Tally.zero)
  else
    packOut code r.sat
      (l.zipIdx.map fun x => (r.normed exact top x.1, if r.stoch then .stoch (srBits group seq x.2) else .even))

/-! ### Handshakes (R157) -/

/-- Handshakes of one contribution: stages 1 to 5, and in a vote stage 8 over its payload. (DESIGN CHOICE log entry 33.) -/
def contributionHandshakes (exact vote : Bool) (units : Nat) : Nat := (if exact then 2 * units else units) + if vote then units else 0
/-- Handshakes of stages 6 to 8 for an output of `len` bytes. (DESIGN CHOICE log entry 33.) -/
def finishHandshakes (exact : Bool) (code elements len : Nat) : Nat :=
  (if code = 12 then 0 else (elements + (if exact then 31 else 63)) / (if exact then 32 else 64) * (if code = 11 then 2 else 1)) +
    (len + 255) / 256

/-- Enabled physical lanes of C-die `c` under the disabled-unit map (R36, R37). -/
def enabledLanes (dis : W64) (c : Nat) : List Nat := ((List.range 16).map (16 * c + ·)).filter fun k => !dis.getLsbD k

/-- The physical lane that serves virtual lane `v` of C-die `c` (R180). -/
def servingLane (dis : W64) (c v : Nat) : Option Nat :=
  let l := enabledLanes dis c
  l[v % max 1 l.length]?

/-! ### The vote (R186, R187) -/

/-- The stage-8 digest. -/
def stageDigest (l : List Byte) : List Byte := shake256 16 l

/-- What a vote finds: contributors, the size and digest of the majority class, the status, and the members outside the class. -/
structure Vote where
  contrib : Nat
  agree : Nat
  status : Nat
  digest : List Byte
  odd : List Nat
deriving DecidableEq, Repr

/-- R187 over the digests by ascending member index. -/
def voteOf (quorum : Nat) (l : List (Nat × List Byte)) : Vote :=
  let size (d : List Byte) : Nat := (l.filter fun x => x.2 == d).length
  let best := l.foldl (fun b x => if size b < size x.2 then x.2 else b) ((l.headD (0, [])).2)
  let n := l.length
  let a := size best
  let maj := if quorum = 0 then decide (n < a * 2) else decide (quorum ≤ a)
  { contrib := n, agree := a, status := if maj then (if a = n then 0 else 1) else 2, digest := best,
    odd := (l.filter fun x => x.2 != best).map (·.1) }

/-- The 256-byte report of R187. -/
def Vote.report (v : Vote) : List Byte :=
  bytesLE 2 v.contrib ++ bytesLE 2 v.agree ++ bytesLE 1 v.status ++ List.replicate 11 0 ++ padTo 16 v.digest ++
    List.replicate 96 0 ++ bytesLE 128 ((v.odd.map fun m => 2 ^ m).sum)

end Sys2Proof.Machine
end

