-- ==== Sys2Proof/Machine/Collective.lean ====
section
/-! DEFINITION. Collective frames as they are consumed, positions at the home die, the Reel, timers, and the end of a sequence (R134,
R139 to R151, R185, R187, R188, R397, R398). -/

namespace Sys2Proof.Machine

/-! ### Requests and resends (R145, R146) -/

/-- One event of position `p` toward member `i` (1024: the parent): counted in an open context unless CAUSE is 3; at the limit
the Bridle aborts, else `f` acts. -/
def Hw.reel (h : Hw) (b : Bridle) (p i cause : Nat) (f : Hw → Bridle → Hw) : Hw :=
  if b.state = .aborted then h
  else if (b.at p).state = .free ∨ cause = 3 then f h b
  else match b.tryOnce p i with
    | none => h.replayLimit b p i
    | some b => f (h.setBridle b) b

/-- REPLAY_REQ with DIR 1 to member `i` for the sequence that position `p` expects. -/
def Hw.askChunk (h : Hw) (ix p i cause : Nat) : Hw :=
  match h.bridleAt ix with
  | none => h
  | some b => h.reel b p i cause fun h b => h.sendReplayReq b (.member i) (b.at p).expect 1 cause

/-- A word of the copy held in Ballast is read for a resend: an uncorrected one aborts the Bridle (R147, R318). -/
def Hw.ballastRead (h : Hw) (b : Bridle) (p : Nat) : Bool × Hw :=
  let (bad, h) := h.eccPass 10 (4 + b.home) 2 false
  if bad then (false, h.bridleAbort b (if (b.at p).state = .hold then 6 else 8) (b.at p).expect 0x7ff none) else (true, h)

/-- Resend the held result to member `i` with REPLAY = 1. -/
def Hw.resendResult (h : Hw) (ix p i cause : Nat) : Hw :=
  match h.bridleAt ix with
  | none => h
  | some b => h.reel b p i cause fun h b =>
      match h.ballastRead b p with
      | (true, h) => (h.sendResult b (b.at p).expect (b.at p) true i).count (4 + b.home) 0x103 0 1
      | (false, h) => h

/-- Resend the held partial to the parent with REPLAY = 1. -/
def Hw.resendPartial (h : Hw) (ix p cause : Nat) : Hw :=
  match h.bridleAt ix with
  | none => h
  | some b => h.reel b p 1024 cause fun h b =>
      match h.ballastRead b p with
      | (true, h) => h.sendChunk b (b.at p).expect (b.at p) true
      | (false, h) => h

/-! ### The checks of R139 -/

/-- Discard a collective frame under a check, counted at the C-die of its arrival port. -/
def Hw.collDrop (h : Hw) (x : Taken) (check : Nat) : Hw := h.count (4 + portDie x.port) 0x101 check 1

def VHdr.member (d : VHdr) : Nat := d.opData.toNat / 2 ^ 30 % 1024
def VHdr.gen (d : VHdr) : BitVec 8 := BitVec.ofNat 8 (d.opData.toNat / 2 ^ 40)
def VHdr.low30 (d : VHdr) : Nat := d.opData.toNat % 2 ^ 30

/-- ABORT_MEMBER of a PROTOCOL abort (R398). -/
def Bridle.protoMember (b : Bridle) (x : Taken) : Nat :=
  let m := x.hdr.member
  if b.parentEn ∧ b.parentPort = x.port then 0x7ff
  else if m < b.members.length ∧ (b.mem m).valid = true ∧ (b.mem m).port = x.port then m
  else b.memberOn x.port

/-- Discard under a check and abort with PROTOCOL. -/
def Hw.protocol (h : Hw) (b : Bridle) (x : Taken) (check : Nat) : Hw :=
  (h.collDrop x check).bridleAbort b 3 x.hdr.seq (b.protoMember x) none

/-- Entries of the Bridle, member and recipe tables that the lookup of a frame reads with bad parity (R128, R164). (DEDUCED log entry 30.) -/
def Hw.collBad (h : Hw) (q : Nat) (b : Bridle) (d : VHdr) : List TblRef :=
  let l : List TblRef := [⟨.bridle, b.ix⟩, ⟨.member, b.memberBase + d.member⟩] ++ (if b.kind < 2 then [⟨.recipe, b.recipe⟩] else [])
  l.filter (h.tblBad q)

/-- A parity miss of a C-die's table: its record (R329). -/
def Hw.collMiss (h : Hw) (q : Nat) (t : TblRef) : Hw :=
  h.record { code := 0x0103, die := 4 + q, unit := tblUnit t.tbl, d0 := BitVec.ofNat 64 t.ix, cls := some (if h.tblGood t then 0 else 1) }

/-- Note that a member has sent a frame of the generation (R134). -/
def Hw.hear (h : Hw) (b : Bridle) (i : Nat) : Bridle × Hw :=
  if b.heard.contains i then (b, h)
  else
    let b := { b with heard := i :: b.heard }
    (b, h.setBridle b)

/-- Checks 1 to 4 of R139: the Bridle and who sent the frame. -/
def Hw.collEnter (h : Hw) (x : Taken) : Option (Bridle × Toward) × Hw :=
  let d := x.hdr
  match h.coll.bridles.find? fun b => b.group.toNat == d.opData.toNat / 2 ^ 48 && h.bridleIn (portDie x.port) b with
  | none => (none, h.collDrop x 1)
  | some b =>
    let bad := h.collBad (portDie x.port) b d
    if !bad.isEmpty then (none, (bad.foldl (fun h t => h.collMiss (portDie x.port) t) h).collDrop x 1)
    else
      let parent := b.parentEn && b.parentPort == x.port
      if d.gen ≠ b.gen then (none, h.collDrop x 1)
      else if b.state = .aborted then
        (none, (if d.opcode = 0x64 then h.count (4 + b.home) 0x106 0 1 else h).collDrop x 2)
      else if b.state = .pending ∧ ¬ (d.opcode = 0x65 ∧ parent = true) then (none, h.collDrop x 3)
      else if parent then (if d.member = b.parentMember then (some (b, .parent), h) else (none, h.protocol b x 4))
      else if d.member < b.members.length ∧ (b.mem d.member).valid = true ∧ (b.mem d.member).port = x.port then
        let (b, h) := h.hear b d.member
        (some (b, .member d.member), h)
      else (none, h.protocol b x 4)

/-- Checks 6 to 8 of R139: the position when the sequence is current and may be worked on. (DEDUCED log entry 30.) -/
def Hw.collWindow (h : Hw) (b : Bridle) (x : Taken) : Option Nat × Hw :=
  let s := x.hdr.seq
  let p := b.posOf s
  match b.classify s with
  | .late => (none, (if x.hdr.opcode = 0x63 then h.count (4 + b.home) 0x104 0 1 else h).collDrop x 6)
  | .early =>
    let h := h.collDrop x 7
    (none, if b.state = .draining then h else h.setBridle (b.setPos p { b.at p with early := true }))
  | .current =>
    if b.state = .draining ∧ (b.at p).state = .free then (none, h.collDrop x 8) else (some p, h)

/-! ### Contributions (R142, R169, R180, R185) -/

/-- Members whose contribution the context of a position holds. (DEDUCED log entry 30.) -/
def Pos.got (x : Pos) : List Nat := (x.ctx.filter fun c => !c.twin).flatMap (·.got)

/-- The contributors that a position still lacks. -/
def Bridle.missing (b : Bridle) (p : Nat) : List Nat :=
  (b.contributors (b.at p).expect).filter fun i => !(b.at p).got.contains i

/-- Contributors of sequence `s` on ports of quadrant `q`. -/
def Bridle.quadContributors (b : Bridle) (s : BitVec 32) (q : Nat) : List Nat :=
  (b.contributors s).filter fun i => portDie (b.mem i).port == q

/-- The virtual lane of member `m` in its quadrant (R180). -/
def Bridle.vlane (b : Bridle) (m : Nat) : Nat :=
  ((List.range m).filter fun i => portDie (b.mem i).port == portDie (b.mem m).port).length % max 1 (lanesPerQuad b.canon)

/-- The C-die that works on a context. -/
def QCtx.die (x : QCtx) : Nat := 4 + (if x.twin then Nat.xor x.quad 2 else x.quad)

/-- What a member contributes to one context. -/
structure Contribution where
  member : Nat
  vlane : Nat
  acc : List AccV
  payload : List Byte
deriving DecidableEq, Repr

/-- Integer saturations of the lane tree with which a die forms the partial it sends (R158, R189). -/
def Hw.partialSat (h : Hw) (b : Bridle) (r : Rcp) (x : QCtx) : Hw :=
  let sat := (x.partial r b.exact b.canon).2
  if !x.sent || x.quad == b.home || sat == 0 then h else h.count x.die 0x114 0 sat

/-- One C-die takes a contribution into its context; the lane's handshakes, saturations and order exposure are counted. -/
def Hw.ctxTake (h : Hw) (dis : W64) (b : Bridle) (r : Rcp) (x : QCtx) (y : Contribution) (full : Bool) : QCtx × Hw :=
  let x := { x with got := x.got ++ [y.member], sent := full, home := full && x.quad == b.home }
  if 2 ≤ b.kind then ({ x with carried := some y.payload }, h)
  else
    let h := match servingLane dis (x.die - 4) y.vlane with
      | some k => h.count x.die 0x118 k (contributionHandshakes b.exact (r.op == 6) b.chunkUnits)
      | none => h
    match r.path b.exact with
    | .vote => ({ x with digests := x.digests ++ [(y.member, stageDigest y.payload)] }, h)
    | path =>
      let (x, sat) := x.take r b.exact y.vlane y.acc
      let h := if sat = 0 then h else h.count x.die 0x114 0 sat
      let three := (x.taken.filter fun t => decide (3 ≤ t.2)).length
      let h := if path = .float ∧ (r.op = 0 ∨ r.op = 3) ∧ (aget y.vlane x.taken).getD 0 = 3 ∧ three = 1 then h.count x.die 0x115 0 1 else h
      (x, h.partialSat b r x)

def QCtx.new (q : Nat) (twin : Bool) : QCtx :=
  { quad := q, twin := twin, got := [], lanes := [], taken := [], digests := [], carried := none, sent := false, home := false }

/-- A contribution reaches its quadrant's context, and in twin mode also the twin die's. -/
def Hw.contribute (h : Hw) (dis : W64) (b : Bridle) (p m gate : Nat) (payload : List Byte) : Bridle × Hw :=
  let x := b.at p
  let a := portDie (b.mem m).port
  let r := h.rcp a b.recipe
  let acc := if 2 ≤ b.kind ∨ r.op = 6 then [] else (List.range b.elements).map (r.contribution b.exact gate payload)
  let y : Contribution := ⟨m, b.vlane m, acc, payload⟩
  let step (s : Pos × Hw) (twin : Bool) : Pos × Hw :=
    let (x, h) := s
    let c := (x.ctx.find? fun c => c.quad == a && c.twin == twin).getD (QCtx.new a twin)
    let full := (b.quadContributors x.expect a).all fun i => (m :: c.got).contains i
    let (c, h) := h.ctxTake dis b r c y full
    ({ x with ctx := (x.ctx.filter fun d => !(d.quad == a && d.twin == twin)) ++ [c] }, h)
  let (x, h) := (if b.twin && decide (b.kind < 2) then [false, true] else [false]).foldl step (x, h)
  let b := b.setPos p x
  (b, h.setBridle b)

/-- The position opens at its first contribution (R143). (DEDUCED log entry 30.) -/
def Hw.openPos (h : Hw) (b : Bridle) (p : Nat) (roff : BitVec 40) : Bridle × Hw :=
  let x := b.at p
  if x.state = .free then
    let now := h.slot b.home
    let b := b.setPos p { x with state := .opened, roff := roff, straggle := some now, opened := now }
    (b, h.setBridle b)
  else (b, h)

/-- Gap replay after a first transmission from an ORDERED member (check 12 of R139). -/
def Hw.gapReplay (h : Hw) (b : Bridle) (s : BitVec 32) (m : Nat) : Hw :=
  ((List.range b.win).filter fun p =>
    let x := b.at p
    let d := (s - x.expect).toNat
    x.state == .opened && decide (0 < d) && decide (d < 2 ^ 31) && b.contributes x.expect (b.mem m) && !x.got.contains m).foldl
    (fun h p => h.askChunk b.ix p m 1) h

/-- A damaged chunk: REPLAY_REQ with CAUSE 0 to its sender. -/
def Hw.chunkBad (h : Hw) (b : Bridle) (p m : Nat) : Hw := h.askChunk b.ix p m 0

/-- ECC-72 at one point after another, up to the first word that is not corrected. -/
def Hw.eccChain : List (Nat × Nat) → Hw → Bool × Hw
  | [], h => (false, h)
  | p :: l, h =>
    match h.eccPass p.1 p.2 2 false with
    | (true, h) => (true, h)
    | (false, h) => Hw.eccChain l h

/-- ECC-72 on the way of an arriving chunk: the bond and stage 1, and in twin mode the floor, the bond and stage 1 of the twin (R318). -/
def chunkPath (b : Bridle) (q : Nat) : List (Nat × Nat) :=
  let t := Nat.xor q 2
  [(6, q), (6, 4 + q), (9, 4 + q)] ++ if b.twin && decide (b.kind < 2) then [(5, t), (6, t), (6, 4 + t), (9, 4 + t)] else []

/-- A word that stays uncorrected in Ballast of C-die `q` while a chunk is accumulated: the chunk's own, which is asked for again, or one
of the accumulator of the context, which aborts the Bridle (R318, point 10). Which of the two an injected error meets is a free value.
(DESIGN CHOICE log entry 33.) -/
def Hw.accumEcc (h : Hw) (b : Bridle) (p m q : Nat) (s : BitVec 32) : Hw :=
  let (v, h) := h.draw
  if ((b.at p).ctx.any fun c => c.quad == q && !c.got.isEmpty) && v.getLsbD 0 then h.bridleAbort b 8 s 0x7ff none else h.chunkBad b p m

/-- Checks 5 to 12 of R139 on a CHUNK. -/
def Hw.chunkIn (h : Hw) (dis : W64) (x : Taken) (b : Bridle) (src : Toward) : Hw :=
  let d := x.hdr
  match src with
  | .parent => h.protocol b x 5
  | .member m =>
    if d.plen.toNat ≠ 256 * b.chunkUnits ∨ b.contributes d.seq (b.mem m) = false then h.protocol b x 5
    else
      match h.collWindow b x with
      | (none, h) => h
      | (some p, h) =>
        let y := b.at p
        if y.state = .up ∨ y.state = .hold ∨ y.got.contains m = true then h.collDrop x 9
        else if x.frame.fcsOk = false then (h.collDrop x 10).chunkBad b p m
        else if y.state ≠ .free ∧ y.roff ≠ d.roff then h.protocol b x 11
        else
          let q := portDie x.port
          match Hw.eccChain (chunkPath b q) h with
          | (true, h) => h.chunkBad b p m
          | (false, h) =>
            match h.eccPass 10 (4 + q) 2 false with
            | (true, h) => h.accumEcc b p m q d.seq
            | (false, h) =>
              let (b, h) := h.openPos b p d.roff
              let (b, h) := h.contribute dis b p m (d.opData.toNat % 65536) x.frame.payload
              if (b.mem m).ordered ∧ d.status.toNat % 2 = 0 then h.gapReplay b d.seq m else h

/-- The disabled-unit map of the reduction lanes: fused or fenced (R36, R37). -/
def Nv.disabled (n : Nv) : W64 := n.otp.laneFused ||| n.laneFence

/-- Take the oldest consumed frame of an opcode on port `p`, and run `f` on it after checks 1 to 4. -/
def Hw.collTake (h : Hw) (p op : Nat) (f : Hw → Taken → Bridle → Toward → Hw) : Hw :=
  match h.takeFrame p [op] with
  | (none, h) => h
  | (some x, h) =>
    let h := h.consumed x
    match h.collEnter x with
    | (none, h) => h
    | (some (b, src), h) => f h x b src

/-- CHUNK_RECEIVE (R139, R142, R143). -/
def execChunkReceive (p : Port) (s : State) : Host.Outcome State Fault Refusal :=
  .next (s.onHw fun h => h.collTake p 0x60 fun h x b src => h.chunkIn s.nv.disabled x b src)

/-! ### Results, acknowledgements and requests (R143) -/

/-- A position in HOLD whose receiving members have all acknowledged is released. (DEDUCED log entry 30.) -/
def Hw.settle (h : Hw) (ix p : Nat) : Hw :=
  match h.bridleAt ix with
  | none => h
  | some b =>
    let x := b.at p
    if b.state ≠ .aborted ∧ x.state = .hold ∧ ((b.receivers x.expect).all fun i => x.acked.contains i) = true then (h.releasePos b p).2
    else h

/-- A result enters HOLD and goes to every receiving member. (DEDUCED log entry 30.) -/
def Hw.holdResult (h : Hw) (b : Bridle) (p : Nat) (x : Pos) : Hw :=
  let x := { x with state := .hold, straggle := some (h.slot b.home), acked := [], ctx := [] }
  let b := b.setPos p x
  let h := h.setBridle b
  let h := (b.receivers x.expect).foldl (fun h i => h.sendResult b x.expect x false i) h
  h.settle b.ix p

/-- A RESULT from the parent with a right FCS. -/
def Hw.resultStore (h : Hw) (x : Taken) (b : Bridle) (p : Nat) : Hw :=
  let s := x.hdr.seq
  let y := b.at p
  let now := h.slot b.home
  match y.state with
  | .hold => h.sendAck b .parent s 0
  | .up => ((h.sendAck b .parent s 0).holdResult b p { y with data := x.frame.payload, roff := x.hdr.roff })
  | .opened => h.bridleAbort b 3 s (b.protoMember x) none
  | .free =>
    if (b.contributors s).isEmpty then
      (h.sendAck b .parent s 0).holdResult b p { y with data := x.frame.payload, roff := x.hdr.roff, opened := now }
    else h.bridleAbort b 3 s (b.protoMember x) none

/-- RESULT_RECEIVE (R139, R143). -/
def Hw.resultIn (h : Hw) (x : Taken) (b : Bridle) (src : Toward) : Hw :=
  match src with
  | .member _ => h.protocol b x 5
  | .parent =>
    match h.collWindow b x with
    | (none, h) => h
    | (some p, h) =>
      if x.frame.fcsOk then h.resultStore x b p
      else (h.collDrop x 10).reel b p 1024 0 fun h b => h.sendReplayReq b .parent x.hdr.seq 0 0

def execResultReceive (p : Port) (s : State) : Host.Outcome State Fault Refusal :=
  .next (s.onHw fun h => h.collTake p 0x61 Hw.resultIn)

/-- RESULT_ACK_RECEIVE (R143). -/
def Hw.ackIn (h : Hw) (x : Taken) (b : Bridle) (src : Toward) : Hw :=
  match h.collWindow b x with
  | (none, h) => h
  | (some p, h) =>
    let y := b.at p
    let dir := x.hdr.low30 / 2 ^ 29
    if !x.frame.fcsOk then h.collDrop x 10
    else match src with
      | .member m =>
        if dir = 0 ∧ y.state = .hold ∧ (b.receivers y.expect).contains m = true then
          (h.setBridle (b.setPos p { y with acked := if y.acked.contains m then y.acked else m :: y.acked })).settle b.ix p
        else h
      | .parent => if dir = 1 ∧ y.state = .up then (h.releasePos b p).2 else h

def execResultAckReceive (p : Port) (s : State) : Host.Outcome State Fault Refusal :=
  .next (s.onHw fun h => h.collTake p 0x62 Hw.ackIn)

/-- REPLAY_REQ_RECEIVE (R143, R145). (DEDUCED log entry 30.) -/
def Hw.replayReqIn (h : Hw) (x : Taken) (b : Bridle) (src : Toward) : Hw :=
  match h.collWindow b x with
  | (none, h) => h
  | (some p, h) =>
    let y := b.at p
    let dir := x.hdr.low30 / 2 ^ 29
    let cause := x.hdr.low30 / 2 ^ 27 % 4
    if !x.frame.fcsOk then h.collDrop x 10
    else match src with
      | .parent => if dir = 1 ∧ y.state = .up then h.resendPartial b.ix p cause else h.count (4 + b.home) 0x104 0 1
      | .member m =>
        if dir = 0 ∧ y.state = .hold ∧ (b.receivers y.expect).contains m = true then h.resendResult b.ix p m cause
        else h.count (4 + b.home) 0x104 0 1

def execReplayReqReceive (p : Port) (s : State) : Host.Outcome State Fault Refusal :=
  .next (s.onHw fun h => h.collTake p 0x63 Hw.replayReqIn)

/-- ABORT_RECEIVE (R151, R397, R398). (DEDUCED log entry 30.) -/
def Hw.abortIn (h : Hw) (x : Taken) (b : Bridle) (src : Toward) : Hw :=
  if !x.frame.fcsOk then h.collDrop x 10
  else
    h.bridleAbort b (x.hdr.low30 / 2 ^ 26) x.hdr.seq (match src with | .parent => 0x7ff | .member _ => b.memberOn x.port) (some x.port)

def execAbortReceive (p : Port) (s : State) : Host.Outcome State Fault Refusal :=
  .next (s.onHw fun h => h.collTake p 0x64 Hw.abortIn)

/-- The Bridle enters READY and tells every member (R134). -/
def Hw.bridleReady (h : Hw) (b : Bridle) : Hw :=
  let b := { b with state := .ready, since := h.slot b.home, repeats := 0 }
  b.ixs.foldl (fun h i => h.sendNotice b (.member i) 0) (h.setBridle b)

/-- BRIDLE_NOTICE_RECEIVE (R397). (DEDUCED log entry 30.) -/
def Hw.bridleNoticeIn (h : Hw) (x : Taken) (b : Bridle) (src : Toward) : Hw :=
  let st := x.hdr.low30 / 2 ^ 28
  if !x.frame.fcsOk then h.collDrop x 10
  else match src with
    | .parent =>
      if st = 0 ∧ b.state = .pending then h.bridleReady b
      else if st = 1 then h.bridleAbortLow b 2 0x7ff
      else h.collDrop x 13
    | .member m => if st = 2 then h.sendNotice b (.member m) 0 else h.collDrop x 13

def execBridleNoticeReceive (p : Port) (s : State) : Host.Outcome State Fault Refusal :=
  .next (s.onHw fun h => h.collTake p 0x65 Hw.bridleNoticeIn)

/-! ### Partials and the finish (R142, R143, R180, R185) -/

/-- The context on C-die `c` whose partial is on its way: its own quadrant's, then its twin's. -/
def Pos.onWay (x : Pos) (c : Nat) : Option QCtx := x.ctx.find? fun y => y.die == 4 + c && y.sent && !y.home

/-- QUADRANT_PARTIAL_ARRIVE (R142): over the floor path to the home die, or to its twin, while a group of it is up (R19, R33). -/
def Hw.partialArrive (h : Hw) (ix : Nat) (s : BitVec 32) (c : Nat) (damaged : Bool) : Hw :=
  match h.bridleAt ix with
  | none => h
  | some b =>
    let p := b.posOf s
    let x := b.at p
    if b.state = .aborted ∨ x.expect ≠ s ∨ x.state ≠ .opened then h
    else match x.onWay c with
      | none => h
      | some y =>
        let end_ := if y.twin then Nat.xor b.home 2 else b.home
        if !h.pathUp c end_ then h else
        let (bad, h) := Hw.eccChain [(6, 4 + c), (5, end_)] h
        if damaged || bad then h.bridleAbort b 8 s 0x7ff none
        else h.setBridle (b.setPos p { x with ctx := x.ctx.map fun z => if z = y then { z with home := true } else z })

def execQuadrantPartialArrive (b : BridleIx) (seq : BitVec 32) (c : Quad) (damaged : Bool) (s : State) :
    Host.Outcome State Fault Refusal := .next (s.onHw fun h => h.partialArrive b seq c damaged)

/-- Every contribution is in, and every quadrant partial is at the home die or its twin. -/
def Bridle.complete (b : Bridle) (p : Nat) : Bool :=
  (b.at p).state == .opened && (b.missing p).isEmpty && (b.at p).ctx.all fun c => c.sent && c.home

/-- The finished accumulators of the home die: quadrant partials in ascending order (R180), with the saturations of the home die's own
work. -/
def Pos.combined (x : Pos) (r : Rcp) (b : Bridle) : List AccV × Nat :=
  let z := (List.range 4).foldl (fun (acc : Partial) q =>
    match x.ctx.find? fun c => c.quad == q && !c.twin with
    | some c =>
      let y := c.partial r b.exact b.canon
      Partial.join r b.exact acc (y.1, if q = b.home then y.2 else 0)
    | none => acc) (none, 0)
  (z.1.getD [], z.2)

/-- What the home die puts out, with the vote behind it. -/
structure Output where
  bytes : List Byte
  tally : Tally
  vote : Option Vote
deriving DecidableEq, Repr

/-- Stages 6 to 8 at the home die. -/
def Hw.finishOutput (h : Hw) (b : Bridle) (p : Nat) : Output × Hw :=
  let x := b.at p
  let r := h.rcp b.home b.recipe
  if 2 ≤ b.kind then (⟨((x.ctx.filterMap (·.carried)).headD []), Tally.zero, none⟩, h)
  else if r.op = 6 then
    let all := x.ctx.flatMap (·.digests)
    let v := voteOf r.quorum (b.ixs.filterMap fun i => (aget i all).map fun d => (i, d))
    (⟨v.report, Tally.zero, some v⟩, h)
  else
    let (l, sat) := x.combined r b
    let (out, t) := r.output b.exact (!b.parentEn) b.group.toNat x.expect.toNat l
    (⟨out, { t with sat := t.sat + sat }, none⟩, h)

/-- The counts of R189 and the handshakes of R157 for an output on C-die `c`. -/
def Hw.finishCount (h : Hw) (dis : W64) (b : Bridle) (c : Nat) (o : Output) : Hw :=
  let n (h : Hw) (ev k : Nat) : Hw := if k = 0 then h else h.count (4 + c) ev 0 k
  let h := n (n (n (n (n h 0x110 o.tally.nan) 0x111 o.tally.ovf) 0x112 o.tally.mxNan) 0x113 o.tally.nanInt) 0x114 o.tally.sat
  let r := h.rcp b.home b.recipe
  match servingLane dis c 0 with
  | some k =>
    if 2 ≤ b.kind then h
    else h.count (4 + c) 0x118 k
      (finishHandshakes b.exact (if b.parentEn then r.upFmt else r.outFmt) b.elements o.bytes.length)
  | none => h

/-- The last step of a sequence at the home die: deliver, or send up (R143). -/
def Hw.finishSend (h : Hw) (b : Bridle) (p : Nat) (out : List Byte) : Hw :=
  let x := { b.at p with data := out, ctx := [] }
  let s := x.expect
  let none_ := (b.contributors s).filter fun i => !(b.receivers s).contains i
  if b.parentEn then
    let x := { x with state := .up, straggle := none, ctx := (b.at p).ctx }
    let b := b.setPos p x
    let h := (h.setBridle b).sendChunk b s x false
    none_.foldl (fun h i => h.sendAck b (.member i) s 1) h
  else
    let h := none_.foldl (fun h i => h.sendAck b (.member i) s 1) h
    h.holdResult b p x

/-- VOTE_ODD and its count (R188, R189). -/
def Hw.voteReport (h : Hw) (b : Bridle) (s : BitVec 32) (v : Option Vote) : Hw :=
  match v with
  | none => h
  | some v =>
    if v.status = 0 then h
    else (h.count (4 + b.home) 0x116 v.status 1).bridleRec b 0x0302 v.status s v.contrib v.agree (v.odd.take 8)

/-- REDUCTION_FINISH (R143, R185, R187). `wrong` is what a faulty lane of the home die, or with `true` of its twin, puts out instead
of the right output: nothing but the comparison of R185 sees it (R148). (DESIGN CHOICE log entry 33.) -/
def Hw.reductionFinish (h : Hw) (dis : W64) (ix : Nat) (s : BitVec 32) (wrong : Option (Bool × List Byte)) : Hw :=
  match h.bridleAt ix with
  | none => h
  | some b =>
    let p := b.posOf s
    if b.state = .aborted ∨ (b.at p).expect ≠ s ∨ b.complete p = false then h
    else
      match h.ballastRead b p with
      | (false, h) => h
      | (true, h) =>
        let (o, h) := h.finishOutput b p
        let h := h.finishCount dis b b.home o
        let twin := b.twin && decide (b.kind < 2)
        let h := if twin then h.finishCount dis b (Nat.xor b.home 2) o else h
        let mine := match wrong with | some (false, l) => l | _ => o.bytes
        let other := match wrong with | some (true, l) => l | _ => o.bytes
        if twin = true ∧ stageDigest mine ≠ stageDigest other then
          let h := { h with err := { h.err with twinSweep := h.err.twinSweep ++ [b.home, Nat.xor b.home 2] } }
          (h.count (4 + b.home) 0x117 0 1).bridleAbort b 5 s 0x7ff none
        else (h.voteReport b s o.vote).finishSend b p mine

def execReductionFinish (b : BridleIx) (seq : BitVec 32) (wrong : Option (Bool × List Byte)) (s : State) :
    Host.Outcome State Fault Refusal := .next (s.onHw fun h => h.reductionFinish s.nv.disabled b seq wrong)

/-! ### Timers (R134, R149) -/

/-- The slot count of a timer of `us` µs started at `t` has come. -/
def Hw.due (h : Hw) (q t us : Nat) : Bool := decide (t + slotsUs * us ≤ h.slot q)

/-- A STRAGGLER record that names missing members (R149). -/
def Hw.stragglerRec (h : Hw) (b : Bridle) (s : BitVec 32) (l : List Nat) : Hw :=
  (h.count (4 + b.home) 0x107 0 1).bridleRec b 0x0301 0 s l.length 0 (l.take 8)

/-- STRAGGLER_TIMER_EXPIRE (R143). -/
def Hw.straggler (h : Hw) (ix p : Nat) : Hw :=
  match h.bridleAt ix with
  | none => h
  | some b =>
    let x := b.at p
    match x.straggle with
    | none => h
    | some t =>
      if b.state = .aborted ∨ h.due b.home t b.straggleUs = false ∨ b.win ≤ p then h
      else
        let b := b.setPos p { x with straggle := some (h.slot b.home) }
        let h := h.setBridle b
        match x.state with
        | .opened =>
          let l := b.missing p
          l.foldl (fun h i => h.askChunk ix p i 2) (h.stragglerRec b x.expect l)
        | .hold => ((b.receivers x.expect).filter fun i => !x.acked.contains i).foldl (fun h i => h.resendResult ix p i 2) h
        | _ => h

def execStragglerTimerExpire (b : BridleIx) (pos : Fin 256) (s : State) : Host.Outcome State Fault Refusal :=
  .next (s.onHw fun h => h.straggler b pos)

/-- The member that TIMEOUT names (R398). -/
def Bridle.late (b : Bridle) (p : Nat) : Nat :=
  let x := b.at p
  match x.state with
  | .opened => (b.missing p).headD 0x7ff
  | .hold => ((b.receivers x.expect).filter fun i => !x.acked.contains i).headD 0x7ff
  | _ => 0x7ff

/-- ABORT_TIMER_EXPIRE (R149, R150). -/
def Hw.abortTimer (h : Hw) (ix p : Nat) : Hw :=
  match h.bridleAt ix with
  | none => h
  | some b =>
    let x := b.at p
    if b.state = .aborted ∨ x.state = .free ∨ h.due b.home x.opened b.abortUs = false ∨ b.win ≤ p then h
    else h.bridleAbort b 1 x.expect (b.late p) none

def execAbortTimerExpire (b : BridleIx) (pos : Fin 256) (s : State) : Host.Outcome State Fault Refusal :=
  .next (s.onHw fun h => h.abortTimer b pos)

/-- BRIDLE_PENDING_TIMER (R134). -/
def Hw.pendingTimer (h : Hw) (ix : Nat) : Hw :=
  match h.bridleAt ix with
  | none => h
  | some b =>
    if b.state ≠ .pending ∨ h.due b.home b.since b.straggleUs = false then h
    else (h.setBridle { b with since := h.slot b.home }).sendNotice b .parent 2

def execBridlePendingTimer (b : BridleIx) (s : State) : Host.Outcome State Fault Refusal := .next (s.onHw fun h => h.pendingTimer b)

/-- READY_REPEAT_TIMER (R134). -/
def Hw.readyRepeat (h : Hw) (ix : Nat) : Hw :=
  match h.bridleAt ix with
  | none => h
  | some b =>
    let silent := b.ixs.filter fun i => !b.heard.contains i
    if b.state ≠ .ready ∨ 3 ≤ b.repeats ∨ silent.isEmpty = true ∨ h.due b.home b.since ((b.repeats + 1) * b.straggleUs) = false then h
    else
      let h := h.setBridle { b with repeats := b.repeats + 1 }
      let h := silent.foldl (fun h i => h.sendNotice b (.member i) 0) h
      if b.repeats = 2 then h.stragglerRec b b.firstSeq silent else h

def execReadyRepeatTimer (b : BridleIx) (s : State) : Host.Outcome State Fault Refusal := .next (s.onHw fun h => h.readyRepeat b)

/-! ### Lanes and quadrants that Bridles depend on (R150, R181) -/

/-- D of R132. (DEDUCED log entry 61.) -/
def Bridle.dies (b : Bridle) : List Nat :=
  (List.range 4).filter fun c => c == b.home || (decide (b.kind < 2) && b.members.any fun m => portDie m.port == c)

/-- n_c of R132; TWIN is ignored for KIND 2 and 3 (R129). -/
def Bridle.copiesOn (b : Bridle) (c : Nat) : Nat :=
  (if b.dies.contains c then 1 else 0) + (if b.twin && decide (b.kind < 2) && b.dies.contains (Nat.xor c 2) then 1 else 0)

/-- C-die `c` still holds work of this context that virtual lanes of `lane` did: before its partial has left, and at the home die or
its twin until the position is released (R142, R335). -/
def QCtx.working (x : QCtx) (b : Bridle) (c : Nat) (lane : Nat → Bool) : Bool :=
  x.die == 4 + c && (!x.sent || x.quad == b.home) && decide (b.kind < 2) && x.got.any fun m => lane (b.vlane m)

/-- The sequences of the positions in OPEN or UP that hold such work. -/
def Bridle.workSeqs (b : Bridle) (c : Nat) (lane : Nat → Bool) : List (BitVec 32) :=
  (b.pos.filter fun p => (p.state == .opened || p.state == .up) && p.ctx.any fun x => x.working b c lane).map (·.expect)

/-- The lowest of some sequences in the window; SEQ_LOW where there is none (R151). -/
def Bridle.lowest (b : Bridle) (l : List (BitVec 32)) : BitVec 32 :=
  l.foldl (fun m s => if (s - b.seqLow).toNat < (m - b.seqLow).toNat then s else m) (l.headD b.seqLow)

/-- Every active Bridle that works on C-die `c` aborts with LANE: it has lost its last lane (R181). -/
def Hw.bridlesLoseLanes (h : Hw) (c : Nat) : Hw :=
  h.coll.bridles.foldl (fun h b =>
    if decide (0 < b.copiesOn c) && b.state != .aborted then h.bridleAbort b 9 (b.lowest (b.workSeqs c fun _ => true)) 0x7ff none else h) h

/-- Every Bridle with a position that holds work of physical lane `k` aborts with LANE (R335). -/
def Hw.bridlesLoseLane (h : Hw) (dis : W64) (k : Nat) : Hw :=
  h.coll.bridles.foldl (fun h b =>
    let l := b.workSeqs (k / 16) fun v => servingLane dis (k / 16) v == some k
    if l.isEmpty || b.state == .aborted then h else h.bridleAbort b 9 (b.lowest l) 0x7ff none) h

/-- Every active Bridle that depends on quadrant `q` aborts with QUADRANT (R150). (DESIGN CHOICE log entry 14.) -/
def Hw.bridlesLoseQuad (h : Hw) (q : Nat) : Hw :=
  h.coll.bridles.foldl (fun h b =>
    if b.state != .aborted && (b.dies.contains q || (b.members.any fun m => portDie m.port == q) ||
        (b.parentEn && portDie b.parentPort == q) || decide (0 < b.slots.get q)) then h.bridleAbortLow b 10 0x7ff else h) h

end Sys2Proof.Machine
end

