-- ==== Sys2Proof/Machine/Ed448.lean ====
section
/-! DEFINITION. Ed448 (R291, R344): signing, verification and the public key, as RFC 8032 gives them. (PRESUMED log entry 5.) -/

namespace Sys2Proof.Machine.Ed448

/-- The prime of the field. -/
def prime : Nat := 2 ^ 448 - 2 ^ 224 - 1
/-- The order of the base point. -/
def order : Nat := 2 ^ 446 - 13818066809895115352007386748515426880336692474882178609894547503885

def mul (a b : Nat) : Nat := a * b % prime
def add (a b : Nat) : Nat := (a + b) % prime
def sub (a b : Nat) : Nat := (a + prime - b % prime) % prime

/-- `b` to the power of the low `n` bits of `e`, highest bit first. -/
def pow (b e : Nat) : Nat → Nat
  | 0 => 1
  | n + 1 =>
    let r := pow b (e / 2) n
    let s := mul r r
    if e % 2 = 1 then mul s b else s

/-- The curve constant d = −39081. -/
def curveD : Nat := prime - 39081

/-- A point of x² + y² = 1 + d x² y² as (X : Y : Z). -/
structure Pt where
  x : Nat
  y : Nat
  z : Nat
deriving DecidableEq, Repr

def Pt.zero : Pt := ⟨0, 1, 1⟩
def Pt.base : Pt :=
  ⟨224580040295924300187604334099896036246789641632564134246125461686950415467406032909029192869357953282578032075146446173674602635247710,
   298819210078481492676017930443930673437544040154080242095928241372331506189835876003536878655418784733982303233503462500531545062832660, 1⟩

/-- The sum of two points; the law is complete, so it doubles too. -/
def Pt.add (p q : Pt) : Pt :=
  let zz := mul p.z q.z
  let xx := mul p.x q.x
  let yy := mul p.y q.y
  let sq := mul zz zz
  let e := mul curveD (mul xx yy)
  let f := sub sq e
  let g := Ed448.add sq e
  let cross := sub (mul (Ed448.add p.x p.y) (Ed448.add q.x q.y)) (Ed448.add xx yy)
  ⟨mul zz (mul f cross), mul zz (mul g (sub yy xx)), mul f g⟩

/-- `k` times a point, over the low `n` bits of `k`. -/
def Pt.times (p : Pt) (k : Nat) : Nat → Pt
  | 0 => .zero
  | n + 1 =>
    let h := p.times (k / 2) n
    let d := h.add h
    if k % 2 = 1 then d.add p else d

/-- A point as 57 bytes: y, with the sign of x in the top bit. -/
def Pt.bytes (p : Pt) : List Byte :=
  let i := pow p.z (prime - 2) 448
  bytesLE 57 (mul p.y i + mul p.x i % 2 * 2 ^ 455)

/-- The point that 57 bytes stand for, if they stand for one. -/
def Pt.ofBytes (l : List Byte) : Option Pt :=
  let v := natLE (l.take 57)
  let y := v % 2 ^ 455
  let sign := v / 2 ^ 455
  let yy := mul y y
  let num := sub yy 1
  let den := sub (mul curveD yy) 1
  let num3 := mul num (mul num num)
  let x := mul (mul num3 den) (pow (mul (mul num3 (mul num num)) (mul den (mul den den))) ((prime - 3) / 4) 448)
  if l.length ≠ 57 ∨ prime ≤ y ∨ mul den (mul x x) ≠ num ∨ (x = 0 ∧ sign = 1) then none
  else some ⟨if x % 2 = sign then x else prime - x, y, 1⟩

/-- Two points are the same. -/
def Pt.same (p q : Pt) : Bool := mul p.x q.z == mul q.x p.z && mul p.y q.z == mul q.y p.z

/-- The prefix of every hash: not prehashed, and the context. -/
def dom (ctx : List Byte) : List Byte := "SigEd448".toList.map (fun c => BitVec.ofNat 8 c.toNat) ++ [0] ++ bytesLE 1 ctx.length ++ ctx

/-- A hash as a scalar. -/
def scalar (l : List Byte) : Nat := natLE (shake256 114 l) % order

/-- The secret scalar of a private key, and its second half. -/
def expand (key : List Byte) : Nat × List Byte :=
  let h := shake256 114 key
  (natLE (h.take 56) / 4 * 4 % 2 ^ 447 + 2 ^ 447, h.drop 57)

end Sys2Proof.Machine.Ed448

namespace Sys2Proof.Machine

/-- The public key of a private key: 57 bytes. (PRESUMED log entry 5.) -/
def ed448Pub (key : List Byte) : List Byte := (Ed448.Pt.base.times (Ed448.expand key).1 448).bytes

/-- Signing: private key, context string, message; 114 bytes. (PRESUMED log entry 5.) -/
def ed448Sign (key ctx msg : List Byte) : List Byte :=
  let (s, pre) := Ed448.expand key
  let r := Ed448.scalar (Ed448.dom ctx ++ pre ++ msg)
  let big := (Ed448.Pt.base.times r 446).bytes
  let k := Ed448.scalar (Ed448.dom ctx ++ big ++ ed448Pub key ++ msg)
  big ++ bytesLE 57 ((r + k * s) % Ed448.order)

/-- Verification: public key, context string, message, signature. (PRESUMED log entry 5.) -/
def ed448Verify (pub ctx msg sig : List Byte) : Bool :=
  let s := natLE (sig.drop 57)
  match Ed448.Pt.ofBytes pub, Ed448.Pt.ofBytes (sig.take 57) with
  | some a, some r =>
    let k := Ed448.scalar (Ed448.dom ctx ++ sig.take 57 ++ pub ++ msg)
    let left := Ed448.Pt.base.times s 446
    let right := r.add (a.times k 446)
    sig.length == 114 && decide (s < Ed448.order) && (left.times 4 3).same (right.times 4 3)
  | _, _ => false

end Sys2Proof.Machine
end

