-- ==== Sys2Proof/Machine/TetherSend.lean ====
section
/-! DEFINITION. The life-cycle state and the identity (R347 to R350), the Tether messages that the chip sends (R289 to R297, R300), and the
completion of a command to whoever gave it (R262, R297). -/

namespace Sys2Proof.Machine

/-! ### Life cycle and identity -/

/-- LC_STATE (R349): 0 BLANK, 1 PROVISIONED, 2 OPERATIONAL, 3 RETURN. -/
def Nv.lcState (n : Nv) : Nat := n.otp.lc.start
/-- TRANS_PENDING (R349). -/
def Nv.transPending (n : Nv) : Bool := n.otp.lc.start != n.otp.lc.done
/-- The states in which the chip serves Tether, attests and takes owner-signed commands (R350). -/
def Nv.inService (n : Nv) : Bool := n.lcState == 1 || n.lcState == 2
/-- The identity private key (R347, R353). -/
def Nv.identity (n : Nv) : Option (List Byte) :=
  if !n.inService then none
  else if n.otp.seed0Valid then some n.otp.seed0
  else if n.otp.seed1Valid then some n.otp.seed1 else none
/-- Bytes of a context string. -/
def ctxBytes (s : String) : List Byte := s.toList.map fun c => BitVec.ofNat 8 c.toNat
/-- A signature under the identity key; absent keys give no bytes. -/
def Nv.sign (n : Nv) (context : String) (m : List Byte) : List Byte :=
  match n.identity with
  | some k => slice (ed448Sign k (ctxBytes context) m) 0 114
  | none => []

/-! ### Messages of the chip's own (R290, R291) -/

/-- A Tether payload under the chip's own session with the next T_SEQ. -/
def Hw.tetherBytes (h : Hw) (nv : Nv) (typ : Nat) (body : List Byte) : List Byte × Hw :=
  let m := bytesBE 1 1 ++ bytesBE 1 typ ++ bytesBE 1 0xff ++ bytesBE 1 0 ++ bytesBE 2 body.length ++ bytesBE 1 0 ++ bytesBE 1 1 ++
    bytesBE 8 (h.reg .tetherSession).toNat ++ bytesBE 8 h.mgt.txSeq ++ bytesBE 3 h.srcNode.toNat ++ bytesBE 1 0 ++ bytesBE 2 0 ++
    bytesBE 2 0 ++ body
  (m ++ nv.sign "Oslux Tether" m, { h with mgt := { h.mgt with txSeq := h.mgt.txSeq + 1 } })

/-- T_SEQ of a payload, low half, as SEQ carries it (R289). -/
def tetherSeq (b : List Byte) : BitVec 32 := BitVec.ofNat 32 (getBE b 20 4)

/-- In-band to a node, from the lowest P-die that serves (R289). (DEDUCED log entry 35.) -/
def Hw.tetherNode (h : Hw) (dst : Node) (b : List Byte) : Hw :=
  match h.epochDie with
  | some q => h.originate q { VHdr.make 0 0x78 dst h.node with seq := tetherSeq b } b
  | none => h

/-- Link-local on a port. -/
def Hw.tetherPort (h : Hw) (p : Nat) (b : List Byte) : Hw :=
  h.originateOn (portDie p) p { VHdr.make 0 0x78 linkLocal h.srcNode with seq := tetherSeq b } b false

/-- Management Ethernet port `e` carries Tether. -/
def Hw.ethUp (h : Hw) (e : Nat) : Bool := h.bit (.mgmtEthCfg e) Fld.mgmtEthCfg_linkUp && h.bit .mgmtCfg Fld.mgmtCfg_udpEn

/-- DEDUCED log entry 35. -/
def Hw.tetherUdp (h : Hw) (b : List Byte) : Hw :=
  [0, 1].foldl (fun h e => if h.ethUp e then h.emit (.tetherEth e b) else h) h

/-- In-band Vaeth service (R289). -/
def Hw.inbandUp (h : Hw) : Bool := h.bit .mgmtCfg Fld.mgmtCfg_tetherEn && h.nodeValid

/-- Send a payload on every carrier toward the fault manager that is up (R289, R299). (DEDUCED log entry 35.) -/
def Hw.toFm (h : Hw) (b : List Byte) : Hw :=
  let h := if h.inbandUp then h.tetherNode ((h.reg .mgmtCfg).setWidth 24) b else h
  h.tetherUdp b

/-- A message of the chip's own to the fault manager; Gliuk sends it. (DEDUCED log entry 35.) -/
def Hw.tetherFm (h : Hw) (nv : Nv) (typ : Nat) (body : List Byte) : Hw :=
  if !h.gliuk || !nv.inService then h
  else
    let (b, h) := h.tetherBytes nv typ body
    h.toFm b

/-- The 16-byte completion of a CMD_RESP, then its data (R297). (DEDUCED log entry 35.) -/
def cmdResp (tag status result : Nat) (data : List Byte) : List Byte :=
  bytesLE 4 tag ++ bytesLE 2 0 ++ bytesLE 1 status ++ [0] ++ bytesLE 8 result ++ data

/-- A command ends: a completion entry for the host, or a CMD_RESP. -/
def Hw.cmdDone (h : Hw) (nv : Nv) (who : CmdFrom) (status result : Nat) (data : List Byte) : Hw :=
  match who with
  | .host ix =>
    match h.hst.started.find? fun d => d.ix == ix with
    | some d => h.finish d status result
    | none => h
  | .tether t => h.tetherFm nv 0x11 (cmdResp (getLE t.body 4 4) status result data)

/-! ### Announce and heartbeat (R296, R300) -/

/-- The body of ANNOUNCE. -/
def Hw.announceBody (h : Hw) (nv : Nv) (reason : Nat) : List Byte :=
  bytesBE 2 (h.fld .hubId Fld.hubId_part) ++ bytesBE 1 nv.otp.stepping.toNat ++ bytesBE 1 nv.lcState ++
    bytesBE 4 (h.fld .hubId Fld.hubId_gliukVer) ++ bytesBE 3 h.node.toNat ++ bytesBE 1 (if h.nodeValid then 1 else 0) ++
    bytesBE 2 (h.fld .mgmtStatus Fld.mgmtStatus_restarts) ++ bytesBE 1 reason ++ [0] ++ bytesBE 8 nv.otp.serial.toNat

/-- ANNOUNCE to a sender: in-band to its node, or toward the fault manager when it has none. -/
def Hw.announce (h : Hw) (nv : Nv) (reason : Nat) (dst : Node) : Hw :=
  if !h.gliuk || !nv.inService then h
  else
    let (b, h) := h.tetherBytes nv 0x02 (h.announceBody nv reason)
    if dst = linkLocal then h.toFm b
    else
      let h := if h.inbandUp then h.tetherNode dst b else h
      h.tetherUdp b

/-- HEARTBEAT with STATE and RETURN_MS (R300). The bit numbers are those of its first 64 bits. (DEDUCED log entry 35.) -/
def Hw.heartbeat (h : Hw) (nv : Nv) (state returnMs : Nat) : Hw :=
  h.tetherFm nv 0x60 (bytesBE 8 (state % 256 + returnMs % 65536 * 2 ^ 8 + h.err.quadOver.toList.sum % 2 ^ 32 * 2 ^ 32))

end Sys2Proof.Machine
end

