-- ==== Sys2Proof/Machine/Commands.lean ====
section
/-! DEFINITION. The table commands, as the host and the fault manager give them: exception and multicast entries, recipes, Bridles
(R68, R69, R85, R131 to R134, R153, R163 to R167, R181, R264 to R266, R297). -/

namespace Sys2Proof.Machine

/-- How a command ends: STATUS, RESULT, and the bytes it returns. -/
structure CmdEnd where
  status : Nat
  result : Nat
  data : List Byte
deriving DecidableEq, Repr

def CmdEnd.ok (result : Nat) : CmdEnd := ⟨0, result, []⟩
def CmdEnd.fail (status : Nat) : CmdEnd := ⟨status, 0, []⟩

/-- A replica that the hub reaches, for reads (R256). -/
def Hw.readDie (h : Hw) : Nat := ((List.range 4).find? fun q => !h.err.hubLost.get q && !h.qdBusy q).getD 0
def Hw.someLost (h : Hw) : Bool := h.err.hubLost.toList.any id
/-- A command that reached only some replicas completes with UNREACHABLE (R256). -/
def Hw.reached (h : Hw) (e : CmdEnd) : CmdEnd := if e.status = 0 ∧ h.someLost = true then { e with status := 0x0a } else e
/-- Change the replicas that the hub reaches. -/
def Hw.mapReach {α : Type} (h : Hw) (f : α → α) (x : Four α) : Four α :=
  (List.range 4).foldl (fun y q => if h.err.hubLost.get q then y else y.set q (f (y.get q))) x

/-! ### Exception entries -/

/-- An entry in the layout of R68. -/
def ExcEnt.word (e : ExcEnt) : W64 :=
  withParity (BitVec.ofNat 64 (e.node.toNat + 2 ^ 24 + (if e.static then 2 ^ 25 else 0) + e.kind % 4 * 2 ^ 26 +
    e.target % 65536 * 2 ^ 32 + (if e.hit then 2 ^ 48 else 0)))

/-- The static entry that a word writes, or none where a field is out of range. -/
def excOfWord (w : W64) : Option ExcEnt :=
  let v := w.toNat
  let kind := bits v 26 2
  let target := bits v 32 16
  if bits v 24 1 = 1 ∧ (kind = 0 → target < 1024) ∧ (kind = 1 → target < 4096) then
    some { node := BitVec.ofNat 24 v, static := true, kind := kind, target := target, hit := false, ovf := false, lastHit := 0, moved := false }
  else none

/-- The exception entry of a node has been written anew in every replica that the hub reaches: its parity is good there (R70). -/
def Hw.excGoodReach (h : Hw) (node : Node) : Hw :=
  { h with fwd := { h.fwd with bad := h.fwd.bad.filter fun x => x.1 != ⟨.exc, node.toNat⟩ || h.err.hubLost.get x.2 } }

/-- The entry that a command finds; one that is bad in the replica it reads is taken from a good one (R70). -/
def Hw.excLook (h : Hw) (node : Node) : Option ExcEnt := (h.excForInsert h.readDie node).1

/-- EXC_WRITE (R69, R265). -/
def Hw.cmdExcWrite (h : Hw) (w : W64) (noReplace : Bool) : CmdEnd × Hw :=
  match excOfWord w with
  | none => (.fail 0x02, h)
  | some e =>
    match h.excLook e.node with
    | some old =>
      if noReplace ∧ old.static = true then (.fail 0x12, h)
      else
        let put (l : List ExcEnt) : List ExcEnt := l.map fun x => if x.node = e.node then { e with ovf := x.ovf, moved := x.moved } else x
        let h := (Hw.excGoodReach { h with fwd := { h.fwd with exc := h.mapReach put h.fwd.exc } } e.node)
        (h.reached (.ok 1), h.reroute [nodeKey e.node])
    | none =>
      match h.excPlace e.node with
      | none => (.fail 0x10, h)
      | some o =>
        let put (l : List ExcEnt) : List ExcEnt := (l.filter fun x => x.node != e.node) ++ [h.excNew e o]
        let h := Hw.excGoodReach { h with fwd := { h.fwd with exc := h.mapReach put h.fwd.exc } } e.node
        (h.reached (.ok 0), h.reroute [nodeKey e.node])

/-- EXC_REMOVE (R265). -/
def Hw.cmdExcRemove (h : Hw) (node : Node) : CmdEnd × Hw :=
  match h.excLook node with
  | none => (.fail 0x11, h)
  | some e =>
    let cut (l : List ExcEnt) : List ExcEnt := l.filter fun x => x.node != node
    let h := Hw.excGoodReach { h with fwd := { h.fwd with exc := h.mapReach cut h.fwd.exc } } node
    (h.reached (.ok e.word.toNat), h.reroute [nodeKey node])

/-- EXC_READ. -/
def Hw.cmdExcRead (h : Hw) (node : Node) : CmdEnd :=
  match h.excLook node with
  | none => .fail 0x11
  | some e => h.reached (.ok e.word.toNat)

/-! ### Multicast groups -/

/-- The ports of a 128-byte mask. -/
def maskPorts (m : List Byte) : List Nat := (List.range 1024).filter fun n => ((m.getD (n / 8) 0).toNat / 2 ^ (n % 8)) % 2 == 1
/-- The mask of a port list. -/
def portsMask (l : List Nat) : List Byte := bytesLE 128 ((l.map fun n => 2 ^ n).sum)

/-- MCAST_WRITE: the whole mask of a group (R85, R265). -/
def Hw.cmdMcastWrite (h : Hw) (g : Nat) (mask : List Byte) : CmdEnd × Hw :=
  let l := maskPorts mask
  let put (t : List (Nat × List Nat)) : List (Nat × List Nat) := if l.isEmpty then adel g t else aput g l t
  let h := { h with fwd := { h.fwd with mcast := h.mapReach put h.fwd.mcast,
                                        bad := h.fwd.bad.filter fun x => !(x.1 == ⟨.mcast, g⟩ && !h.err.hubLost.get x.2) } }
  (h.reached (.ok 0), h)

/-- MCAST_READ. -/
def Hw.cmdMcastRead (h : Hw) (g : Nat) : CmdEnd := h.reached ⟨0, 0, portsMask ((aget g (h.fwd.mcast.get h.readDie)).getD [])⟩

/-! ### Recipes (R164 to R167) -/

/-- An active Bridle names the slot. -/
def Hw.recipeBusy (h : Hw) (slot : Nat) : Bool := h.coll.bridles.any fun b => b.recipe == slot

/-- Write the four words of a slot in every replica that the hub reaches. -/
def Hw.setRecipe (h : Hw) (slot : Nat) (w : List W64) : Hw :=
  (List.range 4).foldl (fun h c =>
    if h.err.hubLost.get c then h
    else
      let h := (List.range 4).foldl (fun h i => h.setReg (.recipeW c (4 * slot + i)) (withParity (w.getD i 0))) h
      { h with fwd := { h.fwd with bad := h.fwd.bad.filter fun x => !(x.1 == ⟨.recipe, slot⟩ && x.2 == c) } }) h

/-- RECIPE_LOAD: words 0 to 3 of R164, VALID taken as 1. (DEDUCED log entry 32, DEDUCED log entry 61.) -/
def Hw.cmdRecipeLoad (h : Hw) (slot : Nat) (w : List W64) : CmdEnd × Hw :=
  let w0 := (w.getD 0 0 &&& 0x1ff) ||| 1
  let w1 := w.getD 1 0 &&& 0xffffffff
  let w2 := w.getD 2 0 &&& 0x07ff07ff
  let w3 := w.getD 3 0 &&& 0xffffffff
  if !(Rcp.ofWords w0.toNat w1.toNat w2.toNat w3.toNat).allowed then (.fail 0x02, h)
  else if h.recipeBusy slot then (.fail 0x27, h)
  else
    let h := h.setRecipe slot [w0, w1, w2, w3]
    (h.reached (.ok 0), h)

/-- RECIPE_CLEAR. -/
def Hw.cmdRecipeClear (h : Hw) (slot : Nat) : CmdEnd × Hw :=
  if h.recipeBusy slot then (.fail 0x27, h)
  else
    let z := (List.range 4).filter fun c => !h.err.hubLost.get c
    let h := z.foldl (fun h c => (List.range 4).foldl (fun h i => h.setReg (.recipeW c (4 * slot + i)) 0) h) h
    (h.reached (.ok 0), h)

/-! ### Bridles (R128 to R134) -/

/-- What BRIDLE_CREATE asks for: words 0 to 4 and the member list. -/
structure BridleAsk where
  w : List Nat
  members : List (Nat × Nat)
deriving DecidableEq, Repr

/-- Bits of word `i`. -/
def BridleAsk.f (a : BridleAsk) (i lo w : Nat) : Nat := bits (a.w.getD i 0) lo w

def BridleAsk.kind (a : BridleAsk) : Nat := a.f 0 28 2
def BridleAsk.exact (a : BridleAsk) : Bool := a.f 0 30 1 == 1
def BridleAsk.twin (a : BridleAsk) : Bool := a.f 0 31 1 == 1
def BridleAsk.winLog2 (a : BridleAsk) : Nat := a.f 0 32 4
def BridleAsk.home (a : BridleAsk) : Nat := a.f 0 36 2
/-- 0 selects the default of 56. -/
def BridleAsk.canon (a : BridleAsk) : Nat := if a.f 0 40 7 = 0 then 56 else a.f 0 40 7
def BridleAsk.recipe (a : BridleAsk) : Nat := a.f 0 48 8
def BridleAsk.parentPort (a : BridleAsk) : Nat := a.f 1 0 10
def BridleAsk.parentEn (a : BridleAsk) : Bool := a.f 1 10 1 == 1
def BridleAsk.count (a : BridleAsk) : Nat := a.f 2 18 11
def BridleAsk.elements (a : BridleAsk) : Nat := a.f 2 32 16
def BridleAsk.units (a : BridleAsk) : Nat := a.f 2 48 6
def BridleAsk.straggle (a : BridleAsk) : Nat := if a.f 3 0 16 = 0 then 200 else a.f 3 0 16
def BridleAsk.abort (a : BridleAsk) : Nat := if a.f 3 16 16 = 0 then 5000 else a.f 3 16 16
def BridleAsk.ranks (a : BridleAsk) : Nat := a.f 3 32 18
def BridleAsk.rootRank (a : BridleAsk) : Nat := a.f 4 0 18
def BridleAsk.firstSeq (a : BridleAsk) : BitVec 32 := BitVec.ofNat 32 (a.f 4 18 32)

/-- A member entry of the list (R130). -/
def memberOf (m : Nat × Nat) : Member :=
  { port := bits m.1 0 10, valid := bits m.1 10 1 == 1, ordered := bits m.1 11 1 == 1, node := BitVec.ofNat 24 (bits m.1 16 24), rankLo := bits m.2 0 18,
    rankN := bits m.2 32 18 }

def BridleAsk.list (a : BridleAsk) : List Member := a.members.map memberOf

/-- Two members share a node or a rank. -/
def membersClash : List Member → Bool
  | [] => false
  | m :: l => (l.any fun k => k.node == m.node || (decide (m.rankLo < k.rankLo + k.rankN) && decide (k.rankLo < m.rankLo + m.rankN))) ||
      membersClash l

/-- The element and length rules of R163, and the kinds of R166. -/
def Rcp.fits (r : Rcp) (a : BridleAsk) : Bool :=
  let e := a.elements
  let up := a.parentEn
  r.valid && e == elementsOf r.inFmt a.units && decide (lengthOf r.outFmt e ≤ 8192) && (!up || decide (lengthOf r.upFmt e ≤ 8192)) &&
    (e % 32 == 0 || !(isMx r.outFmt || (up && isMx r.upFmt))) && (!up || lengthOf r.upFmt e % 256 == 0) &&
    !(r.op == 6 && (a.kind != 0 || up)) && !(a.exact && !(r.op == 0 || r.op == 3)) && !(a.twin && r.op == 6)

/-- The port may carry a Bridle: the first lane of a configured port, and no bypass port. -/
def Hw.bridlePort (h : Hw) (n : Nat) : Bool := h.portStart n && !h.bypass n

/-- Check 5 of R131. (DEDUCED log entry 32.) -/
def Hw.bridleFields (h : Hw) (a : BridleAsk) : Bool :=
  let l := a.list
  decide (a.winLog2 ≤ 8) && decide (a.canon ≤ 64) && decide (1 ≤ a.count) && decide (a.count ≤ 1024) && decide (1 ≤ a.units) &&
    decide (a.units ≤ (if a.exact then 8 else 32)) && decide (a.straggle < a.abort) && decide (1 ≤ a.ranks) &&
    decide (a.ranks ≤ 131072) && (a.kind != 3 || decide (a.rootRank < a.ranks)) && (decide (2 ≤ a.kind) || (h.rcp h.readDie a.recipe).fits a) &&
    (l.all fun m => decide (1 ≤ m.rankN) && decide (m.rankLo + m.rankN ≤ a.ranks) && h.bridlePort m.port) && !membersClash l &&
    (!a.parentEn || h.bridlePort a.parentPort)

/-- Free room in the member pool from `base`. -/
def Hw.poolFits (h : Hw) (base n : Nat) : Bool :=
  decide (base + n ≤ 131072) &&
    h.coll.bridles.all fun b => decide (base + n ≤ b.memberBase) || decide (b.memberBase + b.members.length ≤ base)

/-- The lowest place in the member pool with room: the start, or the end of some Bridle's entries. (DESIGN CHOICE log entry 31.) -/
def Hw.poolPlace (h : Hw) (n : Nat) : Option Nat :=
  ((0 :: h.coll.bridles.map fun b => b.memberBase + b.members.length).filter fun x => h.poolFits x n).min?

/-- Ballast slots of C-die `c` that no Bridle reserves; a die without an enabled lane offers none (R132, R181). -/
def Hw.freeSlots (h : Hw) (dis : W64) (c : Nat) : Nat :=
  if (enabledLanes dis c).isEmpty then 0 else 8192 - (h.coll.bridles.map fun b => b.slots.get c).sum

/-- S of R132. -/
def BridleAsk.slotsPer (a : BridleAsk) : Nat :=
  if 2 ≤ a.kind then 1 else (a.elements * (if a.exact then 40 else 4) + 16383) / 16384

/-- The Bridle that an accepted create makes. -/
def BridleAsk.bridle (a : BridleAsk) (ix base stage now : Nat) : Bridle :=
  let w := 2 ^ a.winLog2
  let first := a.firstSeq
  let b : Bridle :=
    { ix := ix, group := BitVec.ofNat 16 (a.f 0 0 16), gen := BitVec.ofNat 8 (a.f 0 16 8), state := if a.parentEn then .pending else .ready,
      kind := a.kind, exact := a.exact, twin := a.twin, winLog2 := a.winLog2, home := a.home, canon := a.canon, recipe := a.recipe,
      parentPort := a.parentPort, parentEn := a.parentEn, parentMember := a.f 1 12 10, parentNode := BitVec.ofNat 24 (a.f 1 24 24),
      memberBase := base, members := a.list, elements := a.elements, chunkUnits := a.units, straggleUs := a.straggle,
      abortUs := a.abort, ranks := a.ranks, ownerShift := a.f 3 50 5, rootRank := a.rootRank, firstSeq := first, seqLow := first,
      abortSeq := 0, abortReason := 0, abortMember := 0, slots := Four.all 0,
      pos := (List.range w).map fun p => Pos.blank (first + BitVec.ofNat 32 ((p + w - first.toNat % w) % w)),
      heard := [], repeats := 0, since := now, stageSet := stage, closers := [] }
  let n (c : Nat) : Nat := w * a.slotsPer * b.copiesOn c
  { b with slots := ⟨n 0, n 1, n 2, n 3⟩ }

/-- The lowest FREE entry of the Bridle table. (DESIGN CHOICE log entry 31.) -/
def Hw.freeBridle (h : Hw) : Nat :=
  ((List.range (h.coll.bridles.length + 1)).find? fun i => !(h.coll.bridles.any fun b => b.ix == i)).getD 0

/-- BRIDLE_CREATE: the checks of R131 in order, then the whole effect. (DESIGN CHOICE log entry 31, DEDUCED log entry 32.) -/
def Hw.cmdBridleCreate (h : Hw) (dis : W64) (a : BridleAsk) : CmdEnd × Hw :=
  let group : BitVec 16 := BitVec.ofNat 16 (a.f 0 0 16)
  if !h.nodeValid then (.fail 0x20, h)
  else if 16384 ≤ h.coll.bridles.length then (.fail 0x21, h)
  else if h.coll.bridles.any fun b => b.group == group then (.fail 0x22, h)
  else if aget group h.coll.lastGen = some (BitVec.ofNat 8 (a.f 0 16 8)) then (.fail 0x23, h)
  else if !h.bridleFields a then (.fail 0x02, h)
  else if !((a.list.all fun m => h.inService m.port) && (!a.parentEn || h.inService a.parentPort)) then (.fail 0x24, h)
  else
    match h.poolPlace a.count with
    | none => (.fail 0x25, h)
    | some low =>
      let (v, h') := h.draw
      let v := v.toNat % 131072
      let base := if h.poolFits v a.count then v else low
      let b := a.bridle h.freeBridle base h.mgt.stageCur (h.slot a.home)
      if !((List.range 4).all fun c => decide (b.slots.get c ≤ h.freeSlots dis c)) then (.fail 0x26, h)
      else
        let lost := ((List.range 4).filter fun c => h.err.hubLost.get c).map fun c => (b.ix, c)
        let h := { h' with coll := { h'.coll with bridles := h'.coll.bridles ++ [b],
                                                  absent := (h'.coll.absent.filter fun x => x.1 != b.ix) ++ lost } }
        let h := if b.parentEn then h.sendNotice b .parent 2 else b.ixs.foldl (fun h i => h.sendNotice b (.member i) 0) h
        (h.reached (.ok (b.ix + base * 2 ^ 32)), h)

/-- The ask of a descriptor and its member list. -/
def bridleAskOf (d list : List Byte) : BridleAsk :=
  let a : BridleAsk := { w := (List.range 5).map fun i => getLE d (8 + 8 * i) 8, members := [] }
  { a with members := (List.range (a.f 2 18 11)).map fun i => (getLE list (16 * i) 8, getLE list (16 * i + 8) 8) }

/-- The active Bridle that a close names. -/
def Hw.closeTarget (h : Hw) (d : List Byte) : Option Bridle :=
  (h.bridleAt (getLE d 8 2 % 16384)).filter fun b => b.group.toNat == getLE d 10 2 && b.gen.toNat == getLE d 12 1

/-- A close with the drain option (R153): none when no active Bridle matches. -/
def Hw.closeDrain (h : Hw) (d : List Byte) (who : CmdFrom) : Option Hw :=
  (h.closeTarget d).map fun b =>
    h.setBridle { b with state := if b.state = .aborted then .aborted else .draining, closers := b.closers ++ [who] }

/-- A close with the abort option (R153). -/
def Hw.closeAbort (h : Hw) (d : List Byte) (who : CmdFrom) : Option Hw :=
  (h.closeTarget d).map fun b =>
    let b := { b with closers := b.closers ++ [who] }
    (h.setBridle b).bridleAbortLow b 11 0x7ff

/-- BRIDLE_CLOSE_COMPLETE (R153); while a hub path is lost the close completes with UNREACHABLE (R256). -/
def Hw.closeComplete (h : Hw) (nv : Nv) (ix : Nat) : Hw :=
  match h.bridleAt ix with
  | none => h
  | some b =>
    let done := b.state == .aborted || (b.state == .draining && b.pos.all fun p => p.state == .free)
    if b.closers.isEmpty || !done then h
    else
      let h := b.ixs.foldl (fun h i => h.sendNotice b (.member i) 1) h
      let h := { h with coll := { h.coll with bridles := h.coll.bridles.filter fun x => x.ix != ix, lastGen := aput b.group b.gen h.coll.lastGen } }
      b.closers.foldl (fun h c => h.cmdDone nv c (h.reached (.ok 0)).status (b.abortSeq.toNat + b.abortReason * 2 ^ 32) []) h

def execBridleCloseComplete (b : BridleIx) (s : State) : Host.Outcome State Fault Refusal :=
  .next (s.onHw fun h => h.closeComplete s.nv b)

end Sys2Proof.Machine
end

