-- ==== Sys2Proof/Machine/Hbm.lean ====
section
/-! DEFINITION. The HBM stacks: the spread of exported offsets, windows, errors and their handling, patrol scrub, row repair and refresh
(R190 to R195, R209, R213, R215 to R218, R220, R221). -/

namespace Sys2Proof.Machine

/-! ### Layout (R190, R192) -/

/-- The rotation h of a group of 384 lines. -/
def gondolaRot (g : Nat) : Nat := ((BitVec.ofNat 32 g * 0x9E3779B1) >>> 16).toNat % 384

/-- gondola_pc of R192: the pseudo-channel of an offset. -/
def gondolaPc (off : Nat) : Nat :=
  let line := off / 256
  let i := (line % 384 + gondolaRot (line / 384)) % 384
  i % 12 * 32 + i / 12

/-- The byte address in the export share. -/
def gondolaAddr (off : Nat) : Nat := off / 256 / 384 * 256 + off % 256

/-- The offset of a byte of the export share: the inverse of R192. -/
def gondolaOff (pc addr : Nat) : Nat :=
  let g := addr / 256
  let i := 12 * (pc % 32) + pc / 32
  (g * 384 + (i + 384 - gondolaRot g) % 384) * 256 + addr % 256

def pcStack (pc : Nat) : Nat := pc / 32
/-- The quadrant of a stack. -/
def stackQuad (k : Nat) : Nat := k / 3
/-- The quadrant that serves an offset. -/
def offQuad (off : Nat) : Nat := stackQuad (pcStack (gondolaPc off))

def Hw.exportBytes (h : Hw) : Nat := h.fld .gondolaCfg Fld.gondolaCfg_exportGib * 2 ^ 30
def Hw.spillGib (h : Hw) (q : Nat) : Nat := h.fld (.spillCfg q) Fld.spillCfg_spillGib
/-- The largest SPILL_GIB of the four P-dies. -/
def Hw.spillMax (h : Hw) : Nat := ((List.range 4).map h.spillGib).foldl max 0

/-- All bytes lie within one window of nonzero SIZE (R193). -/
def Hw.inWindow (h : Hw) (off len : Nat) : Bool :=
  (List.range 16).any fun w =>
    let base := h.fld (.gondolaWin w) Fld.gondolaWin_base * 2097152
    let size := h.fld (.gondolaWin w) Fld.gondolaWin_size * 2097152
    decide (size ≠ 0) && decide (base ≤ off) && decide (off + len ≤ base + size) && decide (off + len ≤ h.exportBytes)

/-- Quadrants whose stacks hold some of the bytes. -/
def touchedQuads (off len : Nat) : List Nat :=
  ((List.range (((off + len - 1) / 256 - off / 256) + 1)).map fun k => offQuad ((off / 256 + k) * 256)).dedup

/-- The stacks of a quadrant serve requests: neither parked or parking, nor in reset, nor in FATAL (R212, R323, R375). -/
def Hw.memServes (h : Hw) (q : Nat) : Bool := !h.parked q && !h.parkReq q && !h.qdBusy q && !h.fatalQ q

/-- Conditions 1 to 4 of R399 for a read or write of `len` bytes: the status, 0 when it may be executed. `whole` checks against the
exported space in place of the windows (R265). -/
def Hw.memStatus (h : Hw) (off len : Nat) (whole : Bool) : Nat :=
  if h.bit .gondolaCfg Fld.gondolaCfg_enable = false then 6
  else if len = 0 ∨ 8192 < len then 3
  else if !((touchedQuads off len).all h.memServes) then 6
  else if (if whole then decide (off + len ≤ h.exportBytes) else h.inWindow off len) then 0 else 1

/-! ### Errors (R215, R217, R329) -/

/-- A corrected error in a line of pseudo-channel `pc`. -/
def Hw.hbmCe (h : Hw) (pc : Nat) (injected : Bool) : Hw :=
  let k := pcStack pc
  let q := stackQuad k
  (((h.count q 0x060 k 1).satFld (.hbmStatus k) Fld.hbmStatus_ceCount 1).satFld (.errCount q) Fld.errCount_ce 1).record
    { code := 0x0401, die := q, unit := k, d0 := BitVec.ofNat 64 pc, injected := injected }

/-- An uncorrectable error in a line with use `use` of R329. -/
def Hw.hbmUe (h : Hw) (pc addr use : Nat) (injected : Bool) : Hw :=
  let k := pcStack pc
  let q := stackQuad k
  (((h.count q 0x061 k 1).satFld (.hbmStatus k) Fld.hbmStatus_ueCount 1).satFld (.errCount q) Fld.errCount_uc 1).record
    { code := 0x0402, die := q, unit := k, d0 := BitVec.ofNat 64 pc, d1 := BitVec.ofNat 64 addr, d2 := BitVec.ofNat 64 use,
      injected := injected }

/-- The row of a line, apart from the line's place in it. -/
def lineRow (l : HbmLine) : HbmLine := { l with addr := 0 }

/-- The quadrant agent starts to repair the row of a line. -/
def Hw.needRepair (h : Hw) (l : HbmLine) : Hw :=
  if h.gon.repairing.contains (lineRow l) then h else { h with gon := { h.gon with repairing := (lineRow l) :: h.gon.repairing } }

/-- Slots in one hour. -/
def slotsHour : Nat := 3600 * slotsSec

/-- A corrected error of a row; the fourth of a scrub period calls for repair. -/
def Hw.rowCorrected (h : Hw) (l : HbmLine) : Hw :=
  let now := h.slot (stackQuad (pcStack l.pc))
  let period := slotsHour * h.fld .gondolaCfg Fld.gondolaCfg_scrubH
  let (n, t) := match aget (lineRow l) h.gon.rowCe with
    | some (n, t) => if now < t + period then (n + 1, t) else (1, now)
    | none => (1, now)
  let h := { h with gon := { h.gon with rowCe := aput (lineRow l) (n, t) h.gon.rowCe } }
  if 4 ≤ n then h.needRepair l else h

/-- A corrected error is met in a line, whoever reads it: counted, and counted toward the repair of the line's row. -/
def Hw.lineCe (h : Hw) (l : HbmLine) (injected : Bool) : Hw := (h.hbmCe l.pc injected).rowCorrected l

/-- An uncorrectable error is met in a line with use `use`: counted, and the row is repaired. -/
def Hw.lineUe (h : Hw) (l : HbmLine) (use : Nat) (injected : Bool) : Hw := (h.hbmUe l.pc l.addr.toNat use injected).needRepair l

/-- The line at byte address `addr` of a pseudo-channel; its bank and row are the stack's own. (DESIGN CHOICE log entry 42.) -/
def lineAt (pc addr : Nat) : HbmLine :=
  let a := addr / 256 * 256
  { pc := Fin.ofNat 384 pc, addr := BitVec.ofNat 30 a, bank := (Config.rowOf pc a).1, row := (Config.rowOf pc a).2 }

/-- The line of an exported offset. -/
def exportLine (off : Nat) : HbmLine := lineAt (gondolaPc off) (gondolaAddr off)

/-- A line of the system area of quadrant `q`; which one holds an entry is not stated. (DESIGN CHOICE log entry 41.) -/
def Hw.systemLine (h : Hw) (q : Nat) : HbmLine × Hw :=
  let (v, h) := h.draw
  let (w, h) := h.draw
  (lineAt (96 * q + v.toNat % 96) (2 ^ 30 - 1 - w.toNat % (2 ^ 30 / 24)), h)

def State.setPoison (s : State) (u : Nat) : State :=
  if s.mem.poison.contains u then s else s.onMem fun m => { m with poison := u :: m.poison }

/-- An uncorrectable error in the 64-byte unit of an exported byte. -/
def State.exportUe (s : State) (off : Nat) (injected : Bool) : State :=
  (s.onHw fun h => h.lineUe (exportLine off) 0 injected).setPoison (off / 64)

/-- Errors planted in units of a range are found by a read: corrected, or uncorrectable. (DEDUCED log entry 40.) -/
def State.findPlanted (s : State) (off len : Nat) : State :=
  s.hw.gon.planted.foldl (fun s x =>
    if off < 64 * x.1 + 64 ∧ 64 * x.1 < off + len then
      let s := s.onHw fun h => { h with gon := { h.gon with planted := h.gon.planted.filter fun y => y.1 != x.1 } }
      if x.2 then s.exportUe (64 * x.1) true else s.onHw fun h => h.lineCe (exportLine (64 * x.1)) true
    else s) s

/-- What ECC-72 finds while exported bytes are read: the error `e` lies in the first line. (DEDUCED log entry 40.) -/
def State.readErrors (s : State) (off len : Nat) (e : HbmErr) : State :=
  let s := match e with
    | .none => s
    | .corrected => s.onHw fun h => h.lineCe (exportLine off) false
    | .uncorrectable => s.exportUe off false
  s.findPlanted off len

/-- Read exported bytes; none where a poisoned or uncorrectable line is met. -/
def State.readExport (s : State) (off len : Nat) (e : HbmErr) : Option (List Byte) × State :=
  let s := s.readErrors off len e
  (if s.mem.poisoned off len then none else some (s.mem.load off len), s)

/-- The 64-byte units that a write covers in part, which the controller must therefore read. -/
def partUnits (off len : Nat) : List Nat :=
  [off / 64, (off + len - 1) / 64].dedup.filter fun u => !(decide (off ≤ 64 * u) && decide (64 * u + 64 ≤ off + len))

/-- Write exported bytes; true where the write met an uncorrectable error or a poisoned unit (R399, R215). A unit that the write covers in
part is read: `e` lies in the first such unit. A unit in error stays poisoned; a write of a whole unit clears its poison. ERR_INJECT at
point 12 plants its error in the first unit written. (DEDUCED log entry 40.) (DEDUCED log entry 37.) -/
def State.writeExport (s : State) (off : Nat) (l : List Byte) (e : HbmErr) : Bool × State :=
  let part := partUnits off l.length
  let s := match part with
    | [] => s
    | u :: rest => rest.foldl (fun s v => s.findPlanted (64 * v) 64) (s.readErrors (64 * u) 64 e)
  let bad := part.any fun u => s.mem.poison.contains u
  let s := s.onMem fun m => m.store off l
  let kept := s.hw.gon.planted.filter fun x => !(decide (off ≤ 64 * x.1) && decide (64 * x.1 + 64 ≤ off + l.length))
  let (b, h) := s.hw.inject 12 (offQuad off)
  (bad, { s with hw := { h with gon := { h.gon with planted := if b = 0 then kept else (off / 64, b == 2) :: kept } } })

/-- The stacks of quadrant `q` are wiped (R219). -/
def State.wipeQuad (s : State) (q : Nat) : State :=
  let s := s.onMem fun m => m.keep fun a => offQuad a != q
  s.onHw fun h => { h with gon := { h.gon with planted := h.gon.planted.filter fun x => offQuad (64 * x.1) != q } }

/-! ### Directory entries and records that are lost (R209, R213) -/

/-- dir_bucket of R206. -/
def dirBucket (hi lo : W64) (seed : BitVec 32) : Nat :=
  let x := lo ^^^ (hi * 0x9E3779B97F4A7C15) ^^^ seed.zeroExtend 64
  let x := x ^^^ (x >>> 31)
  let x := x * 0xBF58476D1CE4E5B9
  let x := x ^^^ (x >>> 29)
  x.toNat % 2 ^ 24

def Hw.dirSeed (h : Hw) : BitVec 32 := BitVec.ofNat 32 (h.fld .gondolaSeed Fld.gondolaSeed_dirSeed)
/-- The bucket where an entry lies: while a rehash moves the entries, one that has moved lies under the new seed (R265). -/
def Hw.entBucket (h : Hw) (e : DirEnt) : Nat :=
  dirBucket e.keyHi e.keyLo (if e.moved then (h.rehashing .dirRehash).getD h.dirSeed else h.dirSeed)

/-- An entry is lost: counted, recorded and invalidated. `slot` is its place in the bucket, or 4 + its overflow index. -/
def Hw.dirLose (h : Hw) (e : DirEnt) (slot : Nat) : Hw :=
  let b := h.entBucket e
  let h := { h with gon := { h.gon with dir := h.gon.dir.filter fun x => !(x.keyLo == e.keyLo && x.keyHi == e.keyHi) } }
  (h.count (4 + b % 4) 0x126 0 1).record
    { code := 0x0405, die := 4 + b % 4, unit := 0, d0 := BitVec.ofNat 64 b, d1 := BitVec.ofNat 64 slot }

/-- The entries of bucket `b` in the order of their slots. -/
def Hw.bucketEnts (h : Hw) (b : Nat) : List DirEnt := h.gon.dir.filter fun e => !e.ovf && h.entBucket e == b
/-- The overflow entries of the C-die that serves bucket `b`. -/
def Hw.ovfEnts (h : Hw) (b : Nat) : List DirEnt := h.gon.dir.filter fun e => e.ovf && h.entBucket e % 4 == b % 4

/-- Every entry of a bucket line with an uncorrectable error is lost (R209). (DESIGN CHOICE log entry 41.) -/
def Hw.dirLine (h : Hw) (b : Nat) : Hw := ((h.bucketEnts b).zipIdx).foldl (fun h x => h.dirLose x.1 x.2) h

/-- What an operation on bucket `b` finds amiss as it reads (R209, R215). -/
def Hw.dirError (h : Hw) (b : Nat) (e : DirErr) : Hw :=
  match e with
  | .none => h
  | .corrected =>
    let (l, h) := h.systemLine (b % 4)
    h.lineCe l false
  | .uncorrectable =>
    let (l, h) := h.systemLine (b % 4)
    (h.lineUe l 2 false).dirLine b
  | .parity i =>
    match (if i < 4 then (h.bucketEnts b)[i]? else (h.ovfEnts b)[i - 4]?) with
    | some x => h.dirLose x i
    | none => h

/-- An atomic record is poisoned (R213). -/
def Hw.poisonRec (h : Hw) (r : AtomRec) : Hw :=
  let mark (x : AtomRec) : AtomRec := if x.die = r.die ∧ x.requester = r.requester then { x with poisoned := true } else x
  let h := { h with gon := { h.gon with recs := h.gon.recs.map mark } }
  (h.count (4 + r.die) 0x12a 0 1).record { code := 0x0406, die := 4 + r.die, unit := 0, d0 := r.requester.zeroExtend 64 }

/-- What ECC-72 finds as the record of a requester is read (R213). -/
def Hw.recError (h : Hw) (die : Nat) (r : Option AtomRec) (e : HbmErr) : Hw :=
  match r, e with
  | none, _ => h
  | some _, .none => h
  | some _, .corrected =>
    let (l, h) := h.systemLine die
    h.lineCe l false
  | some r, .uncorrectable =>
    let (l, h) := h.systemLine die
    (h.lineUe l 3 false).poisonRec r

/-- An uncorrectable line of a quadrant's system area: which of its parts holds the line, and which entry of it, is not stated, so free
values say. (DESIGN CHOICE log entry 41.) -/
def Hw.systemUe (h : Hw) (l : HbmLine) : Hw :=
  let q := stackQuad (pcStack l.pc)
  let (v, h) := h.draw
  let use := 2 + v.toNat % 4
  let h := h.lineUe l use false
  let (w, h) := h.draw
  if use = 2 then h.dirLine (w.toNat % 2 ^ 22 * 4 + q)
  else if use = 3 then
    let mine := h.gon.recs.filter fun r => r.die == q
    match mine[w.toNat % (mine.length + 1)]? with
    | some r => h.poisonRec r
    | none => h
  else h

/-! ### Spilled frames (R103, R215, R319) -/

/-- A frame whose spilled words cannot be corrected is discarded there and counted as an age discard would be, with no notice. -/
def Hw.spillLost (h : Hw) (x : Held) : Hw :=
  let h := h.record { code := 0x0104, die := x.die, unit := 4, d0 := BitVec.ofNat 64 x.cls }
  let h := (x.copies.filter fun c => c.spot == .spill).foldl (fun h c =>
    (h.count x.die 0x032 (32 + x.cls) 1).sampleCopy x c.port 2) h
  h.dropCopies x.id fun c => c.spot == .spill

/-- SPILL_READBACK (R103): the next spilled frame of queue (n, t) returns to the buffer. `e` is what ECC-72 finds in line `l` of the
quadrant, or what ERR_INJECT at point 4 puts there. -/
def Hw.spillReadback (h : Hw) (q n t : Nat) (l : HbmLine) (e : HbmErr) : Hw :=
  match firstJoin (h.copiesTo n fun x c => x.die == q && x.cls == t && c.spot == .spill) with
  | none => h
  | some (x, c) =>
    if !h.quadOk q || !h.admits q t x.len || decide (h.spillBudget q < h.buf.spillNow.get q + x.len) then h
    else
      let l : HbmLine := { l with pc := Fin.ofNat 384 (96 * q + l.pc.val % 96) }
      let h := h.spillMoved q x.len
      let (b, h) := h.inject 4 q
      let back (h : Hw) : Hw := h.setSpot x.id c.port .queue
      if b = 2 ∨ e = .uncorrectable then (h.lineUe l 1 (b == 2)).spillLost x
      else if b = 1 ∨ e = .corrected then back (h.lineCe l (b == 1))
      else back h

def execSpillReadback (q : Quad) (p : Port) (c : SpillRead) (s : State) : Host.Outcome State Fault Refusal :=
  .next (s.onHw fun h => h.spillReadback q p c.cls c.line c.err)

/-- An uncorrectable spill line that the patrol finds: which spilled frame of the quadrant lies in it, if any, is not stated. (DESIGN
CHOICE log entry 41.) -/
def Hw.spillUe (h : Hw) (l : HbmLine) : Hw :=
  let q := stackQuad (pcStack l.pc)
  let h := h.lineUe l 1 false
  let (v, h) := h.draw
  let there := h.buf.held.filter fun x => x.die == q && x.inSpill
  match there[v.toNat % (there.length + 1)]? with
  | some x => h.spillLost x
  | none => h

/-! ### Patrol scrub, repair and refresh (R216 to R218) -/

/-- A line lies in the system area: the upper 1/24 of its pseudo-channel (R190). -/
def lineSystem (l : HbmLine) : Bool := decide (23 * 2 ^ 30 ≤ 24 * l.addr.toNat)

/-- PATROL_SCRUB (R216): one line of a stack is read. -/
def State.patrol (s : State) (l : HbmLine) (e : HbmErr) : State :=
  let q := stackQuad (pcStack l.pc)
  if s.hw.quadOk q = false ∨ s.hw.parked q = true then s
  else
    let off := gondolaOff l.pc l.addr.toNat
    let exported := decide (off < s.hw.exportBytes)
    let spill := !lineSystem l && decide (l.addr.toNat * 384 < s.hw.exportBytes + 4 * s.hw.spillGib q * 2 ^ 30)
    let s := match e with
      | .none => s
      | .corrected => s.onHw fun h => h.lineCe l false
      | .uncorrectable =>
        if exported then (s.onHw fun h => h.lineUe l 0 false).setPoison (off / 64)
        else if spill then s.onHw fun h => h.spillUe l
        else if lineSystem l then s.onHw fun h => h.systemUe l
        -- a line that neither export, spill nor system area uses: which use its record names is not stated
        else s.onHw fun h => let (v, h) := h.draw; h.lineUe l v.toNat false
    if exported then s.findPlanted (off / 256 * 256) 256 else s

def execPatrolScrub (l : HbmLine) (e : HbmErr) (s : State) : Host.Outcome State Fault Refusal := .next (s.patrol l e)

/-- ROW_REPAIR_COMPLETE (R217). Whether the repaired bank was the one with the fewest spares is not stated: a free value. (DESIGN CHOICE log entry 42.) -/
def Hw.rowRepaired (h : Hw) (l : HbmLine) : Hw :=
  let k := pcStack l.pc
  let q := stackQuad k
  if !h.gon.repairing.contains (lineRow l) then h
  else
    let h := { h with gon := { h.gon with repairing := h.gon.repairing.filter fun x => x != (lineRow l), rowCe := adel (lineRow l) h.gon.rowCe } }
    let left := h.fld (.hbmStatus k) Fld.hbmStatus_spareLeft
    let (v, h) := h.draw
    let d1 := BitVec.ofNat 64 (l.row.toNat + l.bank.toNat * 65536)
    if left = 0 ∧ v.getLsbD 0 = true then
      h.record { code := 0x0404, die := q, unit := k, d0 := BitVec.ofNat 64 l.pc, d1 := d1 }
    else
      let h := (h.satFld (.hbmStatus k) Fld.hbmStatus_repairs 1).setFld (.hbmStatus k) Fld.hbmStatus_spareLeft
        (left - (if v.getLsbD 0 then 1 else 0))
      (h.count q 0x062 k 1).record { code := 0x0403, die := q, unit := k, d0 := BitVec.ofNat 64 l.pc, d1 := d1 }

def execRowRepairComplete (l : HbmLine) (s : State) : Host.Outcome State Fault Refusal := .next (s.onHw fun h => h.rowRepaired l)

/-- HBM_REFRESH (R218): data is kept and no request refused; above 85 °C the stack counts as hot. -/
def Hw.refresh (h : Hw) (k : Nat) (temp : Byte) : Hw :=
  let rest := h.gon.hot.filter fun x => x != k
  { h with gon := { h.gon with hot := if 85 < temp.toInt then k :: rest else rest } }

def execHbmRefresh (k : Stack) (temp : Byte) (s : State) : Host.Outcome State Fault Refusal := .next (s.onLive fun h => h.refresh k temp)

/-! ### Configuration (R104, R190, R220) -/

/-- A window of word `w` reaches past the exported space of `gib` GiB. -/
def winPast (w : W64) (gib : Nat) : Bool := decide (gib * 512 < Fld.gondolaWin_base.get w + Fld.gondolaWin_size.get w)

/-- The value of GONDOLA_CFG that R190 and R220 accept. (DEDUCED log entry 37, DEDUCED log entry 39.) -/
def Hw.gondolaCfgOk (h : Hw) (v : W64) : Bool :=
  let gib := Fld.gondolaCfg_exportGib.get v
  decide (gib + 4 * h.spillMax ≤ 368) && decide (1 ≤ Fld.gondolaCfg_atomIdleMs.get v) && decide (1 ≤ Fld.gondolaCfg_scrubH.get v) &&
    decide (1 ≤ Fld.gondolaCfg_copyRetryMs.get v) &&
    (gib == h.fld .gondolaCfg Fld.gondolaCfg_exportGib || !h.bit .gondolaCfg Fld.gondolaCfg_enable) &&
    (Fld.gondolaCfg_enable.get v == 0 ||
      (List.range 16).all fun w => Fld.gondolaWin_size.get (h.reg (.gondolaWin w)) == 0 || !winPast (h.reg (.gondolaWin w)) gib)

/-- GONDOLA_CFG_WRITE. (DEDUCED log entry 39.) -/
def Hw.gondolaCfgWrite (h : Hw) (a : Acc) (v : W64) : Hw :=
  if !h.dpReady then h
  else
    let w := h.writeWord .gondolaCfg a v
    if h.gondolaCfgOk w then h.setReg .gondolaCfg w else h.setFld .gondolaStatus Fld.gondolaStatus_cfgErr 1

def execGondolaCfgWrite (acc : Acc) (v : W64) (s : State) : Host.Outcome State Fault Refusal :=
  .next (s.onLive fun h => h.gondolaCfgWrite acc v)

/-- GONDOLA_WIN_WRITE. (DEDUCED log entry 37.) -/
def Hw.gondolaWinWrite (h : Hw) (i : Nat) (a : Acc) (v : W64) : Hw :=
  if !h.dpReady then h
  else
    let w := h.writeWord (.gondolaWin i) a v
    if winPast w (h.fld .gondolaCfg Fld.gondolaCfg_exportGib) then h.setFld .gondolaStatus Fld.gondolaStatus_cfgErr 1
    else h.setReg (.gondolaWin i) w

def execGondolaWinWrite (w : Fin 16) (acc : Acc) (v : W64) (s : State) : Host.Outcome State Fault Refusal :=
  .next (s.onLive fun h => h.gondolaWinWrite w acc v)

/-- SPILL_CFG_WRITE (R104, R190). Ranges: SPILL_GIB 0 to 24 and SPILL_BW_PCT 1 to 100. (DEDUCED log entry 39.) -/
def Hw.spillCfgWrite (h : Hw) (q : Nat) (a : Acc) (v : W64) : Hw :=
  if !h.quadReach q then h
  else
    let w := h.writeWord (.spillCfg q) a v
    let gib := Fld.spillCfg_spillGib.get w
    let others := ((List.range 4).filter fun k => k != q).map h.spillGib
    let moves := gib != h.spillGib q
    let busy := h.bit (.spillCfg q) Fld.spillCfg_spillEn || decide (h.spillUsed q ≠ 0)
    if (moves && busy) || decide (24 < gib) || decide (368 < h.fld .gondolaCfg Fld.gondolaCfg_exportGib + 4 * (others.foldl max gib)) ||
        Fld.spillCfg_spillBwPct.get w == 0 || decide (100 < Fld.spillCfg_spillBwPct.get w) then
      h.setFld (.bufStatus q) Fld.bufStatus_cfgErr 1
    else h.setReg (.spillCfg q) w

def execSpillCfgWrite (q : Quad) (acc : Acc) (v : W64) (s : State) : Host.Outcome State Fault Refusal :=
  .next (s.onHw fun h => h.spillCfgWrite q acc v)

end Sys2Proof.Machine
end

