-- ==== Sys2Proof/Machine/Gondola.lean ====
section
/-! DEFINITION. The requests that the Gondola tier serves: memory reads and writes, the directory, and remote atomics with their records
(R196 to R199, R206 to R214, R221, R399). -/

namespace Sys2Proof.Machine

/-! ### Answers -/

/-- The length of an originated frame with `n` payload bytes. -/
def vframeLen (n : Nat) : Nat := 18 + max 46 (32 + n)

/-- Both floor paths between P-dies `a` and `b` carry cells (R33, R240). -/
def Hw.pathBoth (h : Hw) (a b : Nat) : Bool := h.pathUp a b && h.pathUp b a

/-- Whether a request can reach what serves it and its answer can return (R33): until then it waits in its landing zone. -/
def Hw.serves (h : Hw) (p : Nat) (qs : List Nat) : Bool := qs.all fun q => h.pathBoth (portDie p) q

/-- The oldest consumed frame of an opcode on port `p`, when the P-die there has room for a reply of class `cls d` and `len d` payload
bytes (R97, R99), and the paths to the quadrants `at_` that serve it and back stand; none for `cls`: no reply is due. (DEDUCED log entry
37.) -/
def Hw.takeRoom (h : Hw) (p op : Nat) (cls : VHdr → Option Nat) (len : VHdr → Nat) (at_ : Taken → List Nat) : Option Taken × Hw :=
  match h.buf.taken.find? fun x => x.port == p && x.hdr.opcode.toNat == op with
  | none => (none, h)
  | some x =>
    if h.serves p (at_ x) && (match cls x.hdr with | some t => h.admits (portDie p) t (vframeLen (len x.hdr)) | none => true) then
      h.takeFrame p [op]
    else (none, h)

/-- A response with a status, counted by status code (R221). -/
def Hw.answer (h : Hw) (die q : Nat) (d : VHdr) (op cls status : Nat) (roff : BitVec 40) (data : W64) (payload : List Byte) : Hw :=
  let h := h.count (4 + die) 0x120 status 1
  let h := if status = 6 then h.count (4 + die) 0x129 0 1 else h
  h.originate q { VHdr.make cls op d.src h.node with status := BitVec.ofNat 8 status, roff := roff, seq := d.seq, opData := data } payload

/-- The quadrants that `n` bytes from `off` lie in, for a length that a request may have. -/
def reqQuads (off n : Nat) : List Nat := if n = 0 ∨ 8192 < n then [] else touchedQuads off n

/-- The response class of R197. -/
def respClass (tc : Nat) : Nat := if tc = 3 then 4 else tc

/-- A word of a request enters its serving block (point 11 of R318). (DEDUCED log entry 40.) -/
def Hw.serveEcc (h : Hw) (die cls : Nat) : Bool × Hw := h.eccPass 11 die cls false

/-- The request has SRC_NODE 0xFF_FFFF: discarded and counted (R196). -/
def Hw.noSource (h : Hw) (q : Nat) : Hw := h.count (4 + q) 0x123 0 1

/-! ### MEM_WRITE and MEM_READ (R196 to R198) -/

/-- MEM_WRITE_RECEIVE. A write that meets an uncorrectable unit stores its bytes and answers MEM_ERROR; the unit stays poisoned. (DEDUCED log
entry 37, DEDUCED log entry 40.) (DEDUCED log entry 37.) -/
def State.memWrite (s : State) (p : Nat) (e : HbmErr) : State :=
  let q := portDie p
  match s.hw.takeRoom p 0x40 (fun d => if d.opData.getLsbD 63 then some (respClass d.tc.toNat) else none) (fun _ => 0)
      (fun x => reqQuads x.hdr.roff.toNat x.hdr.plen.toNat) with
  | (none, h) => { s with hw := h }
  | (some x, h) =>
    let h := h.consumed x
    let d := x.hdr
    let off := d.roff.toNat
    let len := d.plen.toNat
    let die := offQuad off
    if d.src = linkLocal then { s with hw := h.noSource q }
    else
      match h.serveEcc die d.tc.toNat with
      | (true, h) => { s with hw := h }
      | (false, h) =>
        let st := h.memStatus off len false
        let s := { s with hw := h }
        let (st, s) := if st = 0 then
            let r := s.writeExport off x.frame.payload e
            (if r.1 then 4 else 0, r.2)
          else (st, s)
        s.onHw fun h =>
          let defl := decide (d.defl ≠ 0)
          let h := if defl then h.count (4 + die) 0x121 0 1 else h
          if d.opData.getLsbD 63 then
            h.answer die q d 0x43 (respClass d.tc.toNat) st d.roff (BitVec.ofNat 64 ((if defl then 2 ^ 63 else 0) + (if st = 0 ∨ st = 4 then len else 0))) []
          else h

def execMemWriteReceive (p : Port) (e : HbmErr) (s : State) : Host.Outcome State Fault Refusal := .next (s.memWrite p e)

/-- MEM_READ_RECEIVE. (DEDUCED log entry 37.) -/
def State.memRead (s : State) (p : Nat) (e : HbmErr) : State :=
  let q := portDie p
  let lenOf (d : VHdr) : Nat := d.opData.toNat % 16384
  match s.hw.takeRoom p 0x41 (fun d => some (respClass d.tc.toNat)) (fun d => if lenOf d ≤ 8192 then lenOf d else 0)
      (fun x => reqQuads x.hdr.roff.toNat (lenOf x.hdr)) with
  | (none, h) => { s with hw := h }
  | (some x, h) =>
    let h := h.consumed x
    let d := x.hdr
    let off := d.roff.toNat
    let len := lenOf d
    let die := offQuad off
    let to_ : BitVec 40 := BitVec.ofNat 40 (d.opData.toNat / 2 ^ 24)
    let reply (st : Nat) (l : List Byte) (h : Hw) : Hw := h.answer die q d 0x42 (respClass d.tc.toNat) st to_ 0 l
    if d.src = linkLocal then { s with hw := h.noSource q }
    else
      match h.serveEcc die d.tc.toNat with
      | (true, h) => { s with hw := h }
      | (false, h) =>
        let st := h.memStatus off len false
        if st ≠ 0 then { s with hw := reply st [] h }
        else
          match State.readExport { s with hw := h } off len e with
          | (some l, s) => s.onHw (reply 0 l)
          | (none, s) => s.onHw (reply 4 [])

def execMemReadReceive (p : Port) (e : HbmErr) (s : State) : Host.Outcome State Fault Refusal := .next (s.memRead p e)

/-- UNMATCHED_RESPONSE_RECEIVE: ATOMIC_RESP or DIR_RESP (R196). -/
def Hw.unmatched (h : Hw) (p : Nat) : Hw :=
  match h.takeFrame p [0x45, 0x4b] with
  | (none, h) => h
  | (some x, h) => (h.consumed x).count (4 + portDie p) 0x122 0 1

def execUnmatchedResponseReceive (p : Port) (s : State) : Host.Outcome State Fault Refusal := .next (s.onHw fun h => h.unmatched p)

/-- COPY_DONE_RECEIVE (R205). (DEDUCED log entry 37.) -/
def Hw.copyDoneIn (h : Hw) (p : Nat) : Hw :=
  match h.takeFrame p [0x49] with
  | (none, h) => h
  | (some x, h) => (h.consumed x).count (4 + portDie p) 0x122 0 1

def execCopyDoneReceive (p : Port) (s : State) : Host.Outcome State Fault Refusal := .next (s.onHw fun h => h.copyDoneIn p)

/-! ### Directory (R206 to R209) -/

/-- An entry in the layout of R207, PARITY computed. -/
def DirEnt.bytes (e : DirEnt) : List Byte :=
  let w3 := e.size.toNat + 8 + e.tag.toNat * 256
  let w2 := e.locOffset.toNat + e.locNode.toNat * 2 ^ 40
  let par := ((List.range 64).filter fun i => e.keyLo.getLsbD i).length + ((List.range 64).filter fun i => e.keyHi.getLsbD i).length +
    ((List.range 64).filter fun i => Nat.testBit w2 i).length + ((List.range 64).filter fun i => Nat.testBit w3 i).length
  bytesLE 8 e.keyLo.toNat ++ bytesLE 8 e.keyHi.toNat ++ bytesLE 8 w2 ++ bytesLE 8 (w3 + par % 2 * 2 ^ 63)

/-- The entry of a 32-byte payload; VALID and PARITY are the chip's. -/
def dirEntOf (l : List Byte) : DirEnt :=
  { keyLo := BitVec.ofNat 64 (getLE l 0 8), keyHi := BitVec.ofNat 64 (getLE l 8 8), locOffset := BitVec.ofNat 40 (getLE l 16 5),
    locNode := BitVec.ofNat 24 (getLE l 21 3), size := BitVec.ofNat 3 (getLE l 24 1), tag := BitVec.ofNat 32 (getLE l 25 4), ovf := false, moved := false }

def DirEnt.same (a b : DirEnt) : Bool := a.keyLo == b.keyLo && a.keyHi == b.keyHi

def noEntry : List Byte := List.replicate 32 0

/-- An entry as an INSERT stores it: while a rehash moves the entries, under the new seed (R265). -/
def Hw.dirNew (h : Hw) (e : DirEnt) : DirEnt := { e with moved := (h.rehashing .dirRehash).isSome }

/-- Where an INSERT would be placed: in its bucket, in its C-die's overflow store, or nowhere. While a rehash moves the entries, it leaves
room for every entry that is still to move. (DESIGN CHOICE log entry 44.) -/
def Hw.dirPlace (h : Hw) (e : DirEnt) : Option Bool :=
  let b := h.entBucket (h.dirNew e)
  match h.rehashing .dirRehash with
  | none =>
    if (h.bucketEnts b).length < 4 then some false
    else if (h.ovfEnts b).length < 16384 then some true
    else none
  | some seed =>
    if bucketsFit (b :: h.gon.dir.map fun x => dirBucket x.keyHi x.keyLo seed) 4 16384 then
      some (decide (4 ≤ ((h.bucketEnts b).filter fun x => x.moved).length))
    else none

/-- The C-dies whose buckets an operation on a key reads: the bucket's, and while a rehash moves the entries the one under the new seed. -/
def Hw.dirDies (h : Hw) (e : DirEnt) : List Nat := [h.entBucket e % 4, h.entBucket (h.dirNew e) % 4].dedup

/-- What the bucket and the overflow store answer to an operation of R208: STATUS and the entry returned. -/
def Hw.dirApply (h : Hw) (op : Nat) (e : DirEnt) : (Nat × List Byte) × Hw :=
  let found := h.gon.dir.find? e.same
  match op, found with
  | 1, some x => ((0, x.bytes), h)
  | 2, some x => ((8, x.bytes), h)
  | 2, none =>
    match h.dirPlace e with
    | none => ((9, noEntry), h.count (4 + h.entBucket e % 4) 0x125 0 1)
    | some o =>
      let x := { h.dirNew e with ovf := o }
      ((0, x.bytes), { h with gon := { h.gon with dir := h.gon.dir ++ [x] } })
  | 3, some x => ((0, x.bytes), { h with gon := { h.gon with dir := h.gon.dir.map fun y => if e.same y then { e with ovf := y.ovf, moved := y.moved } else y } })
  | 4, some x =>
    if e.tag ≠ 0 ∧ e.tag ≠ x.tag then ((10, x.bytes), h)
    else ((0, x.bytes), { h with gon := { h.gon with dir := h.gon.dir.filter fun y => !e.same y } })
  | _, _ => ((7, noEntry), h)

/-- An operation of R208 on this chip's directory, its conditions in the order of R399; `whole` says that the request carries a whole
entry, and `err` is what it finds amiss in the bucket it reads. -/
def Hw.dirDo (h : Hw) (op : Nat) (e : DirEnt) (whole : Bool) (err : DirErr) : (Nat × List Byte) × Hw :=
  if h.bit .gondolaCfg Fld.gondolaCfg_enable = false ∨ (h.dirDies e).all h.memServes = false then ((6, noEntry), h)
  else if whole = false ∨ op = 0 ∨ 4 < op then ((3, noEntry), h)
  else if (op = 2 ∨ op = 3) ∧ e.locOffset.toNat % 16384 ≠ 0 then ((2, noEntry), h)
  else (h.dirError (h.entBucket e) err).dirApply op e

/-- DIR_CMD: the operation of a DIR_REQ by command (R265, item 7). One whose C-die the hub does not reach completes with UNREACHABLE
(R256). -/
def Hw.cmdDir (h : Hw) (op : Nat) (e : DirEnt) (err : DirErr) : CmdEnd × Hw :=
  if (h.dirDies e).any fun c => h.err.hubLost.get c then (.fail 0x0a, h)
  else
    let x := h.dirDo op e true err
    ({ status := if x.1.1 = 0 then 0 else 0x40 + x.1.1, result := 0, data := x.1.2 }, x.2)

/-- DIR_REQ_RECEIVE (R208). -/
def Hw.dirReq (h : Hw) (p : Nat) (e : DirErr) : Hw :=
  match h.takeRoom p 0x4a (fun _ => some 6) (fun _ => 32) (fun x => h.dirDies (dirEntOf x.frame.payload)) with
  | (none, h) => h
  | (some x, h) =>
    let h := h.consumed x
    let d := x.hdr
    let ent := dirEntOf x.frame.payload
    let b := h.entBucket ent
    if d.src = linkLocal then h.noSource (portDie p)
    else
      match h.serveEcc (4 + b % 4) 6 with
      | (true, h) => h
      | (false, h) =>
        let (r, h) := h.dirDo (d.opData.toNat / 2 ^ 60) ent (d.plen == 32) e
        h.answer (b % 4) (portDie p) d 0x4b 6 r.1 0 0 r.2

def execDirReqReceive (p : Port) (e : DirErr) (s : State) : Host.Outcome State Fault Refusal := .next (s.onHw fun h => h.dirReq p e)

/-! ### Atomics (R210 to R214) -/

/-- The record die of a requester (R211). -/
def recDie (n : Node) : Nat := (n ^^^ (n >>> 8) ^^^ (n >>> 16)).toNat % 4

def Hw.atomRec (h : Hw) (n : Node) : Option AtomRec := h.gon.recs.find? fun r => r.requester == n
def Hw.setAtomRec (h : Hw) (r : AtomRec) : Hw :=
  { h with gon := { h.gon with recs := r :: h.gon.recs.filter fun x => x.requester != r.requester } }

/-- What atomic_admit answers (R212). -/
inductive Admit where
  | stale
  | replay (slot : AtomSlot)
  | wait
  | apply (r : AtomRec)
deriving DecidableEq, Repr

/-- atomic_admit of R212. -/
def atomicAdmit (r : AtomRec) (s : BitVec 32) : Admit :=
  let d := (r.high - s).toNat
  let put (r : AtomRec) : AtomRec := { r with slots := aput (s.toNat % 1024) ⟨s, false, 0, 0⟩ r.slots }
  if 2 ^ 31 ≤ d then .apply (put { r with poisoned := false, high := s })
  else if r.poisoned ∨ 1024 ≤ d then .stale
  else match aget (s.toNat % 1024) r.slots with
    | some k => if k.seq = s then (if k.done then .replay k else .wait) else .apply (put r)
    | none => .apply (put r)

/-- ATOMIC_RESP (R210). -/
def Hw.atomResp (h : Hw) (q : Nat) (d : VHdr) (status : Nat) (old : W64) (replayed : Bool) : Hw :=
  h.answer (recDie d.src) q d 0x45 6 status d.roff (if replayed then 0x8000000000000000 else 0)
    (bytesLE 8 (if status = 0 then old.toNat else 0))

/-- A record for requester `n`: its own, a new one, or the least recently used one that has been idle long enough (R213). -/
def Hw.recordFor (h : Hw) (n : Node) (s : BitVec 32) : Option (AtomRec × Bool × Hw) :=
  let die := recDie n
  let now := h.slot die
  let fresh : AtomRec := { die := die, requester := n, high := s, slots := [], poisoned := false, lastUse := now }
  match h.atomRec n with
  | some r => some ({ r with lastUse := now }, false, h)
  | none =>
    let mine := h.gon.recs.filter fun r => r.die == die
    if mine.length < 16384 then some (fresh, true, h)
    else
      let old := mine.foldl (fun (b : Option AtomRec) r =>
        match b with | none => some r | some x => if r.lastUse < x.lastUse then some r else some x) none
      match old with
      | some r =>
        if r.lastUse + slotsMs * h.fld .gondolaCfg Fld.gondolaCfg_atomIdleMs ≤ now then
          some (fresh, true, { h with gon := { h.gon with recs := h.gon.recs.filter fun x => x.requester != r.requester } })
        else none
      | none => none

/-- The word of a request is neither parked nor in reset. -/
def Hw.wordServes (h : Hw) (d : VHdr) : Bool := h.memServes (offQuad d.roff.toNat) && h.memServes (recDie d.src)

/-- ATOMIC_REQ_RECEIVE (R212). `e` is what ECC-72 finds as the requester's record is read. -/
def Hw.atomReq (h : Hw) (p : Nat) (e : HbmErr) : Hw :=
  match h.takeRoom p 0x44 (fun _ => some 6) (fun _ => 8) (fun x => [recDie x.hdr.src, offQuad x.hdr.roff.toNat]) with
  | (none, h) => h
  | (some x, h) =>
    let h := h.consumed x
    let d := x.hdr
    let q := portDie p
    let die := recDie d.src
    if d.src = linkLocal then h.noSource q
    else
      match h.serveEcc (4 + die) 6 with
      | (true, h) => h
      | (false, h) =>
        if h.bit .gondolaCfg Fld.gondolaCfg_enable = false ∨ h.wordServes d = false then h.atomResp q d 6 0 false
        else match (h.recError die (h.atomRec d.src) e).recordFor d.src d.seq with
          | none => h.atomResp q d 6 0 false
          | some (r, new, h) =>
            let a := if new then Admit.apply { r with slots := [(d.seq.toNat % 1024, ⟨d.seq, false, 0, 0⟩)] } else atomicAdmit r d.seq
            match a with
            | .stale => ((h.setAtomRec r).count (4 + die) 0x128 0 1).atomResp q d 5 0 false
            | .replay k => ((h.setAtomRec r).count (4 + die) 0x127 0 1).atomResp q d k.status k.old true
            | .wait =>
              let add (y : AtomReq) : AtomReq :=
                if y.hdr.src = d.src ∧ y.hdr.seq = d.seq then { y with waiters := y.waiters ++ [(d, p)] } else y
              let h := h.setAtomRec r
              { h with gon := { h.gon with atomQ := h.gon.atomQ.map add } }
            | .apply r =>
              let h := h.setAtomRec r
              { h with gon := { h.gon with atomQ := h.gon.atomQ ++ [⟨d, x.frame.payload, p, false, []⟩] } }

def execAtomicReqReceive (a : AtomIn) (s : State) : Host.Outcome State Fault Refusal := .next (s.onHw fun h => h.atomReq a.port a.err)

/-- The outcome is stored in the slot and answered, waiting retries with REPLAYED = 1 (R212). A record that is lost answers
nothing: its die sends the response. Each answer is charged to the P-die where its request arrived (R99). (DEDUCED log entry 38.) -/
def Hw.atomDone (h : Hw) (y : AtomReq) (status : Nat) (old : W64) : Hw :=
  let d := y.hdr
  match h.atomRec d.src with
  | none => h
  | some r =>
    let i := d.seq.toNat % 1024
    match aget i r.slots with
    | none => h
    | some k =>
      if k.seq ≠ d.seq then h
      else
        let h := h.setAtomRec { r with slots := aput i { k with done := true, status := status, old := old } r.slots }
        let h := h.atomResp (portDie y.port) d status old false
        y.waiters.foldl (fun h w => (h.count (4 + r.die) 0x127 0 1).atomResp (portDie w.2) w.1 status old true) h

/-- The slot of a request that was discarded at the execution die is emptied, so that a retry applies it (R318). -/
def Hw.atomForget (h : Hw) (d : VHdr) : Hw :=
  match h.atomRec d.src with
  | some r => h.setAtomRec { r with slots := adel (d.seq.toNat % 1024) r.slots }
  | none => h

/-- The new word of an operation (R210). (DEDUCED log entry 38.) -/
def atomicNew (op : Nat) (old a c : W64) : W64 :=
  match op with
  | 1 => old + a
  | 2 => a
  | _ => if old = c then a else old

/-- ATOMIC_EXECUTE (R211): the admitted request `seq` of `requester`; requests on one word run in the order they came. (DEDUCED log entry 37.) -/
def State.atomExec (s : State) (n : Node) (seq : BitVec 32) (e : HbmErr) : State :=
  match s.hw.gon.atomQ.find? fun y => y.hdr.src == n && y.hdr.seq == seq with
  | none => s
  | some y =>
    let d := y.hdr
    let off := d.roff.toNat
    let op := d.opData.toNat / 2 ^ 60
    let first := s.hw.gon.atomQ.find? fun z => z.hdr.roff == d.roff
    let die := recDie d.src
    if first ≠ some y ∨ s.hw.pathBoth die (offQuad off) = false ∨ s.hw.pathUp die (portDie y.port) = false then s
    else
      let s := s.onHw fun h => { h with gon := { h.gon with atomQ := h.gon.atomQ.erase y } }
      match s.hw.serveEcc (4 + offQuad off) 6 with
      | (true, h) => { s with hw := h.atomForget d }
      | (false, h) =>
        let s := { s with hw := h }
        if d.plen ≠ 16 ∨ op = 0 ∨ 3 < op then s.onHw fun h => h.atomDone y 3 0
        else if off % 8 ≠ 0 then s.onHw fun h => h.atomDone y 2 0
        else if s.hw.inWindow off 8 = false then s.onHw fun h => h.atomDone y 1 0
        else if y.lost then s.onHw fun h => h.atomDone y 4 0
        else
          match s.readExport off 8 e with
          | (none, s) => s.onHw fun h => h.atomDone y 4 0
          | (some l, s) =>
            let old : W64 := BitVec.ofNat 64 (natLE l)
            let new := atomicNew op old (BitVec.ofNat 64 (getLE y.body 0 8)) (BitVec.ofNat 64 (getLE y.body 8 8))
            (s.writeExport off (bytesLE 8 new.toNat) .none).2.onHw fun h => h.atomDone y 0 old

def execAtomicExecute (requester : Node) (seq : BitVec 32) (e : HbmErr) (s : State) : Host.Outcome State Fault Refusal :=
  .next (s.atomExec requester seq e)

/-- A quadrant's memory, directory buckets and atomic records are lost with its reset (R212, R219). -/
def State.loseQuad (s : State) (q : Nat) : State :=
  (s.wipeQuad q).onHw fun h =>
    let mark (y : AtomReq) : AtomReq := if offQuad y.hdr.roff.toNat = q then { y with lost := true } else y
    { h with gon := { h.gon with dir := h.gon.dir.filter fun e => h.entBucket e % 4 != q,
                                 recs := h.gon.recs.filter fun r => r.die != q, atomQ := h.gon.atomQ.map mark } }

end Sys2Proof.Machine
end

