-- ==== Sys2Proof/Machine/Copy.lean ====
section
/-! DEFINITION. The copy engines: copy descriptors, their turns and segments, and the frames they send and take (R200 to R205). -/

namespace Sys2Proof.Machine

/-- How a copy ends: a code of R199, or a status of the host interface (0x05 and 0x06 of R266). -/
inductive CopyEnd where
  | code (n : Nat)
  | host (n : Nat)
deriving DecidableEq, Repr

def CopyDesc.cls (d : CopyDesc) : Nat := if d.cls6 then 6 else 5
def CopyDesc.isHost (d : CopyDesc) : Bool := match d.from_ with | .host _ _ => true | .fabric _ _ => false

def Hw.copy (h : Hw) (c id : Nat) : Option CopyDesc := (h.gon.copies.get c).find? fun d => d.id == id
def Hw.setCopy (h : Hw) (c : Nat) (d : CopyDesc) : Hw :=
  { h with gon := { h.gon with copies := h.gon.copies.set c ((h.gon.copies.get c).map fun x => if x.id = d.id then d else x) } }
def Hw.dropCopy (h : Hw) (c id : Nat) : Hw :=
  { h with gon := { h.gon with copies := h.gon.copies.set c ((h.gon.copies.get c).filter fun x => x.id != id) } }
def CopyDesc.setSeg (d : CopyDesc) (g : Seg) : CopyDesc := { d with segs := d.segs.map fun x => if x.off = g.off then g else x }

/-- COPY_DONE (R205); one that is for the chip itself is discarded and counted. -/
def Hw.sendCopyDone (h : Hw) (c : Nat) (req : VHdr) (notify : Node) (cls status : Nat) (tag : BitVec 32) (done : Nat) : Hw :=
  let h := h.count (4 + c) 0x120 status 1
  let dst := if notify = 0 then req.src else notify
  let d : W64 := BitVec.ofNat 64 (tag.toNat * 2 ^ 32 + done)
  let hd : VHdr := { VHdr.make cls 0x49 dst h.node with status := BitVec.ofNat 8 status, seq := req.seq, opData := d }
  if dst = h.node then h.count (4 + c) 0x122 0 1 else h.originate c hd []

/-- A copy ends: COPY_DONE, or the completion of its host descriptor (R205, R266). -/
def Hw.endCopy (h : Hw) (c : Nat) (d : CopyDesc) (e : CopyEnd) : Hw :=
  let h := h.dropCopy c d.id
  match d.from_ with
  | .fabric req notify => h.sendCopyDone c req notify d.cls (match e with | .code n => n | .host n => n) d.tag d.prefixDone
  | .host _ ix =>
    match h.hst.started.find? fun x => x.ix == ix with
    | some x => h.finish x (match e with | .code 0 => 0 | .code n => 0x40 + n | .host n => n) d.prefixDone
    | none => h

/-- Segments done at the front become the prefix done in order. -/
def trimSegs : List Seg → Nat → List Seg × Nat
  | [], n => ([], n)
  | g :: l, n => if g.st = .done then trimSegs l (n + g.len) else (g :: l, n)

def CopyDesc.trim (d : CopyDesc) : CopyDesc :=
  let t := trimSegs d.segs d.prefixDone
  { d with segs := t.1, prefixDone := t.2 }

/-- Bytes that an engine moves in one turn (R203). -/
def turnBytes : Nat := 262144

/-- The engine of a turn whose bytes are all done is free again. -/
def CopyDesc.release (d : CopyDesc) : CopyDesc :=
  match d.turn with
  | some f => if d.segs = [] ∧ turnBytes ≤ d.cut - f then { d with turn := none } else d
  | none => d

/-- Store a descriptor whose segments have moved on; a copy whose every segment is done ends (R202). -/
def Hw.putCopy (h : Hw) (c : Nat) (d : CopyDesc) : Hw :=
  let d := d.trim
  if d.cut = d.len ∧ d.segs = [] then h.endCopy c d (.code 0) else h.setCopy c d.release

/-- What one step of a segment answers: go on, wait for room or for another segment, or end the copy. -/
inductive SegRes where
  | ok (g : Seg) (s : State)
  | wait (s : State)
  | fail (e : CopyEnd) (s : State)

/-- Send the request frame of a segment in the copy's class, if the buffer of P-die `c` admits it (R99). (DEDUCED log entry 38.) -/
def sendSeg (s : State) (c : Nat) (d : CopyDesc) (g : Seg) (write : Bool) (fresh : Bool) : Option (Seg × State) :=
  let h := s.hw
  if h.mayOriginate c = false ∨ h.admits c d.cls (vframeLen (if write then g.len else 0)) = false then none
  else
    let seq := if fresh then h.gon.nextSeq else g.seq
    let h := if fresh then { h with gon := { h.gon with nextSeq := h.gon.nextSeq + 1 } } else h
    let (v, h) := if write then (0, h) else h.draw
    let hd : VHdr :=
      if write then { VHdr.make d.cls 0x40 d.dstNode h.node with roff := BitVec.ofNat 40 (d.dstOff + g.off), seq := seq, opData := 0x8000000000000000 }
      else { VHdr.make d.cls 0x41 d.srcNode h.node with roff := BitVec.ofNat 40 (d.srcOff + g.off), seq := seq,
                                                        opData := BitVec.ofNat 64 (v.toNat % 2 ^ 40 * 2 ^ 24 + g.len) }
    some ({ g with seq := seq, st := if write then .writing else .reading, sentAt := h.slot c },
      { s with hw := h.originate c hd (if write then g.data else []) })

/-- The copy engine of C-die `c` reaches the stacks of `n` exported bytes (R33). -/
def Hw.reaches (h : Hw) (c off n : Nat) : Bool := (reqQuads off n).all fun q => h.pathBoth c q

/-- Read the source of a segment: host memory, this chip's memory, or another node. `dma` is what host memory gave for the segment. -/
def readSeg (s : State) (c : Nat) (d : CopyDesc) (g : Seg) (e : HbmErr) (dma : Option (List Byte)) : SegRes :=
  let whole := d.kind == .toHost
  match d.kind with
  | .fromHost =>
    match dma with
    | some l => if l.length < g.len then .fail (.host 5) s else .ok { g with st := .held, data := l.take g.len } s
    | none => .fail (.host 5) s
  | _ =>
    if whole || d.srcNode == s.hw.node then
      if !s.hw.reaches c (d.srcOff + g.off) g.len then .wait s
      else
        let st := s.hw.memStatus (d.srcOff + g.off) g.len whole
        if st ≠ 0 then .fail (.code st) s
        else
          match s.readExport (d.srcOff + g.off) g.len e with
          | (some l, s) => .ok { g with st := .held, data := l } s
          | (none, s) => .fail (.code 4) s
    else
      match sendSeg s c d g false true with
      | some (g, s) => .ok g s
      | none => .wait s

/-- Write a segment that is held: in ascending order, the last one after every other under LAST_AFTER_ACK (R202). -/
def writeSeg (s : State) (c : Nat) (d : CopyDesc) (g : Seg) (e : HbmErr) : SegRes :=
  let before := d.segs.filter fun x => decide (x.off < g.off)
  let ready (x : Seg) : Bool := x.st == .done || (x.st == .writing && !(d.lastAfterAck && decide (g.off + g.len = d.len)))
  if !before.all ready then .wait s
  else
    let fin (s : State) : SegRes := .ok { g with st := .done, data := [] } (s.onHw fun h => h.count (4 + c) 0x12b 0 ((g.len + 63) / 64))
    match d.kind with
    | .toHost =>
      let r := match d.from_ with | .host r _ => r | .fabric _ _ => 0
      fin (s.onHw fun h => h.emit (.hostWrite r (d.hostAddr.toNat + g.off) g.data))
    | k =>
      if k = .fromHost ∨ d.dstNode = s.hw.node then
        if !s.hw.reaches c (d.dstOff + g.off) g.len then .wait s
        else
          let st := s.hw.memStatus (d.dstOff + g.off) g.len (k == .fromHost)
          if st ≠ 0 then .fail (.code st) s
          else
            match s.writeExport (d.dstOff + g.off) g.data e with
            | (false, s) => fin s
            | (true, s) => .fail (.code 4) s
      else
        match sendSeg s c d g true true with
        | some (g, s) => .ok g s
        | none => .wait s

/-- Move copy `id` on at its segment `off`: the read, then the write of a segment that is held; false: nothing more can be done now. -/
def segGo (s : State) (c id off : Nat) (e : HbmErr) (dma : Option (List Byte)) : Bool × State :=
  match s.hw.copy c id with
  | none => (false, s)
  | some d =>
    match d.segs.find? fun g => g.off == off with
    | none => (true, s)
    | some g =>
      let r := if g.st = .todo then readSeg s c d g e dma else .ok g s
      match r with
      | .wait s => (false, s)
      | .fail x s => (false, s.onHw fun h => h.endCopy c d x)
      | .ok g s =>
        let d := d.setSeg g
        if g.st = .held then
          match writeSeg s c d g (if d.kind = .fromHost then e else .none) with
          | .wait s => (true, s.onHw fun h => h.putCopy c d)
          | .fail x s => (false, s.onHw fun h => h.endCopy c d x)
          | .ok g s => (true, s.onHw fun h => h.putCopy c (d.setSeg g))
        else (true, s.onHw fun h => h.putCopy c d)

/-- Every segment cut so far, in ascending order, as far as it can go. -/
def pumpSegs (s : State) (c id : Nat) (e : HbmErr) : List Nat → Bool × State
  | [] => (true, s)
  | off :: l =>
    match segGo s c id off e none with
    | (true, s) => pumpSegs s c id .none l
    | (false, s) => (false, s)

def State.pumpCopy (s : State) (c id : Nat) (e : HbmErr) : Bool × State :=
  match s.hw.copy c id with
  | none => (false, s)
  | some d => pumpSegs s c id e (d.segs.map fun g => g.off)

/-! ### A turn (R203) -/

/-- Cut and move new segments while the turn's bytes last. `host` is where the data that host memory gave begins in the copy. -/
def cutSegs (s : State) (c id host : Nat) (e : HbmErr) (dma : Option (List Byte)) : Nat → State
  | 0 => s
  | n + 1 =>
    match s.hw.copy c id with
    | none => s
    | some d =>
      let room := turnBytes - (d.cut - d.turn.getD 0)
      if d.cut = d.len ∨ room = 0 ∨ d.turn = none then s
      else
        let len := min (min (8192 - (d.dstOff + d.cut) % 8192) (d.len - d.cut)) room
        let g : Seg := { off := d.cut, len := len, st := .todo, seq := 0, data := [], reissues := 0, sentAt := 0 }
        let s := s.onHw fun h => h.setCopy c { d with cut := d.cut + len, segs := d.segs ++ [g] }
        match segGo s c id g.off e (dma.map fun l => l.drop (g.off - host)) with
        | (true, s) => cutSegs s c id host .none dma n
        | (false, s) => s

/-- A descriptor may move now: those that use host memory wait while the chip may start no request, or while the hub path of their C-die is
lost (R252, R256, R275). -/
def Hw.copyMay (h : Hw) (c : Nat) (d : CopyDesc) : Bool :=
  d.kind == .copy || d.cancelled || (h.hst.mayRequest && !h.err.hubLost.get c)

/-- Engines of a C-die (R203). -/
def copyEngines : Nat := 32

/-- An engine of C-die `c` holds the descriptor, or one is free for it. (DEDUCED log entry 38.) -/
def Hw.engineFor (h : Hw) (c : Nat) (d : CopyDesc) : Bool :=
  d.turn.isSome || d.cancelled || decide (((h.gon.copies.get c).filter fun x => x.turn.isSome).length < copyEngines)

/-- The next descriptor of C-die `c`: host and fabric descriptors are taken alternately. -/
def Hw.nextCopy (h : Hw) (c : Nat) : Option CopyDesc :=
  let l := (h.gon.copies.get c).filter fun d => h.copyMay c d && h.engineFor c d
  let want := h.gon.fabricTurn.get c
  match l.find? fun d => d.isHost != want with
  | some d => some d
  | none => l.head?

/-- COPY_ENGINE_TURN (R203): an engine of C-die `c` goes on with the turn of the next descriptor, or begins it; the descriptor then waits
behind the others. An engine holds its descriptor until the turn's bytes are all done. (DEDUCED log entry 38.) -/
def State.copyTurn (s : State) (c : Nat) (e : HbmErr) (dma : Option (List Byte)) : State :=
  if s.hw.quadOk c = false ∨ s.hw.parked c = true then s
  else
    match s.hw.nextCopy c with
    | none => s
    | some d =>
      let t : CopyDesc := { d with turn := d.turn.or (some d.cut) }
      let s := s.onHw fun h =>
        let g := h.gon
        let rest := (g.copies.get c).filter fun x => x.id != d.id
        { h with gon := { g with copies := g.copies.set c (rest ++ [t]), fabricTurn := g.fabricTurn.set c d.isHost } }
      if d.cancelled then s.onHw fun h => h.endCopy c t (.host 6)
      else
        match s.pumpCopy c d.id e with
        | (true, s) => cutSegs s c d.id d.cut (if d.segs.isEmpty then e else .none) dma 34
        | (false, s) => s

def execCopyEngineTurn (c : Quad) (e : HbmErr) (dma : Option (List Byte)) (s : State) : Host.Outcome State Fault Refusal :=
  .next (s.copyTurn c e dma)

/-! ### Responses (R204) -/

/-- The outstanding segment that a response answers. -/
def Hw.copyFor (h : Hw) (c : Nat) (src : Node) (seq : BitVec 32) (write : Bool) : Option (CopyDesc × Seg) :=
  let want := if write then SegState.writing else .reading
  (h.gon.copies.get c).findSome? fun d =>
    if (if write then d.dstNode else d.srcNode) ≠ src then none
    else (d.segs.find? fun g => g.seq == seq && g.st == want).map fun g => (d, g)

/-- The C-die whose copy a response answers. -/
def Hw.copyDie (h : Hw) (src : Node) (seq : BitVec 32) (write : Bool) : Option Nat :=
  (List.range 4).find? fun c => (h.copyFor c src seq write).isSome

/-- DEDUCED log entry 37. -/
def State.copyResp (s : State) (p : Nat) (write : Bool) : State :=
  match s.hw.takeFrame p [if write then 0x43 else 0x42] with
  | (none, h) => { s with hw := h }
  | (some x, h) =>
    let h := h.consumed x
    let d := x.hdr
    let miss : State := { s with hw := h.count (4 + portDie p) 0x122 0 1 }
    match h.copyDie d.src d.seq write with
    | none => miss
    | some c =>
      match h.copyFor c d.src d.seq write with
      | none => miss
      | some (k, g) =>
        if d.status ≠ 0 then { s with hw := h.endCopy c k (.code d.status.toNat) }
        else if write = false ∧ d.plen.toNat ≠ g.len then miss
        else
          let g' : Seg := if write then { g with st := .done, data := [] } else { g with st := .held, data := x.frame.payload }
          let h := if write then h.count (4 + c) 0x12b 0 ((g.len + 63) / 64) else h
          (State.pumpCopy { s with hw := h.putCopy c (k.setSeg g') } c k.id .none).2

/-- MEM_READ_RESP_RECEIVE. -/
def execMemReadRespReceive (p : Port) (s : State) : Host.Outcome State Fault Refusal := .next (s.copyResp p false)

/-- MEM_WRITE_ACK_RECEIVE. -/
def execMemWriteAckReceive (p : Port) (s : State) : Host.Outcome State Fault Refusal := .next (s.copyResp p true)

/-- COPY_RETRY_TIMEOUT: the oldest overdue segment of copy `id` is sent again, or the copy ends with TIMEOUT. -/
def State.copyRetry (s : State) (c id : Nat) : State :=
  match s.hw.copy c id with
  | none => s
  | some d =>
    let h := s.hw
    let limit := slotsMs * h.fld .gondolaCfg Fld.gondolaCfg_copyRetryMs
    match d.segs.find? fun g => (g.st == .reading || g.st == .writing) && decide (g.sentAt + limit ≤ h.slot c) with
    | none => s
    | some g =>
      if 2 ≤ g.reissues then s.onHw fun h => h.endCopy c d (.code 11)
      else
        match sendSeg s c d g (g.st == .writing) false with
        | none => s
        | some (g, s) => s.onHw fun h => (h.setCopy c (d.setSeg { g with reissues := g.reissues + 1 })).count (4 + c) 0x124 0 1

def execCopyRetryTimeout (c : Quad) (id : Nat) (s : State) : Host.Outcome State Fault Refusal := .next (s.copyRetry c id)

/-! ### COPY_REQ (R200, R201) -/

/-- The copy of a descriptor (R200). -/
def copyOf (l : List Byte) (id : Nat) (who : CopyFrom) : CopyDesc :=
  { id := id, from_ := who, kind := .copy, lastAfterAck := bits (getLE l 2 1) 0 1 == 1, cls6 := bits (getLE l 2 1) 1 1 == 1,
    tag := BitVec.ofNat 32 (getLE l 4 4), srcNode := BitVec.ofNat 24 (getLE l 13 3), srcOff := getLE l 8 5,
    dstNode := BitVec.ofNat 24 (getLE l 21 3), dstOff := getLE l 16 5, len := getLE l 24 4, hostAddr := 0, cut := 0, segs := [],
    prefixDone := 0, cancelled := false, turn := none }

/-- A descriptor joins the ones held by C-die `c`. (DEDUCED log entry 38.) -/
def Hw.addCopy (h : Hw) (c : Nat) (d : CopyDesc) : Hw :=
  { h with gon := { h.gon with copies := h.gon.copies.set c (h.gon.copies.get c ++ [{ d with id := h.gon.nextCopy }]),
                               nextCopy := h.gon.nextCopy + 1 } }

/-- COPY_REQ_RECEIVE. -/
def Hw.copyReq (h : Hw) (p : Nat) : Hw :=
  let c := portDie p
  match h.buf.taken.find? fun x => x.port == p && x.hdr.opcode == 0x48 with
  | none => h
  | some x =>
    let body := x.frame.payload
    let d := copyOf body 0 (.fabric x.hdr (BitVec.ofNat 24 (getLE body 32 3)))
    if h.admits c d.cls (vframeLen 0) = false then h
    else
      match h.takeFrame p [0x48] with
      | (none, h) => h
      | (some x, h) =>
        let h := h.consumed x
        if x.hdr.src = linkLocal then h.noSource c
        else
          match h.serveEcc (4 + c) x.hdr.tc.toNat with
          | (true, h) => h
          | (false, h) =>
            let notify : Node := BitVec.ofNat 24 (getLE body 32 3)
            let turnAway (st : Nat) : Hw := h.sendCopyDone c x.hdr notify d.cls st d.tag 0
            if h.bit .gondolaCfg Fld.gondolaCfg_enable = false ∨ 4096 ≤ (h.gon.copies.get c).length then
              (turnAway 6).count (4 + c) 0x129 0 1
            else if x.hdr.plen ≠ 64 ∨ getLE body 0 2 ≠ 0 ∨ d.len = 0 then turnAway 3
            else h.addCopy c d

def execCopyReqReceive (p : Port) (s : State) : Host.Outcome State Fault Refusal := .next (s.onHw fun h => h.copyReq p)

end Sys2Proof.Machine
end

