-- ==== Sys2Proof/Machine/Light.lean ====
section
/-! DEFINITION. Link states, training, LINK_STATE, narrowing (R224 to R238), venting of ports (R88 to R90) and circuits (R91 to R93). -/

namespace Sys2Proof.Machine

/-! ### Link states (R229) -/

/-- PORT_LINK.STATE changes: the LINK host event and the octet's interrupt source (R271, R283). -/
def Hw.setLinkState (h : Hw) (n st : Nat) : Hw :=
  if h.linkState n = st then h
  else ((h.setFld (.portLink n) Fld.portLink_state st).hostEvent 10).icEvent (128 + n / 8)

/-- All lanes of a port as a mask. -/
def Hw.fullMask (h : Hw) (n : Nat) : Nat := 2 ^ h.portLanes n - 1

def Hw.setMasks (h : Hw) (n tx rx : Nat) : Hw :=
  (h.setFld (.portLink n) Fld.portLink_txMask tx).setFld (.portLink n) Fld.portLink_rxMask rx

/-- The circuit of a port, if one is not OFF. -/
def Hw.circuitOn (h : Hw) (n : Nat) : Option Nat := h.circuits.find? fun i => h.circuitPort i == n

/-- LIVE or VENTING goes DOWN with the loss of the link (R93); leaving LIVE is a re-route. -/
def Hw.circuitLost (h : Hw) (n : Nat) : Hw :=
  match h.circuitOn n with
  | none => h
  | some i =>
    let st := h.circuitState i
    if st = 1 ∨ st = 2 then
      let h := ((h.setFld (.circuitCtl i) Fld.circuitCtl_state 5).hostEvent 5).icEvent 84
      if st = 1 then h.reroute [rackKey (h.fld (.circuitMap i) Fld.circuitMap_remoteRack)] else h
    else h

/-- A LINK_STATE frame of port `n`, which its MAC sends past queues and scheduler (R234); egress mirror sessions see it in TC1. (DEDUCED log entry 25.) -/
def Hw.sendLinkState (h : Hw) (n : Nat) : Hw :=
  if !h.oslux n || h.fatalChip || h.fatalQ (portDie n) then h
  else
    let l := h.link n
    let b (v : Bool) (k : Nat) : Nat := if v then k else 0
    let data := (1 + b (h.retryOn n) 2 + b (h.bit (.octetCfg (n / 8)) Fld.octetCfg_narrowEn) 4) * 2 ^ 56 +
      h.fld (.portLink n) Fld.portLink_rxMask * 2 ^ 52 + h.fld (.portLink n) Fld.portLink_txMask * 2 ^ 48 +
      b (h.linkState n == 4) (2 ^ 47) + b (h.bit (.portLink n) Fld.portLink_retryHeld) (2 ^ 46) + l.rxNext.toNat * 2 ^ 26 + n
    let f := stampSource n (h.vframe { VHdr.make 1 0x74 linkLocal h.srcNode with seq := l.lsSeq, opData := BitVec.ofNat 64 data } [])
    let h := (h.frameOut n (h.preamble n l.txSeq true) f).preambleSent n true
    let h := h.setLink n { h.link n with lsSeq := l.lsSeq + 1, lsAt := h.slot (portDie n) }
    h.mirrors n 1 1 f

/-! ### Calibration: the store and the live values (R11, R227, R246, R247) -/

/-- CAL_LANE[n]: taps, then bias, gain and VALID. A record never written has VALID = 1 and zeros. (DESIGN CHOICE log entry 2.) -/
def Nv.calOf (v : Nv) (n : Nat) : W64 × W64 := (aget n v.calLane).getD (0, 0x8000000000000000)
/-- CAL_FLOOR[j]. (DESIGN CHOICE log entry 2.) -/
def Nv.calFloorOf (v : Nv) (j : Nat) : W64 := (aget j v.calFloor).getD 0x8000000000000000
def calValid (w : W64) : Bool := w.getLsbD 63

/-- Every lane of port `n` has a valid stored record (R229). -/
def Hw.calReady (h : Hw) (v : Nv) (n : Nat) : Bool := (List.range (h.portLanes n)).all fun i => calValid (v.calOf (n + i)).2

/-- LIVE_LANE[n] and LIVE_FLOOR[j]: the record that a reset loaded, until a loop, a training or a command changes it. -/
def Hw.liveOf (h : Hw) (v : Nv) (n : Nat) : W64 × W64 := (aget n h.lgt.liveLane).getD (v.calOf n)
def Hw.liveFloorOf (h : Hw) (v : Nv) (j : Nat) : W64 := (aget j h.lgt.liveFloor).getD (v.calFloorOf j)

def Hw.setLive (h : Hw) (n : Nat) (w : W64 × W64) : Hw := { h with lgt := { h.lgt with liveLane := aput n w h.lgt.liveLane } }
def Hw.setLiveFloor (h : Hw) (j : Nat) (w : W64) : Hw := { h with lgt := { h.lgt with liveFloor := aput j w h.lgt.liveFloor } }

/-- CAL_INVALID: a record that fails its check is met when it is loaded (R246). (DESIGN CHOICE log entry 26.) -/
def Hw.calInvalid (h : Hw) (die unit : Nat) : Hw := h.record { code := 0x0207, die := die, unit := unit }

/-- The live values of these lanes come from the store again (R247). -/
def Hw.reloadLanes (h : Hw) (v : Nv) (ns : List Nat) : Hw :=
  (ns.filter fun n => !calValid (v.calOf n).2).foldl (fun h n => h.calInvalid (portDie n) n)
    { h with lgt := { h.lgt with liveLane := h.lgt.liveLane.filter fun x => !ns.contains x.1 } }

/-- The loops of a lane that carries light adapt its bias and gain: their present values are free, its taps stand (R227, R247).
(DESIGN CHOICE log entry 26.) -/
def Hw.adaptLane (h : Hw) (v : Nv) (n : Nat) : Hw :=
  if h.linkState (h.portOf n) = 0 then h
  else
    let (x, h) := h.draw
    let w := h.liveOf v n
    h.setLive n (w.1, (w.2 &&& 0xffffffffff000000) ||| (x &&& 0xffffff))

/-- A full training calibrates a lane from scratch: new taps, bias and gain, each a free value (R227, R229). (DESIGN CHOICE log entry 26.) -/
def Hw.calibrateLane (h : Hw) (n : Nat) : Hw :=
  let (x, h) := h.draw
  let (y, h) := h.draw
  h.setLive n (x &&& 0xffffffffffffff, (y &&& 0xffffff) ||| 0x8000000000000000)

/-- The lanes of port `n`. -/
def Hw.lanesOf (h : Hw) (n : Nat) : List Nat := (List.range (h.portLanes n)).map (n + ·)

/-- Training starts: from the stored calibration (RETRAINING) where it is asked for and every lane has a valid record, else in full
(TRAINING). A change of RX_MASK or RX_LOST is told to the peer (R234). -/
def Hw.startTraining (h : Hw) (v : Nv) (n : Nat) (fast : Bool) : Hw :=
  let h := if fast then h.reloadLanes v (h.lanesOf n) else h
  let fast := fast && h.calReady v n
  let told := h.fld (.portLink n) Fld.portLink_rxMask != 0 || h.linkState n == 4
  let h := h.count (portDie n) (if fast then 0x049 else 0x04a) n 1
  let h := h.setLinkState n (if fast then 2 else 1)
  let h := (h.setMasks n 0 0).setFld (.portLink n) Fld.portLink_peerOslux 0
  let h := h.setLink n { h.link n with since := h.slot (portDie n), lockAt := none, outAt := [] }
  if told then h.sendLinkState n else h

/-- Retry state is cleared (R229, R235). (DEDUCED log entry 25.) -/
def Hw.clearRetry (h : Hw) (n : Nat) : Hw :=
  (h.setLink n { h.link n with txSeq := 0, rxNext := 0, held := [], replayFrom := none, nakOut := false, nakAt := none,
                               resync := false, peerBefore := none }).setFld (.portLink n) Fld.portLink_retryHeld 0

/-- What follows when a port leaves UP: Bridles, eligible sets, circuits, and the frames toward it (R67, R93, R102, R150). (DEDUCED log entry 25.) -/
def Hw.leaveUp (h : Hw) (n : Nat) (f : Hw → Hw) : Hw :=
  if h.linkUp n then ((h.withPorts [n] f).circuitLost n).linkLoss n else f h

/-- UP to LOST: retry state is held and LINK_STATE with RX_LOST leaves on the working direction. -/
def Hw.toLost (h : Hw) (n : Nat) (dark : Bool) : Hw :=
  if !h.linkUp n then h
  else
    let h := h.leaveUp n fun h =>
      let l := h.link n
      let h := h.setLink n { l with since := h.slot (portDie n), peerBefore := l.peer, light := !dark }
      let h := (h.setLinkState n 4).setFld (.portLink n) Fld.portLink_retryHeld (if h.retryOn n then 1 else 0)
      if dark then h.setFld (.portLink n) Fld.portLink_rxMask 0 else h
    (h.count (portDie n) 0x048 n 1).sendLinkState n

/-- Any state to DOWN; a change of RX_MASK or RX_LOST is told to the peer. (DEDUCED log entry 25.) -/
def Hw.toDown (h : Hw) (n : Nat) : Hw :=
  let told := h.fld (.portLink n) Fld.portLink_rxMask != 0 || h.linkState n == 4
  let h := h.leaveUp n fun h => ((h.clearRetry n).setMasks n 0 0).setLinkState n 5
  if told then h.sendLinkState n else h

/-- Any state to DARK: transmitters dark, retry state cleared. -/
def Hw.toDark (h : Hw) (n : Nat) : Hw :=
  h.leaveUp n fun h =>
    let h := ((h.clearRetry n).setMasks n 0 0).setLinkState n 0
    let h := h.setFld (.portLink n) Fld.portLink_peerOslux 0
    h.setLink n { h.link n with light := false, lockAt := none, peer := none }

/-- Retry on the return to UP (R235): the same peer on both sides of the loss replays, any other clears. -/
def Hw.resumeRetry (h : Hw) (n : Nat) : Hw :=
  let l := h.link n
  match l.peerBefore, l.peer with
  | some a, some b =>
    if a.1 = b.1 ∧ a.2.1 = b.2.1 ∧ a.1 ≠ linkLocal then
      let l := l.acked (b.2.2 - 1)
      (h.setLink n { l with replayFrom := l.held.head?.map (·.lseq), peerBefore := none }).setFld (.portLink n)
        Fld.portLink_retryHeld 0
    else (h.retryLoss n l.held.length).clearRetry n
  | _, _ => (h.retryLoss n l.held.length).clearRetry n

/-- A circuit whose port comes up within its retrain goes LIVE (R93). -/
def Hw.circuitUp (h : Hw) (n : Nat) : Hw :=
  match h.circuitOn n with
  | none => h
  | some i =>
    if h.circuitState i = 4 then
      let ns := h.fld (.portLink n) Fld.portLink_trainNs
      let h := (h.setFld (.circuitCtl i) Fld.circuitCtl_state 1).setFld (.circuitCtl i) Fld.circuitCtl_retrainNs ns
      (h.ventNotice n 0 2).reroute [rackKey (h.fld (.circuitMap i) Fld.circuitMap_remoteRack)]
    else h

/-- The lanes of port `n` that may carry data: those not kept out (R237). -/
def Hw.goodLanes (h : Hw) (n : Nat) : Nat := h.fullMask n &&& (15 - (h.link n).stuck.toNat)

/-- Enough lanes work for the port to be UP: all of them, or with NARROW_EN = 1 some (R236). -/
def Hw.lanesSuffice (h : Hw) (n : Nat) : Bool :=
  h.goodLanes n == h.fullMask n || (h.bit (.octetCfg (n / 8)) Fld.octetCfg_narrowEn && h.goodLanes n != 0)

/-- The port enters UP (R229, R234, R235, R376). -/
def Hw.enterUp (h : Hw) (n : Nat) : Hw :=
  let q := portDie n
  let h := h.withPorts [n] fun h =>
    let l := h.link n
    let h := h.setFld (.portLink n) Fld.portLink_trainNs (min ((h.slot q - l.since) * 25 / 16) (2 ^ 32 - 1))
    let h := h.setMasks n (h.fullMask n) (h.goodLanes n)
    let h := (h.resumeRetry n).setFld (.portFwd n) Fld.portFwd_peerVent 0
    (h.setLink n { h.link n with light := true }).setLinkState n 3
  let h := ((h.sendLinkState n).overbook n).circuitUp n
  if h.fld .withdrawCtl Fld.withdrawCtl_state = 0 then h else h.ventNotice n 1 0

/-- Slots since the present training, loss or hold of a port began. -/
def Hw.linkAge (h : Hw) (n : Nat) : Nat := h.slot (portDie n) - (h.link n).since

/-- A link event finds the port present and its quadrant running. -/
def Hw.linkLive (h : Hw) (n : Nat) : Bool :=
  h.portStart n && !h.fatalChip && !h.fatalQ (portDie n) && !h.qdBusy (portDie n) && !h.parked (portDie n)

/-- The peer is capable: any peer of a 200G port, an Oslux 400 peer otherwise (R224, R225). -/
def Hw.capable (h : Hw) (n : Nat) : Bool := !h.oslux n || h.bit (.portLink n) Fld.portLink_peerOslux

/-- TRAINING_COMPLETE: FEC lock within the bound of R229 on lanes enough for the port to be UP; a full training has calibrated them.
LINK_STATE is exchanged, and a port whose peer is capable enters UP. (DEDUCED log entry 25.) -/
def Hw.trainingComplete (h : Hw) (n : Nat) : Hw :=
  let st := h.linkState n
  if h.linkLive n ∧ h.lanesSuffice n = true ∧ ((st = 1 ∧ h.linkAge n ≤ 50 * slotsMs) ∨ (st = 2 ∧ h.linkAge n ≤ 100 * slotsUs)) then
    let h := if st = 1 then (h.lanesOf n).foldl (fun h k => h.calibrateLane k) h else h
    let h := h.setLink n { h.link n with lockAt := some (h.slot (portDie n)), light := true }
    let h := (h.setMasks n (h.fullMask n) (h.goodLanes n)).sendLinkState n
    if h.capable n then h.enterUp n else h
  else h

def execTrainingComplete (p : Port) (s : State) : Host.Outcome State Fault Refusal := .next (s.onHw fun h => h.trainingComplete p)

/-- TRAIN_FAIL (R229). -/
def Hw.trainFail (h : Hw) (n : Nat) : Hw := h.record { code := 0x0202, die := portDie n, unit := n }

/-- TRAINING_TIMEOUT: 50 ms pass without success. -/
def Hw.trainingTimeout (h : Hw) (n : Nat) : Hw :=
  if h.linkLive n ∧ h.linkState n = 1 ∧ 50 * slotsMs ≤ h.linkAge n then (h.trainFail n).toDown n else h

def execTrainingTimeout (p : Port) (s : State) : Host.Outcome State Fault Refusal := .next (s.onHw fun h => h.trainingTimeout p)

/-- RETRAIN_TIMEOUT: 100 µs pass without FEC lock; full training follows. -/
def Hw.retrainTimeout (h : Hw) (v : Nv) (n : Nat) : Hw :=
  if h.linkLive n ∧ h.linkState n = 2 ∧ (h.link n).lockAt = none ∧ 100 * slotsUs ≤ h.linkAge n then h.startTraining v n false else h

def execRetrainTimeout (p : Port) (s : State) : Host.Outcome State Fault Refusal := .next (s.onHw fun h => h.retrainTimeout s.nv p)

/-- NO_OSLUX_PEER (R224): 1 ms after FEC lock no LINK_STATE with CAPS bit 0 has come. -/
def Hw.noOsluxPeer (h : Hw) (n : Nat) : Hw :=
  match (h.link n).lockAt with
  | none => h
  | some t =>
    if h.linkLive n ∧ h.oslux n = true ∧ (h.linkState n = 1 ∨ h.linkState n = 2) ∧ h.capable n = false ∧
        t + slotsMs ≤ h.slot (portDie n) then
      (h.record { code := 0x0201, die := portDie n, unit := n }).toDown n
    else h

def execNoOsluxPeer (p : Port) (s : State) : Host.Outcome State Fault Refusal := .next (s.onHw fun h => h.noOsluxPeer p)

/-- LINK_LOST (R229): every receive lane dark or misaligned for 2 µs, or RX_LOST from the peer. -/
def Hw.linkLost (h : Hw) (n : Nat) (c : LossCause) : Hw :=
  if h.linkLive n then h.toLost n (c == .dark) else h

def execLinkLost (p : Port) (c : LossCause) (s : State) : Host.Outcome State Fault Refusal := .next (s.onHw fun h => h.linkLost p c)

/-- LIGHT_RETURN (R229): light and alignment are present again; a LOST port retrains fast. -/
def Hw.lightReturn (h : Hw) (v : Nv) (n : Nat) : Hw :=
  if h.linkLive n ∧ h.linkState n = 4 then (h.setLink n { h.link n with light := true }).startTraining v n true
  else if h.linkLive n ∧ h.linkState n = 5 then h.setLink n { h.link n with light := true }
  else h

def execLightReturn (p : Port) (s : State) : Host.Outcome State Fault Refusal := .next (s.onHw fun h => h.lightReturn s.nv p)

/-- LOSS_HOLD_EXPIRE: LOSS_HOLD_US pass in LOST. -/
def Hw.lossHoldExpire (h : Hw) (n : Nat) : Hw :=
  if h.linkLive n ∧ h.linkState n = 4 ∧ slotsUs * h.fld (.octetCfg (n / 8)) Fld.octetCfg_lossHoldUs ≤ h.linkAge n then h.toDown n else h

def execLossHoldExpire (p : Port) (s : State) : Host.Outcome State Fault Refusal := .next (s.onHw fun h => h.lossHoldExpire p)

/-- DOWN_RETRY_TIMER: light present and enabled; full training at most once per 100 ms. -/
def Hw.downRetry (h : Hw) (v : Nv) (n : Nat) : Hw :=
  let l := h.link n
  let now := h.slot (portDie n)
  let due := match l.lastTry with | some t => decide (t + 100 * slotsMs ≤ now) | none => true
  if h.linkLive n ∧ h.linkState n = 5 ∧ l.light = true ∧ h.bit (.octetCfg (n / 8)) Fld.octetCfg_enable = true ∧ due = true then
    (h.setLink n { l with lastTry := some now }).startTraining v n false
  else h

def execDownRetryTimer (p : Port) (s : State) : Host.Outcome State Fault Refusal := .next (s.onHw fun h => h.downRetry s.nv p)

/-- A LINK_CTL training command: refused in DARK (R229). (DEDUCED log entry 25.) -/
def Hw.linkCommand (h : Hw) (v : Nv) (n : Nat) (fast : Bool) : Hw :=
  if !h.portStart n || !h.quadReach (portDie n) then h
  else if h.linkState n = 0 then h.setFld (.linkCtl n) Fld.linkCtl_cmdErr 1
  else
    let l := h.link n
    let h := if h.linkUp n then h.setLink n { l with peerBefore := l.peer } else h
    h.leaveUp n fun h => h.startTraining v n fast

/-- FULL_TRAIN. -/
def execFullTrain (p : Port) (s : State) : Host.Outcome State Fault Refusal := .next (s.onHw fun h => h.linkCommand s.nv p false)
/-- FAST_RETRAIN. -/
def execFastRetrain (p : Port) (s : State) : Host.Outcome State Fault Refusal := .next (s.onHw fun h => h.linkCommand s.nv p true)

/-- REJOIN (R237): lanes kept out after repeated failures may rejoin. -/
def Hw.rejoin (h : Hw) (n : Nat) : Hw :=
  if !h.portStart n || !h.quadReach (portDie n) then h
  else if h.linkState n = 0 then h.setFld (.linkCtl n) Fld.linkCtl_cmdErr 1
  else h.setLink n { h.link n with stuck := 0, fails := [] }

def execRejoin (p : Port) (s : State) : Host.Outcome State Fault Refusal := .next (s.onHw fun h => h.rejoin p)

/-! ### Narrowing (R236 to R238) -/

/-- WIDTH_CHANGE record and the new OVERBOOK. -/
def Hw.widthChanged (h : Hw) (n : Nat) : Hw :=
  (h.record { code := 0x0203, die := portDie n, unit := n,
              d0 := BitVec.ofNat 64 (h.fld (.portLink n) Fld.portLink_txMask + 16 * h.fld (.portLink n) Fld.portLink_rxMask) }).overbook n

/-- A lane's failure is noted; the third within 1 s keeps it out and queues LANE_OUT (R237). -/
def Hw.noteFail (h : Hw) (n l : Nat) : Hw :=
  let k := h.link n
  let now := h.slot (portDie n)
  let fs := (k.fails.filter fun x => decide (now < x.2 + slotsSec)) ++ [(l, now)]
  if 3 ≤ (fs.filter fun x => x.1 == l).length then
    (h.setLink n { k with fails := fs, stuck := k.stuck ||| BitVec.ofNat 4 (2 ^ l) }).record
      { code := 0x0204, die := portDie n, unit := n, d0 := BitVec.ofNat 64 (n + l) }
  else h.setLink n { k with fails := fs }

/-- LANE_FAIL: receive lane `l` of port `n` fails (R236). With NARROW_EN = 0 that is the loss of the port. -/
def Hw.laneFail (h : Hw) (n l : Nat) : Hw :=
  let rx := h.fld (.portLink n) Fld.portLink_rxMask
  if !(h.linkLive n && h.linkUp n && Nat.testBit rx l) then h
  else if h.portLanes n = 1 ∨ h.oslux n = false ∨ h.bit (.octetCfg (n / 8)) Fld.octetCfg_narrowEn = false then h.toLost n true
  else
    let h := (h.count (portDie n) 0x046 (n + l) 1).noteFail n l
    let h := h.setLink n { h.link n with outAt := aput l (h.slot (portDie n)) (h.link n).outAt }
    let h := h.setFld (.portLink n) Fld.portLink_rxMask (rx - 2 ^ l)
    if rx - 2 ^ l = 0 then h.toLost n true
    else (h.sendLinkState n).widthChanged n

def execLaneFail (p : Port) (l : Fin 4) (s : State) : Host.Outcome State Fault Refusal := .next (s.onHw fun h => h.laneFail p l)

/-- LANE_REJOIN: the lane has been clean for 1 ms, so it left at least that long ago, and is not kept out (R237). -/
def Hw.laneRejoin (h : Hw) (n l : Nat) : Hw :=
  let rx := h.fld (.portLink n) Fld.portLink_rxMask
  let clean := match aget l (h.link n).outAt with | some t => decide (t + slotsMs ≤ h.slot (portDie n)) | none => true
  if h.linkLive n ∧ h.linkUp n = true ∧ h.oslux n = true ∧ l < h.portLanes n ∧ Nat.testBit rx l = false ∧
      (h.link n).stuck.getLsbD l = false ∧ clean = true then
    let h := (h.count (portDie n) 0x047 (n + l) 1).setFld (.portLink n) Fld.portLink_rxMask (rx + 2 ^ l)
    (h.sendLinkState n).widthChanged n
  else h

def execLaneRejoin (p : Port) (l : Fin 4) (s : State) : Host.Outcome State Fault Refusal := .next (s.onHw fun h => h.laneRejoin p l)

/-! ### LINK_STATE (R234, R235) -/

/-- LINK_STATE_RECEIVE: the peer's capabilities, identity, lanes and losses. A 200G port counts and ignores it (R225). -/
def Hw.linkStateReceive (h : Hw) (n : Nat) : Hw :=
  match h.takeFrame n [0x74] with
  | (none, h) => h
  | (some x, h) =>
    let h := h.consumed x
    if !h.oslux n then h.count (portDie n) 0x04e n 1
    else
      let d := x.hdr.opData.toNat
      let l := h.link n
      let h := h.setLink n { l with peer := some (x.hdr.src, bits d 0 10, BitVec.ofNat 16 (bits d 26 16)),
                                    peerRx := BitVec.ofNat 4 (bits d 52 4) }
      let h := h.setFld (.portLink n) Fld.portLink_peerOslux (bits d 56 1)
      if h.linkUp n then
        if bits d 47 1 = 1 then h.toLost n false
        else
          let tx := bits d 52 4 % 2 ^ h.portLanes n
          if tx = h.fld (.portLink n) Fld.portLink_txMask then h
          else if tx = 0 then h.toLost n false
          else (h.setFld (.portLink n) Fld.portLink_txMask tx).widthChanged n
      else if (h.linkState n = 1 ∨ h.linkState n = 2) ∧ (h.link n).lockAt.isSome ∧ h.capable n = true then h.enterUp n
      else h

def execLinkStateReceive (p : Port) (s : State) : Host.Outcome State Fault Refusal := .next (s.onHw fun h => h.linkStateReceive p)

/-- LINK_STATE_TIMER: every 100 µs while the port is UP. -/
def Hw.linkStateTimer (h : Hw) (n : Nat) : Hw :=
  if h.linkLive n ∧ h.linkUp n = true ∧ (h.link n).lsAt + 100 * slotsUs ≤ h.slot (portDie n) then h.sendLinkState n else h

def execLinkStateTimer (p : Port) (s : State) : Host.Outcome State Fault Refusal := .next (s.onHw fun h => h.linkStateTimer p)

/-- NAK_RECEIVE (R231, R232). -/
def execNakReceive (p : Port) (ack : BitVec 16) (s : State) : Host.Outcome State Fault Refusal :=
  .next (s.onHw fun h => if h.linkLive p && h.linkUp p && h.retryOn p then h.nakFrom p ack else h)

/-- ACK_CONTROL_BLOCK (R230): ACK and NAK leave in a control block, NAK at most once per 1 µs (R231). -/
def execAckControlBlock (p : Port) (s : State) : Host.Outcome State Fault Refusal :=
  .next (s.onHw fun h =>
    if h.linkLive p && h.linkUp p && h.retryOn p then (h.emit (.control p ((h.link p).rxNext - 1) (h.nakDue p))).nakSent p else h)

/-! ### Venting (R88 to R90) -/

/-- PORT_VENT: VENT_REQ = 1; ignored on a bypass port and where no port begins (R75). -/
def Hw.portVent (h : Hw) (n : Nat) : Hw :=
  if !h.portStart n || !h.quadReach (portDie n) || h.bypass n then h
  else
    let h := h.setFld (.portFwd n) Fld.portFwd_ventReq 1
    if h.ventState n ≠ 0 then h
    else (h.withPorts [n] fun h => h.setFld (.portFwd n) Fld.portFwd_ventState 1).ventNotice n 0 0

def execPortVent (p : Port) (s : State) : Host.Outcome State Fault Refusal := .next (s.onHw fun h => h.portVent p)

/-- PORT_UNVENT: VENT_REQ = 0 returns the port to service. -/
def Hw.portUnvent (h : Hw) (n : Nat) : Hw :=
  if !h.portStart n || !h.quadReach (portDie n) || h.bypass n then h
  else
    let h := h.setFld (.portFwd n) Fld.portFwd_ventReq 0
    if h.ventState n = 0 then h
    else (h.withPorts [n] fun h => h.setFld (.portFwd n) Fld.portFwd_ventState 0).ventNotice n 0 2

def execPortUnvent (p : Port) (s : State) : Host.Outcome State Fault Refusal := .next (s.onHw fun h => h.portUnvent p)

/-- No frame toward port `n` remains in any P-die. -/
def Hw.portEmpty (h : Hw) (n : Nat) : Bool := !(h.buf.held.any fun x => x.copies.any fun c => c.port == n)

/-- VENT_COMPLETE. -/
def Hw.ventComplete (h : Hw) (n : Nat) : Hw :=
  if h.portStart n ∧ h.ventState n = 1 ∧ h.portEmpty n = true then
    let h := (h.setFld (.portFwd n) Fld.portFwd_ventState 2).ventNotice n 0 1
    (h.hostEvent (1 + portDie n)).icEvent (80 + portDie n)
  else h

def execVentComplete (p : Port) (s : State) : Host.Outcome State Fault Refusal := .next (s.onHw fun h => h.ventComplete p)

/-- The ports that face the chip at the far end of port `n` (R90). -/
def Hw.facing (h : Hw) (n : Nat) : List Nat :=
  match (h.link n).peer with
  | some (a, _) =>
    if a = linkLocal then [n]
    else (n :: (h.lgt.links.map (·.1)).filter fun m =>
      m != n && h.linkUp m && match (h.link m).peer with | some (b, _) => b == a | none => false)
  | none => [n]

/-- A notice addressed to the chip is a report: an error record and nothing else (R56). The spec names neither its code, which is a free
value, nor its class. (DESIGN CHOICE log entry 12.) -/
def Hw.reportNotice (h : Hw) (n : Nat) : Hw :=
  let (v, h) := h.draw
  h.record { code := v.toNat % 65536, die := portDie n, unit := n, cls := some 3 }

/-- VENT_NOTICE_RECEIVE (R90). One addressed to the chip's node number is a report (R56). (DESIGN CHOICE log entry 12.) -/
def Hw.ventNoticeReceive (h : Hw) (n : Nat) : Hw :=
  match h.takeFrame n [0x72] with
  | (none, h) => h
  | (some x, h) =>
    let h := h.consumed x
    let d := x.hdr.opData.toNat
    let st := bits d 60 2
    if x.hdr.dst ≠ linkLocal then h.reportNotice n
    else if st = 3 then h
    else
      let ns := if bits d 62 2 = 1 then h.facing n else [n]
      h.withPorts ns fun h => ns.foldl (fun h m => h.setFld (.portFwd m) Fld.portFwd_peerVent (if st = 2 then 0 else 1)) h

def execVentNoticeReceive (p : Port) (s : State) : Host.Outcome State Fault Refusal := .next (s.onHw fun h => h.ventNoticeReceive p)

/-- NOTICE_REPORT_RECEIVE (R56): a notice addressed to the chip. (DESIGN CHOICE log entry 12.) -/
def Hw.noticeReport (h : Hw) (n : Nat) : Hw :=
  match h.takeFrame n [0x70, 0x71, 0x73] with
  | (none, h) => h
  | (some x, h) => (h.consumed x).reportNotice n

def execNoticeReportReceive (p : Port) (s : State) : Host.Outcome State Fault Refusal := .next (s.onHw fun h => h.noticeReport p)

/-! ### Circuits (R91 to R93) -/

def Hw.circuitErr (h : Hw) (i : Nat) : Hw := h.setFld (.circuitCtl i) Fld.circuitCtl_cmdErr 1

/-- CIRCUIT_MAP_WRITE (R92). -/
def Hw.circuitMapWrite (h : Hw) (i : Nat) (a : Acc) (v : W64) : Hw :=
  let st := h.circuitState i
  if st = 1 ∨ st = 2 ∨ st = 4 then h.circuitErr i
  else
    let new := withParity (h.writeWord (.circuitMap i) a v)
    h.withPorts [h.circuitPort i, Fld.circuitMap_port.get new].dedup fun h =>
      let h := h.setHubReg (.circuitMap i) new
      { h with fwd := { h.fwd with bad := h.fwd.bad.filter fun x => !(x.1 == ⟨.circuit, i⟩) } }

def execCircuitMapWrite (i : Fin 256) (acc : Acc) (v : W64) (s : State) : Host.Outcome State Fault Refusal :=
  .next (s.onLive fun h => h.circuitMapWrite i acc v)

/-- The port of circuit `i` retrains from its stored calibration; a DARK port cannot. -/
def Hw.circuitTrain (h : Hw) (v : Nv) (i : Nat) : Hw :=
  let n := h.circuitPort i
  if h.portStart n ∧ h.linkState n ≠ 0 then h.leaveUp n fun h => h.startTraining v n true else h

def Hw.setCircuit (h : Hw) (i st : Nat) : Hw := h.setFld (.circuitCtl i) Fld.circuitCtl_state st

/-- CIRCUIT_ENABLE. -/
def Hw.circuitEnable (h : Hw) (v : Nv) (i : Nat) : Hw :=
  if h.circuitState i ≠ 0 ∨ h.bypass (h.circuitPort i) = true then h.circuitErr i
  else (h.withPorts [h.circuitPort i] fun h => h.setCircuit i 4).circuitTrain v i

def execCircuitEnable (i : Fin 256) (s : State) : Host.Outcome State Fault Refusal := .next (s.onLive fun h => h.circuitEnable s.nv i)

/-- CIRCUIT_VENT. -/
def Hw.circuitVent (h : Hw) (i : Nat) : Hw :=
  match h.circuitState i with
  | 1 => ((h.setCircuit i 2).ventNotice (h.circuitPort i) 0 0).reroute
      [rackKey (h.fld (.circuitMap i) Fld.circuitMap_remoteRack)]
  | 5 => h.setCircuit i 2
  | _ => h.circuitErr i

def execCircuitVent (i : Fin 256) (s : State) : Host.Outcome State Fault Refusal := .next (s.onLive fun h => h.circuitVent i)

/-- CIRCUIT_RETRAIN. -/
def Hw.circuitRetrain (h : Hw) (v : Nv) (i : Nat) : Hw :=
  if h.circuitState i = 3 ∨ h.circuitState i = 5 then (h.setCircuit i 4).circuitTrain v i else h.circuitErr i

def execCircuitRetrain (i : Fin 256) (s : State) : Host.Outcome State Fault Refusal := .next (s.onLive fun h => h.circuitRetrain s.nv i)

/-- CIRCUIT_DISABLE. -/
def Hw.circuitDisable (h : Hw) (i : Nat) : Hw :=
  if h.circuitState i = 3 ∨ h.circuitState i = 5 then h.withPorts [h.circuitPort i] fun h => h.setCircuit i 0 else h.circuitErr i

def execCircuitDisable (i : Fin 256) (s : State) : Host.Outcome State Fault Refusal := .next (s.onLive fun h => h.circuitDisable i)

/-- CIRCUIT_EMPTY. -/
def Hw.circuitEmpty (h : Hw) (i : Nat) : Hw :=
  if h.circuitState i = 2 ∧ h.portEmpty (h.circuitPort i) = true then
    (((h.setCircuit i 3).ventNotice (h.circuitPort i) 0 1).hostEvent 5).icEvent 84
  else h

def execCircuitEmpty (i : Fin 256) (s : State) : Host.Outcome State Fault Refusal := .next (s.onHw fun h => h.circuitEmpty i)

/-- CIRCUIT_RETRAIN_TIMEOUT: no link within 100 µs. -/
def Hw.circuitRetrainTimeout (h : Hw) (i : Nat) : Hw :=
  let n := h.circuitPort i
  if h.circuitState i = 4 ∧ h.linkUp n = false ∧ (h.linkState n = 0 ∨ h.linkState n = 1 ∨ 100 * slotsUs ≤ h.linkAge n) then
    (((h.setCircuit i 5).hostEvent 5).icEvent 84).trainFail n
  else h

def execCircuitRetrainTimeout (i : Fin 256) (s : State) : Host.Outcome State Fault Refusal :=
  .next (s.onHw fun h => h.circuitRetrainTimeout i)

end Sys2Proof.Machine
end

