-- ==== Sys2Proof/Machine/Optics.lean ====
section
/-! DEFINITION. Octets and their emitters, floor paths, rings, hand-overs and the calibration store (R222 to R227, R239 to R248,
R21, R75, R374). -/

namespace Sys2Proof.Machine

/-! ### Emitters (R22, R242, R243) -/

def primaryOf (o : Nat) : Nat := 36 * (o / 32) + o % 32
/-- The spare of the primary that feeds octet `o`. -/
def spareOf (o : Nat) : Nat := 36 * (o / 32) + 32 + o % 32 / 8
/-- The octet of a primary emitter; none for a spare. -/
def octetOf (e : Nat) : Option Nat := if e % 36 < 32 then some (32 * (e / 36) + e % 36) else none

def Nv.isRetired (v : Nv) (e : Nat) : Bool := (v.retired.get (e / 36)).getLsbD (e % 36)
def Nv.retire (v : Nv) (e : Nat) : Nv :=
  { v with retired := v.retired.set (e / 36) (v.retired.get (e / 36) ||| BitVec.ofNat 64 (2 ^ (e % 36))) }

def Hw.emitState (h : Hw) (e : Nat) : Nat := h.fld (.emitStatus e) Fld.emitStatus_state
def Hw.emitLevel (h : Hw) (e : Nat) : Nat := h.fld (.emitStatus e) Fld.emitStatus_level

/-- An emitter changes state (interrupt source 256 + e). -/
def Hw.setEmit (h : Hw) (e st : Nat) : Hw :=
  if h.emitState e = st then h else (h.setFld (.emitStatus e) Fld.emitStatus_state st).icEvent (256 + e)

/-- The octet an emitter feeds; 0x7F for none. -/
def Hw.setFeeds (h : Hw) (e o : Nat) : Hw := h.setFld (.emitStatus e) Fld.emitStatus_octet o

/-- The emitter that feeds octet `o`: its primary while that is neither retired nor dead, else its spare if that serves the octet. -/
def Hw.feederOf (h : Hw) (v : Nv) (o : Nat) : Option Nat :=
  let e := primaryOf o
  if !v.isRetired e && (h.emitState e == 1 || h.emitState e == 2 || h.emitState e == 3) then some e
  else
    let sp := spareOf o
    if h.emitState sp == 10 && h.fld (.emitStatus sp) Fld.emitStatus_octet == o then some sp else none

/-- Light the octet's emitter (R367, R374): the primary, or its spare when the primary is retired and the spare is free. The spare of
a lit octet stands IDLE. (DESIGN CHOICE log entry 26.) -/
def Hw.lightOctet (h : Hw) (v : Nv) (o : Nat) : Hw :=
  let e := primaryOf o
  let sp := spareOf o
  let h := if h.emitState sp = 0 ∧ v.isRetired sp = false then (h.setEmit sp 6).setFeeds sp 0x7f else h
  if !v.isRetired e then (if h.emitState e = 0 then (h.setEmit e 1).setFeeds e o else h)
  else if h.emitState sp = 6 then (h.setEmit sp 10).setFeeds sp o
  else h

/-- Darken the octet's emitter. -/
def Hw.darkOctet (h : Hw) (v : Nv) (o : Nat) : Hw :=
  match h.feederOf v o with
  | none => h
  | some e => if e % 36 < 32 then ((h.setEmit e 0).setFeeds e 0x7f).setFld (.emitStatus e) Fld.emitStatus_level 0
    else ((h.setEmit e 6).setFeeds e 0x7f).setFld (.emitStatus e) Fld.emitStatus_level 0

/-- A DARK port of an enabled octet starts to train: fast from valid records, fully otherwise. -/
def Hw.wakePort (h : Hw) (v : Nv) (n : Nat) : Hw := if h.linkState n = 0 then h.startTraining v n true else h

/-! ### Octets (R222, R226, R229, R75) -/

/-- Octet `o` sleeps. -/
def Hw.asleep (h : Hw) (o : Nat) : Bool := (h.reg (.octetSleep (o / 64))).getLsbD (o % 64)

/-- OCTET_ENABLE: ENABLE set to 1; DARK ports of an octet that is awake leave DARK (R229, R367). -/
def Hw.octetEnable (h : Hw) (v : Nv) (o : Nat) : Hw :=
  let q := o / 32
  if !h.quadReach q || h.fatalChip || h.fatalQ q then h
  else
    let h := h.setFld (.octetCfg o) Fld.octetCfg_enable 1
    let h := { h with pwr := { h.pwr with unready := h.pwr.unready.filter fun x => x != o } }
    if h.asleep o || h.parked q || !h.dpReady then h
    else (h.octetPorts o).foldl (fun h n => h.wakePort v n) (h.lightOctet v o)

def execOctetEnable (o : Octet) (s : State) : Host.Outcome State Fault Refusal := .next (s.onHw fun h => h.octetEnable s.nv o)

/-- Every port of an octet goes DARK. (DESIGN CHOICE log entry 14.) -/
def Hw.darkPorts (h : Hw) (o : Nat) : Hw := (h.octetPorts o).foldl (fun h n => h.toDark n) h

/-- OCTET_DISABLE: ENABLE set to 0. -/
def Hw.octetDisable (h : Hw) (v : Nv) (o : Nat) : Hw :=
  if !h.quadReach (o / 32) then h
  else ((h.setFld (.octetCfg o) Fld.octetCfg_enable 0).darkPorts o).darkOctet v o

def execOctetDisable (o : Octet) (s : State) : Host.Outcome State Fault Refusal := .next (s.onHw fun h => h.octetDisable s.nv o)

def Hw.octetErr (h : Hw) (o : Nat) : Hw := h.setFld (.octetStatus o) Fld.octetStatus_cfgErr 1

/-- Learned entries whose TARGET lies in the octet go (R75), a re-route of each. -/
def Hw.unlearnOctet (h : Hw) (o : Nat) : Hw :=
  let q := h.epochDie.getD 0
  let gone := (h.fwd.exc.get q).filter fun e => !e.static && e.kind == 0 && e.target / 8 == o
  if gone.isEmpty then h
  else (h.mapExc fun l => l.filter fun e => !(!e.static && e.kind == 0 && e.target / 8 == o)).reroute (gone.map fun e => nodeKey e.node)

/-- OCTET_SHAPE_CHANGE: a write that changes MODE or SHAPE, refused under R226 or out of range; else the octet's PORT_FWD registers
return to reset and its learned entries go (R75). (DESIGN CHOICE log entry 21.) -/
def Hw.octetShape (h : Hw) (o : Nat) (a : Acc) (v : W64) : Hw :=
  if !h.quadReach (o / 32) then h
  else
    let old := h.reg (.octetCfg o)
    let new := h.writeWord (.octetCfg o) a v
    let shape := Fld.octetCfg_shape.get new
    let mode := Fld.octetCfg_mode.get new
    let moves := shape ≠ Fld.octetCfg_shape.get old ∨ mode ≠ Fld.octetCfg_mode.get old
    if Fld.octetCfg_laneUcwMax.get new = 0 ∨ Fld.octetCfg_lossHoldUs.get new < 150 then h.octetErr o
    else if moves ∧ (Fld.octetCfg_enable.get old = 1 ∨ ((h.octetPorts o).any fun n => h.linkState n != 0) ∨ (shape = 3) ≠ (mode = 1)) then
      h.octetErr o
    else if ¬moves then h.setReg (.octetCfg o) new
    else
      let ns := (List.range 8).map (8 * o + ·)
      let h := h.withPorts ns fun h => ns.foldl (fun h n => h.setReg (.portFwd n) (Reg.reset (.portFwd n))) (h.setReg (.octetCfg o) new)
      h.unlearnOctet o

/-- OCTET_CFG: MODE, SHAPE and the other fields, then ENABLE; a write of 1 acts even when ENABLE already reads 1 (R222, R226, R229, R367). -/
def Hw.octetCfgWrite (h : Hw) (nv : Nv) (o : Nat) (a : Acc) (v : W64) : Hw :=
  let was := h.fld (.octetCfg o) Fld.octetCfg_enable
  let err := h.fld (.octetStatus o) Fld.octetStatus_cfgErr
  let w := h.writeWord (.octetCfg o) a v
  let h1 := (h.setFld (.octetStatus o) Fld.octetStatus_cfgErr 0).octetShape o .full (Fld.octetCfg_enable.put w was)
  if h1.bit (.octetStatus o) Fld.octetStatus_cfgErr then h.octetErr o
  else
    let h := h1.setFld (.octetStatus o) Fld.octetStatus_cfgErr err
    let en := Fld.octetCfg_enable.get w
    if a = .hi then h else if en = 1 then h.octetEnable nv o else if was = 1 then h.octetDisable nv o else h

def execOctetShapeChange (o : Octet) (acc : Acc) (v : W64) (s : State) : Host.Outcome State Fault Refusal :=
  .next (s.onHw fun h => h.octetCfgWrite s.nv o acc v)

/-! ### Floor paths and rings (R20, R21, R239, R241) -/

/-- Groups or lanes of path `k`. -/
def pathWidth (k : Nat) : Nat := if k < 12 then 16 else 8
/-- The P-die that detects a failure of path `k`: its receiving end, or the P-die of a hub path. -/
def pathDie (k : Nat) : Nat :=
  if k < 12 then (let b := k % 3; let a := k / 3; if b < a then b else b + 1) else (k - 12) / 2

/-- A group or hub lane leaves its path (R239). (DESIGN CHOICE log entry 27.) -/
def Hw.groupDrop (h : Hw) (k g : Nat) : Hw :=
  let m := h.fld (.floorPath k) Fld.floorPath_upMask
  if g < pathWidth k ∧ Nat.testBit m g = true then
    let h := (h.setFld (.floorPath k) Fld.floorPath_upMask (m - 2 ^ g)).satFld (.floorPath k) Fld.floorPath_drops 1
    (h.count (pathDie k) 0x04c k 1).record { code := 0x0206, die := pathDie k, unit := k, d0 := BitVec.ofNat 64 g }
  else h

/-- The quadrant of hub path `k`. -/
def hubOf (k : Nat) : Option Nat := if k < 12 then none else some ((k - 12) / 2)

/-- HUB_PATH record and interrupt source (R21). -/
def Hw.hubPathNote (h : Hw) (q : Nat) (back : Bool) : Hw :=
  ({ h with err := { h.err with hubLost := h.err.hubLost.set q !back } } |>.record
    { code := 0x0701, die := 8, unit := q, d0 := if back then 1 else 0 }).icEvent (69 + q)

/-- FLOOR_GROUP_DROP (R239): with the last lane of a direction the hub path is lost (R21). (DESIGN CHOICE log entry 27.) -/
def Hw.floorDrop (h : Hw) (k g : Nat) : Hw :=
  let h := h.groupDrop k g
  match hubOf k with
  | some q => if h.fld (.floorPath k) Fld.floorPath_upMask = 0 ∧ h.err.hubLost.get q = false then h.hubPathNote q false else h
  | none => h

def execFloorGroupDrop (k : FloorPath) (g : Fin 16) (s : State) : Host.Outcome State Fault Refusal :=
  .next (s.onHw fun h => h.floorDrop k g)

/-- Path `k` is narrowed because a quadrant at one of its ends is parked (R375). -/
def Hw.pathNarrow (h : Hw) (k : Nat) : Bool := decide (k < 12) && (h.parked (k / 3) || h.parked (pathDie k))

/-- RING_UNLOCK (R241): a lane failure, or the loss of a floor group. (DESIGN CHOICE log entry 27.) -/
def Hw.ringUnlock (h : Hw) (r : RingRef) : Hw :=
  match r with
  | .lane n => h.laneFail (h.portOf n) (n - h.portOf n)
  | .floor k g =>
    if g.val < pathWidth k ∧ (k.val, g.val) ∉ h.lgt.floorOut then
      ({ h with lgt := { h.lgt with floorOut := (k.val, g.val) :: h.lgt.floorOut } }).floorDrop k g
    else h

def execRingUnlock (r : RingRef) (s : State) : Host.Outcome State Fault Refusal := .next (s.onLive fun h => h.ringUnlock r)

/-- The floor lane group of a group or hub lane: its floor lane number over 8. -/
def floorGroup (k g : Nat) : Nat := if k < 12 then 16 * k + g else (1536 + 8 * (k - 12) + g) / 8

/-- RING_RELOCK (R241): the agent has relocked the ring by sweeping its heater; the relock is counted. -/
def Hw.ringRelock (h : Hw) (r : RingRef) : Hw :=
  match r with
  | .lane n => h.count (portDie n) 0x04d n 1
  | .floor k g =>
    ({ h with lgt := { h.lgt with floorOut := h.lgt.floorOut.filter fun x => x != (k.val, g.val) } }).count (pathDie k) 0x04d
      (0x800 + floorGroup k g) 1

def execRingRelock (r : RingRef) (s : State) : Host.Outcome State Fault Refusal := .next (s.onLive fun h => h.ringRelock r)

/-- HUB_PATH_LOST (R21): every lane fails; register access to the quadrant is cut off and the hub queues a HUB_PATH record. -/
def Hw.hubPathLost (h : Hw) (q : Nat) : Hw :=
  if h.err.hubLost.get q then h
  else
    ((h.setFld (.floorPath (12 + 2 * q)) Fld.floorPath_upMask 0).setFld (.floorPath (13 + 2 * q)) Fld.floorPath_upMask 0).hubPathNote q false

def execHubPathLost (q : Quad) (s : State) : Host.Outcome State Fault Refusal := .next (s.onLive fun h => h.hubPathLost q)

/-- Copy the replicated words of quadrant `q` from another quadrant that could be written (R256). -/
def Hw.copyReplicas (h : Hw) (q from_ : Nat) : Hw :=
  let move (r : Reg) : Option Reg := match r with
    | .zoneTbl x i => if x = from_ then some (.zoneTbl q i) else none
    | .rowTbl x i => if x = from_ then some (.rowTbl q i) else none
    | .rackTbl x i => if x = from_ then some (.rackTbl q i) else none
    | .sparTbl x i => if x = from_ then some (.sparTbl q i) else none
    | .recipeW x i => if x = from_ then some (.recipeW q i) else none
    | _ => none
  let own (r : Reg) : Bool := match r with
    | .zoneTbl x _ | .rowTbl x _ | .rackTbl x _ | .sparTbl x _ | .recipeW x _ => x == q
    | _ => false
  let copied := h.regs.filterMap fun x => (move x.1).map fun r => (r, x.2)
  { h with regs := copied ++ h.regs.filter (fun x => !own x.1)
           fwd := { h.fwd with exc := h.fwd.exc.set q (h.fwd.exc.get from_), mcast := h.fwd.mcast.set q (h.fwd.mcast.get from_),
                               stale := h.fwd.stale.filter fun x => x.1 != q,
                               bad := h.fwd.bad.filter fun x => x.2 != q } }

/-- Both directions of the hub path of quadrant `q` carry again: the agent copies every replicated table from a reachable replica
(R256). -/
def Hw.hubPathBack (h : Hw) (q : Nat) : Hw :=
  let h := match (List.range 4).find? fun k => !h.err.hubLost.get k with
    | some k => h.copyReplicas q k
    | none => { h with fwd := { h.fwd with stale := h.fwd.stale.filter fun x => x.1 != q } }
  Hw.hubPathNote { h with coll := { h.coll with absent := h.coll.absent.filter fun x => x.2 != q } } q true

/-- The lanes of hub path `k` whose rings are locked. -/
def Hw.hubLanes (h : Hw) (k : Nat) : Nat := (((List.range 8).filter fun g => (k, g) ∉ h.lgt.floorOut).map fun g => 2 ^ g).sum

/-- HUB_PATH_RESTORED: every lane whose ring is locked carries again. -/
def Hw.hubPathRestored (h : Hw) (q : Nat) : Hw :=
  let up := h.hubLanes (12 + 2 * q)
  let down := h.hubLanes (13 + 2 * q)
  if !h.err.hubLost.get q || up == 0 || down == 0 then h
  else ((h.setFld (.floorPath (12 + 2 * q)) Fld.floorPath_upMask up).setFld (.floorPath (13 + 2 * q)) Fld.floorPath_upMask down).hubPathBack q

def execHubPathRestored (q : Quad) (s : State) : Host.Outcome State Fault Refusal := .next (s.onLive fun h => h.hubPathRestored q)

/-- FLOOR_GROUP_REJOIN: all rings of the group have held lock for 100 µs. A hub path is back once both directions have a lane. -/
def Hw.floorRejoin (h : Hw) (k g : Nat) : Hw :=
  let m := h.fld (.floorPath k) Fld.floorPath_upMask
  if g < pathWidth k ∧ Nat.testBit m g = false ∧ (k, g) ∉ h.lgt.floorOut ∧ h.dpReady = true ∧ h.pathNarrow k = false then
    let h := h.setFld (.floorPath k) Fld.floorPath_upMask (m + 2 ^ g)
    match hubOf k with
    | some q =>
      if h.err.hubLost.get q = true ∧ h.fld (.floorPath (12 + 2 * q)) Fld.floorPath_upMask ≠ 0 ∧
          h.fld (.floorPath (13 + 2 * q)) Fld.floorPath_upMask ≠ 0 then h.hubPathBack q else h
    | none => h
  else h

def execFloorGroupRejoin (k : FloorPath) (g : Fin 16) (s : State) : Host.Outcome State Fault Refusal :=
  .next (s.onHw fun h => h.floorRejoin k g)

/-! ### Emitters that fail, and hand-overs (R242 to R245) -/

/-- The hand-over that emitter `e` takes part in: failing emitter and spare. -/
def Hw.handoverOf (h : Hw) (e : Nat) : Option (Nat × Nat) := h.lgt.handover.find? fun x => x.1 == e || x.2 == e
def Hw.dropHandover (h : Hw) (x : Nat × Nat) : Hw := { h with lgt := { h.lgt with handover := h.lgt.handover.filter fun y => y != x } }

/-- Every port of an octet that is UP passes through LOST and retrains fast, once its light is back (R245). -/
def Hw.relightOctet (h : Hw) (v : Nv) (o : Nat) : Hw :=
  (h.octetPorts o).foldl (fun h n => if h.linkUp n then (h.toLost n true).startTraining v n true else
    if h.linkState n = 0 then h else h.startTraining v n true) h

/-- The octet has lost its light for good: its lanes are dark and its ports go LOST, then DOWN. -/
def Hw.octetLost (h : Hw) (o : Nat) : Hw :=
  (h.octetPorts o).foldl (fun h n => if h.linkState n = 0 then h else (h.toLost n true).toDown n) h

/-- EMIT_DEAD with the spare now serving; 0xFFFF for none. -/
def Hw.emitDeadRec (h : Hw) (e sp : Nat) : Hw :=
  h.record { code := 0x0214, die := e / 36, unit := e, d0 := BitVec.ofNat 64 sp }

/-- A spare is DEAD before it serves: its hand-over is abandoned and the primary stays in WARNED (R243). -/
def Hw.spareDead (h : Hw) (e : Nat) : Hw :=
  match h.handoverOf e with
  | none => (h.setEmit e 5).setFeeds e 0x7f
  | some (f, sp) =>
    (((h.setEmit sp 5).setEmit f 2).dropHandover (f, sp)).record
      { code := 0x0215, die := sp / 36, unit := sp, d0 := BitVec.ofNat 64 f }

/-- EMITTER_DEAD (R242, R243, R245): a lit emitter, a spare in its hand-over among them; a failing-partner start where a spare is IDLE or already in its hand-over, else a dark octet. -/
def Hw.emitterDead (h : Hw) (v : Nv) (e : Nat) : Hw :=
  let st := h.emitState e
  match octetOf e with
  | some o =>
    if st = 1 ∨ st = 2 ∨ st = 3 then
      let free := if h.emitState (spareOf o) = 6 ∧ v.isRetired (spareOf o) = false then some (spareOf o) else none
      let sp := match h.handoverOf e with
        | some x => some x.2
        | none => free
      let h := match h.handoverOf e with
        | some x => h.dropHandover x
        | none => h
      let h := (h.setEmit e 5).setFeeds e 0x7f
      match sp with
      | some k => (((h.setEmit k 10).setFeeds k o).emitDeadRec e k).relightOctet v o
      | none => (h.emitDeadRec e 0xffff).octetLost o
    else h
  | none =>
    if st = 10 then
      let o := h.fld (.emitStatus e) Fld.emitStatus_octet
      (((h.setEmit e 5).setFeeds e 0x7f).emitDeadRec e 0xffff).octetLost o
    else if st = 7 ∨ st = 8 ∨ st = 9 then h.spareDead e
    else h

/-- The emitters whose state change makes EMIT_MAP hold their bit. -/
def State.retireDead (s : State) (e : Nat) (h : Hw) : State :=
  if h.emitState e = 5 ∨ h.emitState e = 4 then { s with hw := h, nv := s.nv.retire e } else { s with hw := h }

def execEmitterDead (e : Emitter) (s : State) : Host.Outcome State Fault Refusal :=
  .next (s.retireDead e (s.hw.emitterDead s.nv e))

/-- Start a planned hand-over (R244). -/
def Hw.handoverStart (h : Hw) (e : Nat) : Hw :=
  match octetOf e with
  | none => h
  | some o =>
    let h := (h.setEmit e 3).setEmit (spareOf o) 7
    { h with lgt := { h.lgt with handover := h.lgt.handover ++ [(e, spareOf o)] } }

/-- HANDOVER_STEP_DONE (R244): LIGHTING, LOCKING, then COMBINING, after which the failing emitter is retired and the spare
serves. The hand-over is Gliuk's work and pauses without it (R25). -/
def Hw.handoverStep (h : Hw) (e : Nat) : Hw :=
  match h.handoverOf e with
  | none => h
  | some (f, sp) =>
    if !h.gliuk then h else
    match h.emitState sp with
    | 7 => h.setEmit sp 8
    | 8 => h.setEmit sp 9
    | 9 =>
      let h := ((h.setEmit f 4).setFeeds f 0x7f).dropHandover (f, sp)
      let h := (h.setEmit sp 10).setFeeds sp ((octetOf f).getD 0x7f)
      h.record { code := 0x0213, die := f / 36, unit := f, d0 := BitVec.ofNat 64 sp }
    | _ => h

def execHandoverStepDone (e : Emitter) (s : State) : Host.Outcome State Fault Refusal :=
  let f := match s.hw.handoverOf e with | some x => x.1 | none => e.val
  .next (s.retireDead f (s.hw.handoverStep e))

/-- SPARE_FAILED (R243): a spare that does not reach level or lock within the bounds of R244, while Gliuk runs the hand-over. -/
def Hw.spareFailed (h : Hw) (e : Nat) : Hw := if h.gliuk = true ∧ (h.handoverOf e).isSome then h.spareDead e else h

def execSpareFailed (e : Emitter) (s : State) : Host.Outcome State Fault Refusal :=
  let sp := match s.hw.handoverOf e with | some x => x.2 | none => e.val
  .next (s.retireDead sp (s.hw.spareFailed e))

/-- The spare of a primary stands IDLE. -/
def Hw.spareIdle (h : Hw) (v : Nv) (o : Nat) : Bool := h.emitState (spareOf o) == 6 && !v.isRetired (spareOf o)

/-- The record of a WARNED emitter at or below SPARE_PERMIL without an IDLE spare, and the time of it. -/
def Hw.noSpareRec (h : Hw) (e : Nat) : Hw :=
  let h := h.record { code := 0x0212, die := e / 36, unit := e, d0 := BitVec.ofNat 64 (h.emitLevel e) }
  { h with lgt := { h.lgt with noSpareAt := aput e h.tim.local_ h.lgt.noSpareAt } }

/-- EMIT_NO_SPARE_REPEAT (R243): the record is repeated every 1 s. (DESIGN CHOICE log entry 52.) -/
def Hw.emitNoSpare (h : Hw) (v : Nv) (e : Nat) : Hw :=
  match octetOf e with
  | none => h
  | some o =>
    let due := match aget e h.lgt.noSpareAt with | some t => decide (t + slotsSec ≤ h.tim.local_) | none => true
    if h.gliuk = true ∧ h.emitState e = 2 ∧ h.emitLevel e ≤ h.fld .emitCfg Fld.emitCfg_sparePermil ∧ h.spareIdle v o = false ∧
        due = true then h.noSpareRec e
    else h

def execEmitNoSpareRepeat (e : Emitter) (s : State) : Host.Outcome State Fault Refusal :=
  .next (s.onHw fun h => h.emitNoSpare s.nv e)

/-! ### Calibration-store commands (R247, R248) -/

/-- A command ends or is refused: RESULT and DONE, the CAL_DONE host event, and interrupt source 79 when it had run. -/
def Hw.calEnd (h : Hw) (result : Nat) (ran : Bool) : Hw :=
  let h := ((h.setFld .calStatus Fld.calStatus_result result).setFld .calStatus Fld.calStatus_done 1).hostEvent 6
  if ran then (h.setFld .calStatus Fld.calStatus_busy 0).icEvent 79 else h

/-- Admit a command: refused with BUSY while one runs, with BAD_GUARD where it writes the store
and the guard is wrong, and with NOT_IDLE where its precondition fails. -/
def Hw.calBegin (h : Hw) (cmd target guard : Nat) (writes idle : Bool) (f : Hw → Hw) : Hw :=
  if h.bit .calStatus Fld.calStatus_busy then h.calEnd 1 false
  else if writes ∧ guard ≠ 0xca1b then h.calEnd 5 false
  else if !idle then h.calEnd 2 false
  else f ({ (h.setFld .calStatus Fld.calStatus_busy 1) with lgt := { h.lgt with cal := some (cmd, target), calResult := 0, calWrites := [] } })

/-- SAVE_OCTET: live values of every lane that is UP and locked. -/
def Hw.saveOctet (h : Hw) (v : Nv) (o : Nat) : Hw :=
  (List.range 8).foldl (fun h i =>
    let n := 8 * o + i
    let p := h.portOf n
    if h.linkUp p ∧ Nat.testBit (h.fld (.portLink p) Fld.portLink_rxMask) (n - p) = true then
      let h := h.adaptLane v n
      { h with lgt := { h.lgt with calWrites := h.lgt.calWrites ++ [(n, (h.liveOf v n).1, (h.liveOf v n).2 ||| 0x8000000000000000)] } }
    else h.satFld .calStatus Fld.calStatus_skipped 1) (h.setFld .calStatus Fld.calStatus_skipped 0)

def execSaveOctet (o : Octet) (guard : BitVec 16) (s : State) : Host.Outcome State Fault Refusal :=
  .next (s.onLive fun h => h.calBegin 1 o guard.toNat true true fun h => h.saveOctet s.nv o)

/-- Floor lanes of path `k` with the group or hub lane each belongs to. -/
def floorLanes (k : Nat) : List (Nat × Nat) :=
  if k < 12 then (List.range 128).map fun w => (128 * k + w, w / 8) else (List.range 8).map fun w => (1536 + 8 * (k - 12) + w, w)

/-- The group or hub lane of a path that floor lane `j` belongs to. -/
def floorPlace (j : Nat) : Nat × Nat := if j < 1536 then (j / 128, j % 128 / 8) else (12 + (j - 1536) / 8, (j - 1536) % 8)

/-- The loops of a floor lane in use adapt every field of its live record (R241, R247). (DESIGN CHOICE log entry 26.) -/
def Hw.adaptFloor (h : Hw) (v : Nv) (j : Nat) : Hw :=
  if Nat.testBit (h.fld (.floorPath (floorPlace j).1) Fld.floorPath_upMask) (floorPlace j).2 = false then h
  else
    let (x, h) := h.draw
    h.setLiveFloor j ((h.liveFloorOf v j &&& 0xffffff0000000000) ||| (x &&& 0xffffffffff))

/-- SAVE_FLOOR: live values of the path's lanes in use. -/
def Hw.saveFloor (h : Hw) (v : Nv) (k : Nat) : Hw :=
  (floorLanes k).foldl (fun h j =>
    if Nat.testBit (h.fld (.floorPath k) Fld.floorPath_upMask) j.2 then
      let h := h.adaptFloor v j.1
      { h with lgt := { h.lgt with calWrites := h.lgt.calWrites ++ [(j.1, h.liveFloorOf v j.1 ||| 0x8000000000000000, 0)] } }
    else h.satFld .calStatus Fld.calStatus_skipped 1) (h.setFld .calStatus Fld.calStatus_skipped 0)

def execSaveFloor (k : FloorPath) (guard : BitVec 16) (s : State) : Host.Outcome State Fault Refusal :=
  .next (s.onLive fun h => h.calBegin 2 k guard.toNat true true fun h => h.saveFloor s.nv k)

/-- LIVE_LANE of an octet comes from the store again. -/
def Hw.reloadOctet (h : Hw) (v : Nv) (o : Nat) : Hw := h.reloadLanes v ((List.range 8).map (8 * o + ·))

/-- LOAD_OCTET. -/
def Hw.loadOctet (h : Hw) (v : Nv) (o : Nat) : Hw :=
  (h.octetPorts o).foldl (fun h n => if h.linkState n = 0 then h else h.leaveUp n fun h => h.startTraining v n true) (h.reloadOctet v o)

def execLoadOctet (o : Octet) (s : State) : Host.Outcome State Fault Refusal :=
  .next (s.onLive fun h => h.calBegin 3 o 0 false ((h.octetPorts o).all fun n => !h.inService n) fun h => h.loadOctet s.nv o)

/-- LIVE_FLOOR of these floor lanes comes from the store again. -/
def Hw.reloadFloorLanes (h : Hw) (v : Nv) (js : List Nat) : Hw :=
  (js.filter fun j => !calValid (v.calFloorOf j)).foldl (fun h j => h.calInvalid (pathDie (floorPlace j).1) (0x800 + j))
    { h with lgt := { h.lgt with liveFloor := h.lgt.liveFloor.filter fun x => !js.contains x.1 } }

/-- One group of a path, or one lane of a hub path, leaves it, takes new live values by `f`, relocks and rejoins. -/
def Hw.cycleGroup (h : Hw) (k g : Nat) (f : Hw → Hw) : Hw :=
  let up := Nat.testBit (h.fld (.floorPath k) Fld.floorPath_upMask) g
  let h := f (h.groupDrop k g)
  if up then h.setFld (.floorPath k) Fld.floorPath_upMask (h.fld (.floorPath k) Fld.floorPath_upMask + 2 ^ g) else h

/-- LOAD_FLOOR: one group at a time; the drops are as R239 gives. The one that leaves comes back in this command, so a hub path is not
lost by it. (DESIGN CHOICE log entry 27.) -/
def Hw.reloadFloor (h : Hw) (v : Nv) (k : Nat) : Hw := 
  (List.range (pathWidth k)).foldl (fun h g => h.cycleGroup k g fun h =>
    h.reloadFloorLanes v (((floorLanes k).filter fun j => j.2 == g).map (·.1))) h

def execLoadFloor (k : FloorPath) (s : State) : Host.Outcome State Fault Refusal :=
  .next (s.onLive fun h => h.calBegin 4 k 0 false true fun h => h.reloadFloor s.nv k)

/-- RECOMMISSION_OCTET: needs every port DARK; the new records, which are live at once, or NO_LOOPBACK. -/
def Hw.recommissionOctet (h : Hw) (o : Nat) (seen : Bool) (recs : List (W64 × W64)) : Hw :=
  if !seen then { h with lgt := { h.lgt with calResult := 3 } }
  else
    let new := (List.range 8).map fun i =>
      let r := recs.getD i (0, 0)
      (8 * o + i, r.1 &&& 0xffffffffffffff, (r.2 &&& 0xffffff) ||| 0x8000000000000000)
    let h := new.foldl (fun h w => h.setLive w.1 w.2) h
    { h with lgt := { h.lgt with calWrites := new } }

def execRecommissionOctet (o : Octet) (guard : BitVec 16) (patternSeen : Bool) (recs : List (W64 × W64)) (s : State) :
    Host.Outcome State Fault Refusal :=
  .next (s.onLive fun h => h.calBegin 5 o guard.toNat true ((h.octetPorts o).all fun n => h.linkState n == 0) fun h => h.recommissionOctet o patternSeen recs)

/-- RECOMMISSION_FLOOR: a new record for each lane of the path, live at once, one group at a time. -/
def Hw.recommissionFloor (h : Hw) (k : Nat) (recs : List W64) : Hw :=
  let new := (floorLanes k).zipIdx.map fun j => (j.1.2, j.1.1, (recs.getD j.2 0 &&& 0xffffffffff) ||| 0x8000000000000000)
  let h := (List.range (pathWidth k)).foldl (fun h g => h.cycleGroup k g fun h =>
    (new.filter fun w => w.1 == g).foldl (fun h w => h.setLiveFloor w.2.1 w.2.2) h) h
  { h with lgt := { h.lgt with calWrites := new.map fun w => (w.2.1, w.2.2, 0) } }

def execRecommissionFloor (k : FloorPath) (guard : BitVec 16) (recs : List W64) (s : State) : Host.Outcome State Fault Refusal :=
  .next (s.onLive fun h => h.calBegin 6 k guard.toNat true true fun h => h.recommissionFloor k recs)

/-- Put one record of the running command into the store. -/
def Nv.putCal (v : Nv) (floor : Bool) (w : Nat × W64 × W64) : Nv :=
  { v with calLane := if floor then v.calLane else aput w.1 w.2 v.calLane,
           calFloor := if floor then aput w.1 w.2.1 v.calFloor else v.calFloor,
           calWrites := if v.calWrites = 0xffffffff then v.calWrites else v.calWrites + 1 }

/-- The live value of a lane stays as it is when its record in the store changes (R247). -/
def Hw.pinLive (h : Hw) (v : Nv) (floor : Bool) (n : Nat) : Hw :=
  if floor then h.setLiveFloor n (h.liveFloorOf v n) else h.setLive n (h.liveOf v n)

/-- Write the records of a command; where the store fails, each record is written or not, which is a free value. (DESIGN CHOICE log entry 26.) -/
def putCals (ok floor : Bool) : List (Nat × W64 × W64) → Hw × Nv → Hw × Nv
  | [], x => x
  | w :: ws, (h, v) =>
    let h := h.pinLive v floor w.1
    if ok then putCals ok floor ws (h, v.putCal floor w)
    else
      let (b, h) := h.draw
      putCals ok floor ws (h, if b.getLsbD 0 then v.putCal floor w else v)

/-- CAL_COMMAND_DONE: the running command ends. -/
def State.calDone (s : State) (storeOk : Bool) : State :=
  match s.hw.lgt.cal with
  | none => s
  | some (cmd, _) =>
    let writes := s.hw.lgt.calWrites
    let floor := decide (cmd % 2 = 0)
    let (h, v) := putCals storeOk floor writes (s.hw, s.nv)
    let result := if h.lgt.calResult ≠ 0 then h.lgt.calResult else if storeOk || writes.isEmpty then 0 else 4
    let h := { h with lgt := { h.lgt with cal := none, calResult := 0, calWrites := [] } }
    { s with hw := h.calEnd result true, nv := v }

def execCalCommandDone (storeOk : Bool) (s : State) : Host.Outcome State Fault Refusal := .next (s.calDone storeOk)

end Sys2Proof.Machine
end

