-- ==== Sys2Proof/Machine/Setup.lean ====
section
/-! DEFINITION. Writes to the registers that a stage set may name (R269): the P-die blocks and the hub's forwarding registers, with what
each write refuses (R92, R93, R104, R120, R123, R226, R309). -/

namespace Sys2Proof.Machine

/-- A field value out of its range leaves a P-die buffer register unchanged and sets BUF_STATUS.CFG_ERR (R123). -/
def Hw.bufWrite (h : Hw) (q : Nat) (r : Reg) (a : Acc) (v : W64) (ok : W64 → Bool) : Hw :=
  let w := h.writeWord r a v
  if ok w then h.setReg r w else h.setFld (.bufStatus q) Fld.bufStatus_cfgErr 1

/-- The conditions of R123 on BUF_CLASS[t]; the LIMIT of TC0 and TC1 is ignored, out of its range too. (DESIGN CHOICE log entry 17.) -/
def Hw.bufClassOk (h : Hw) (q t : Nat) (w : W64) : Bool :=
  let res := Fld.bufClass_reserve.get w
  let lim := Fld.bufClass_limit.get w
  let others := (((List.range 8).filter fun k => k != t).map fun k => h.fld (.bufClass q k) Fld.bufClass_reserve).sum
  decide (res ≤ 2560) && decide (others + res ≤ 2560) && (decide (t < 2) || (decide (lim ≤ 2560) && decide (res ≤ lim)))

/-- PORT_FWD: the learning fields, then VENT_REQ (R88). -/
def Hw.portFwdWrite (h : Hw) (n : Nat) (a : Acc) (v : W64) : Hw :=
  let w := h.writeWord (.portFwd n) a v
  let req := Fld.portFwd_ventReq.get w
  let h := h.setReg (.portFwd n) (Fld.portFwd_ventReq.put w (h.fld (.portFwd n) Fld.portFwd_ventReq))
  if req = 1 then h.portVent n else h.portUnvent n

/-- LINK_CTL: CMD_ERR is cleared, then CMD (R229, R237). -/
def Hw.linkCtlWrite (h : Hw) (nv : Nv) (n : Nat) (a : Acc) (v : W64) : Hw :=
  if a = .hi then h
  else
    let h := h.setReg (.linkCtl n) (h.writeWord (.linkCtl n) a v)
    match v.toNat % 4 with
    | 1 => h.linkCommand nv n false
    | 2 => h.linkCommand nv n true
    | 3 => h.rejoin n
    | _ => h

/-- CIRCUIT_CTL: CMD_ERR is cleared, then CMD (R93). -/
def Hw.circuitCtlWrite (h : Hw) (nv : Nv) (i : Nat) (a : Acc) (v : W64) : Hw :=
  if a = .hi then h
  else
    let h := h.setReg (.circuitCtl i) (h.writeWord (.circuitCtl i) a v)
    match v.toNat % 8 with
    | 1 => h.circuitVent i
    | 2 => h.circuitRetrain nv i
    | 3 => h.circuitDisable i
    | 4 => h.circuitEnable nv i
    | _ => h

/-- CNT_SEL: another die type's event number is refused (R309); 0 selects no event on any die. (DESIGN CHOICE log entry 47.) -/
def cntSelOk (d : Nat) (w : W64) : Bool :=
  let e := Fld.cntSel_event.get w
  e == 0 || decide (eventBase d ≤ e) && decide (e < eventBase d + 256)

def Hw.cntSelWrite (h : Hw) (d k : Nat) (a : Acc) (v : W64) : Hw :=
  let w := h.writeWord (.cntSel d k) a v
  if cntSelOk d w then h.setReg (.cntSel d k) w else h

/-- CNT_VAL: a fixed counter without an event stays 0 (R309, R311). -/
def Hw.cntValWrite (h : Hw) (d k : Nat) (a : Acc) (v : W64) : Hw :=
  if k < 256 ∧ eventAssigned (eventBase d + k) = false then h else h.setReg (.cntVal d k) (h.writeWord (.cntVal d k) a v)

/-- A counter's die takes writes: the hub always, another die while its quadrant can be reached. -/
def Hw.dieReach (h : Hw) (d : Nat) : Bool := decide (8 ≤ d) || h.quadReach (d % 4)

/-- A write to a register of a P-die block, or to a forwarding register of the hub. -/
def Hw.setupWrite (h : Hw) (nv : Nv) (r : Reg) (a : Acc) (v : W64) : Hw :=
  let plain : Hw := h.setReg r (h.writeWord r a v)
  match r with
  | .fwdCfg =>
    let h1 := h.setHubReg .fwdCfg (h.writeWord .fwdCfg a v)
    if a = .lo then h1 else { h1 with fwd := { h1.fwd with ageWrite := h.slot 0 } }
  | .fwdSeed => h.pinSeedWrite a v
  | .mirrorCfg m => h.mirrorCfgWrite m a v
  | .circuitMap i => h.circuitMapWrite i a v
  | .circuitCtl i => h.circuitCtlWrite nv i a v
  | .cntVal d k => if h.dieReach d then h.cntValWrite d k a v else h
  | .cntSel d k => if h.dieReach d then h.cntSelWrite d k a v else h
  | _ =>
    match r.quad with
    | none => h
    | some q =>
      if !h.quadReach q then h
      else match r with
        | .zoneTbl q i => h.levelWrite .zone q i a v
        | .rowTbl q i => h.levelWrite .row q i a v
        | .rackTbl q i => h.levelWrite .rack q i a v
        | .sparTbl q i => h.sparWrite q (i / 32) (i % 32) a v
        | .portFwd n => if h.portStart n then h.portFwdWrite n a v else h
        | .classCfg q _ =>
          h.bufWrite q r a v fun w => decide (1 ≤ Fld.classCfg_ageUs.get w) && decide (Fld.classCfg_ageUs.get w ≤ 64000)
        | .bufClass q t => h.bufWrite q r a v (h.bufClassOk q t)
        | .voqCfg q _ => h.bufWrite q r a v fun w => decide (1 ≤ Fld.voqCfg_qlimit.get w)
        | .noticeCfg q => h.bufWrite q r a v fun w => decide (1 ≤ Fld.noticeCfg_noticeGapUs.get w)
        | .spillCfg q => h.spillCfgWrite q a v
        | .bufStatus _ => plain
        | .schedPort n => if h.portStart n then plain else h
        | .shaper n t w => h.shaperWrite n t w a v
        | .policer q k w => h.policerWrite q k w a v
        | .policeMap n _ => if h.portStart n then plain else h
        | .octetCfg o => h.octetCfgWrite nv o a v
        | .octetStatus _ => plain
        | .linkCtl n => if h.portStart n then h.linkCtlWrite nv n a v else h
        | _ => h

/-- The error bit that a refused write of a register sets. -/
def Reg.errBit : Reg → Option (Reg × Fld)
  | .circuitMap i => some (.circuitCtl i, Fld.circuitCtl_cmdErr)
  | .circuitCtl i => some (.circuitCtl i, Fld.circuitCtl_cmdErr)
  | .classCfg q _ => some (.bufStatus q, Fld.bufStatus_cfgErr)
  | .bufClass q _ => some (.bufStatus q, Fld.bufStatus_cfgErr)
  | .voqCfg q _ => some (.bufStatus q, Fld.bufStatus_cfgErr)
  | .noticeCfg q => some (.bufStatus q, Fld.bufStatus_cfgErr)
  | .spillCfg q => some (.bufStatus q, Fld.bufStatus_cfgErr)
  | .octetCfg o => some (.octetStatus o, Fld.octetStatus_cfgErr)
  | .linkCtl n => some (.linkCtl n, Fld.linkCtl_cmdErr)
  | _ => none

/-- A whole-word write of this register would be refused. -/
def Hw.setupRefuses (h : Hw) (nv : Nv) (r : Reg) (v : W64) : Bool :=
  match r with
  | .cntSel d _ => !cntSelOk d v
  | _ =>
    match r.errBit with
    | none => false
    | some (e, f) => ((h.setFld e f 0).setupWrite nv r .full v).bit e f

end Sys2Proof.Machine
end

