-- ==== Sys2Proof/Machine/Host.lean ====
section
/-! DEFINITION. The host interface: doorbells, ring pairs, descriptor fetch, the short commands of the rings, staged updates, record
buffers, MSI-X, and the events of the PCI Express side (R251 to R275). -/

namespace Sys2Proof.Machine

/-! ### Doorbells (R254, R258) -/

def Hw.badDoorbell (h : Hw) : Hw := h.satFld .hqStatus Fld.hqStatus_badDoorbells 1

/-- The pair takes no doorbell: DISABLED or ERROR. -/
def Hw.ringDead (h : Hw) (r : Nat) : Bool := h.ringState r == 0 || h.ringState r == 3

/-- SQ_DOORBELL. -/
def Hw.sqDoorbell (h : Hw) (r : Nat) (v : W64) : Hw :=
  let t := v.toNat % 65536
  if h.ringDead r then h.badDoorbell
  else if h.sqSize r ≤ t then h.ringError r 1
  else h.setFld (.ringStatus r) Fld.ringStatus_sqTail t

def execSqDoorbell (r : Ring) (v : W64) (s : State) : Host.Outcome State Fault Refusal := .next (s.onLive fun h => h.sqDoorbell r v)

/-- Completions from index `a` up to `b` of a ring of `n`. -/
def ringDist (n a b : Nat) : Nat := (b + n - a % n) % n

/-- CQ_DOORBELL (R258, R271): completions that CQ_HEAD has passed are no longer to be signaled, and a CQ with IRQ_EN = 1 is armed by ARM. -/
def Hw.cqDoorbell (h : Hw) (r : Nat) (v : W64) : Hw :=
  let c := v.toNat % 65536
  let n := h.cqSize r
  let tail := h.fld (.ringStatus r) Fld.ringStatus_cqTail
  if h.ringDead r then h.badDoorbell
  else if n ≤ c ∨ ringDist n (h.ring r).cqHead tail < ringDist n (h.ring r).cqHead c then h.ringError r 2
  else
    let x := h.ring r
    let h := h.setRing r { x with cqHead := c, waiting := x.waiting.drop (x.waiting.length - ringDist n c tail) }
    if v.getLsbD 16 && h.bit (.ringCtl r) Fld.ringCtl_irqEn then (h.setRing r { h.ring r with armed := true }).cqSignal r true else h

def execCqDoorbell (r : Ring) (v : W64) (s : State) : Host.Outcome State Fault Refusal := .next (s.onLive fun h => h.cqDoorbell r v)

/-- BAD_DOORBELL: a BAR2 write that is not an aligned 8-byte write at 0x000 or 0x008 of a page. -/
def execBadDoorbell (off : BitVec 20) (size : Nat) (s : State) : Host.Outcome State Fault Refusal :=
  .next (s.onLive fun h => if size = 8 ∧ (off.toNat % 4096 = 0 ∨ off.toNat % 4096 = 8) then h else h.badDoorbell)

/-! ### Starting and stopping a pair (R257, R260) -/

/-- RING_ENABLE: RING_CTL is written with ENABLE = 1 while the pair is DISABLED. -/
def Hw.ringEnable (h : Hw) (r : Nat) (v : W64) : Hw :=
  if h.ringState r ≠ 0 then h
  else
    let h := h.setReg (.ringCtl r) (Fld.ringCtl_enable.put (h.writeWord (.ringCtl r) .full v) 1)
    let h := (h.setReg (.ringStatus r) 0).setRingState r 1
    h.setRing r RingSt.fresh

def execRingEnable (r : Ring) (v : W64) (s : State) : Host.Outcome State Fault Refusal := .next (s.onLive fun h => h.ringEnable r v)

/-- The set of staged items is discarded. -/
def Hw.stageDrop (h : Hw) : Hw := { h with hst := { h.hst with stage := [], stageOwner := 0 } }

/-- Opcodes of long operations that a stop ends, and of copies. -/
def opStops (op : Nat) : Bool := [0x023, 0x050, 0x058, 0x060, 0x061].contains op
def opCopies (op : Nat) : Bool := [0x040, 0x041, 0x042].contains op

/-- A long operation that a stop or an FLR asks to end at its next step; CANCEL leaves FW_COMMIT alone too. -/
def longStops : LongOp → Bool
  | .excRehash | .dirRehash => false
  | .excDump | .hbmWipe | .counterSnapshot | .fwStage | .fwCommit => true

/-- Ask the running operations and copies that `p` names, by ring and descriptor, to end at the next boundary. -/
def Hw.askStop (h : Hw) (p : Nat → Nat → Bool) : Hw :=
  let long (l : LongRun) : LongRun := if longStops l.op && p l.ring l.ix then { l with stop := true } else l
  let copy (d : CopyDesc) : CopyDesc :=
    match d.from_ with
    | .host r ix => if p r ix then { d with cancelled := true } else d
    | .fabric _ _ => d
  { h with hst := { h.hst with long := h.hst.long.map long },
           gon := { h.gon with copies := h.gon.copies.map fun l => l.map copy } }

/-- RING_DISABLE: a RUNNING or PAUSED pair becomes STOPPING; one in ERROR becomes DISABLED. Long operations and copies that were started
and not begun end at once with ABORTED. (DESIGN CHOICE log entry 44.) -/
def Hw.ringDisable (h : Hw) (r : Nat) : Hw :=
  let st := h.ringState r
  if st = 1 ∨ st = 4 then
    let h := (h.setFld (.ringCtl r) Fld.ringCtl_enable 0).setRingState r 2
    let h := if h.hst.stageOwner = r then h.stageDrop else h
    let h := h.askStop fun x _ => x == r
    (h.hst.started.filter fun d => d.ring == r && !d.begun && (opStops d.opcode || opCopies d.opcode)).foldl
      (fun h d => h.finish d 0x06 0) h
  else if st = 3 then
    let h := h.askStop fun x _ => x == r
    let h := ((h.setFld (.ringCtl r) Fld.ringCtl_enable 0).setRingState r 0).setFld (.ringStatus r) Fld.ringStatus_err 0
    let h := if h.hst.stageOwner = r then h.stageDrop else h
    { h with hst := { h.hst with started := h.hst.started.filter fun d => d.ring != r } }
  else h

def execRingDisable (r : Ring) (s : State) : Host.Outcome State Fault Refusal := .next (s.onHw fun h => h.ringDisable r)

/-- RING_STOP_COMPLETE: only record buffers are left; they complete with what they hold, and the pair becomes DISABLED. While the chip
may start no request completions are held, so the pair stops after that. -/
def Hw.ringStopComplete (h : Hw) (r : Nat) : Hw :=
  let mine := h.hst.started.filter fun d => d.ring == r
  if h.ringState r ≠ 2 ∨ h.hst.mayRequest = false ∨ (mine.any fun d => d.opcode != 0x070) = true then h
  else (mine.foldl (fun h d => h.finishBuf d 0) h).setRingState r 0

def execRingStopComplete (r : Ring) (s : State) : Host.Outcome State Fault Refusal := .next (s.onHw fun h => h.ringStopComplete r)

/-- A BAR0 write of RING_CTL[r], SQ_BASE[r] or CQ_BASE[r] (R257). (DESIGN CHOICE log entry 17.) -/
def Hw.ringWrite (h : Hw) (r : Nat) (reg : Reg) (a : Acc) (v : W64) : Hw :=
  let w := h.writeWord reg a v
  let refuse : Hw := h.setFld .hqStatus Fld.hqStatus_cfgErr 1
  match reg with
  | .ringCtl _ =>
    let fixed : W64 := 0xffe
    if h.ringState r = 0 then
      if Fld.ringCtl_enable.get w = 1 then h.ringEnable r w else h.setReg reg w
    else if w &&& fixed ≠ h.reg reg &&& fixed then refuse
    else
      let h := h.setReg reg (Fld.ringCtl_enable.put w (h.fld reg Fld.ringCtl_enable))
      if Fld.ringCtl_enable.get w = 0 then h.ringDisable r else h
  | _ => if h.ringState r = 0 then h.setReg reg w else if w = h.reg reg then h else refuse

/-! ### Descriptor fetch (R259, R261) -/

/-- The opcode table of R264. -/
def opAssigned (op : Nat) : Bool :=
  [0x001, 0x002, 0x010, 0x011, 0x012, 0x020, 0x021, 0x022, 0x023, 0x024, 0x028, 0x029, 0x030, 0x031, 0x038, 0x039, 0x040, 0x041, 0x042,
   0x048, 0x049, 0x050, 0x058, 0x060, 0x061, 0x062, 0x070].contains op

/-- The opcode is allowed on a ring of this KIND. -/
def opOnRing (op kind : Nat) : Bool := op == 0x001 || (if op = 0x070 then kind == 1 else kind == 0)

/-- The descriptor that a ring has started and the engine has not begun. -/
def Hw.unbegun (h : Hw) (r : Nat) : Option Desc := h.hst.started.find? fun d => d.ring == r && !d.begun

/-- Descriptors of the ring that have started and not completed. -/
def Hw.ringLoad (h : Hw) (r : Nat) : Nat := (h.hst.started.filter fun d => d.ring == r).length

/-- The CQ has room for one more completion besides those owed. -/
def Hw.cqRoom (h : Hw) (r : Nat) : Bool :=
  let n := h.cqSize r
  decide (ringDist n (h.ring r).cqHead (h.fld (.ringStatus r) Fld.ringStatus_cqTail) + (h.ring r).heldCq.length + h.ringLoad r + 1 ≤ n - 1)

/-- DESCRIPTOR_FETCH. A descriptor with ORDER waits until no earlier one is left. -/
def Hw.descriptorFetch (h : Hw) (r : Nat) (got : Option (List Byte)) : Hw :=
  let head := h.fld (.ringStatus r) Fld.ringStatus_sqHead
  if h.ringState r ≠ 1 ∨ h.hst.mayRequest = false ∨ head = h.fld (.ringStatus r) Fld.ringStatus_sqTail ∨ h.cqRoom r = false ∨
      (h.unbegun r).isSome = true then h
  else
    match got with
    | none => h.ringError r 3
    | some l =>
      let d : Desc := { ring := r, ix := h.hst.nextIx, bytes := (padTo 64 l).take 64, begun := false, filled := [], nrec := 0, firstAt := none }
      if d.order && decide (0 < h.ringLoad r) then h
      else
        let h := h.setFld (.ringStatus r) Fld.ringStatus_sqHead ((head + 1) % h.sqSize r)
        let h := { h with hst := { h.hst with started := h.hst.started ++ [d], nextIx := h.hst.nextIx + 1 } }
        if opAssigned d.opcode = false then h.finish d 0x01 0
        else if opOnRing d.opcode (h.fld (.ringCtl r) Fld.ringCtl_kind) = false then h.finish d 0x03 0
        else h

/-! ### Turns of the command engine (R268) -/

/-- The work item of a long operation. -/
def longItem (k : LongOp) : Nat :=
  256 + match k with
    | .excDump => 0 | .excRehash => 1 | .dirRehash => 2 | .hbmWipe => 3 | .counterSnapshot => 4 | .fwStage => 5 | .fwCommit => 6

/-- The work items: rings with a descriptor for the engine, and the running long operations. -/
def Hw.workItems (h : Hw) : List Nat :=
  ((h.hst.started.filter fun d => !d.begun).map fun d => d.ring) ++ h.hst.long.map fun l => longItem l.op

/-- The engine serves work items in round robin: item `i` has its turn unless it was served in this round and another item was not. (DESIGN CHOICE log entry 44.) -/
def Hw.mayTurn (h : Hw) (i : Nat) : Bool :=
  !h.hst.round.contains i || h.workItems.all fun j => j == i || h.hst.round.contains j

/-- Item `i` has had its turn. (DESIGN CHOICE log entry 44.) -/
def Hw.tookTurn (h : Hw) (i : Nat) : Hw :=
  { h with hst := { h.hst with round := if h.hst.round.contains i then [i] else i :: h.hst.round } }

/-! ### Short commands (R264, R265) -/

/-- Run the command that ring `r` has started, if its opcode is `op` and the ring has its turn: in a chip FATAL every command completes
with BUSY (R324), before DP_READY every one but those `early` (R255). -/
def Hw.command (h : Hw) (r op : Nat) (early : Bool) (f : Desc → Hw) : Hw :=
  match h.unbegun r with
  | none => h
  | some d =>
    if d.opcode ≠ op ∨ h.mayTurn r = false then h
    else Hw.tookTurn (if h.fatalChip || (!early && !h.dpReady) then h.finish d 0x04 0 else f d) r

/-- A short command's end. -/
def Hw.endCmd (d : Desc) (x : CmdEnd × Hw) : Hw := x.2.finish d x.1.status x.1.result

/-- A command that needs host memory waits while the chip may start no request (R252, R275). (DEDUCED log entry 43.) -/
def Hw.withHost (h : Hw) (f : Hw) : Hw := if h.hst.mayRequest then f else h

/-- `n` bytes that host memory gave, if it gave them. (DEDUCED log entry 43.) -/
def dmaOf (dma : Option (List Byte)) (n : Nat) : Option (List Byte) := dma.bind fun l => if n ≤ l.length then some (l.take n) else none

def execNop (r : Ring) (s : State) : Host.Outcome State Fault Refusal :=
  .next (s.onHw fun h => h.command r 0x001 true fun d => h.finish d 0 0)

/-- CANCEL: the long operation or copy of the ring with the tag, if it can be stopped (R265, item 11). (DESIGN CHOICE log entry 44, DEDUCED log entry 61.) -/
def Hw.cmdCancel (h : Hw) (d : Desc) : Hw :=
  let tag := getLE d.bytes 8 4
  let target := h.hst.started.find? fun x => x.ring == d.ring && x.begun && x.tag == tag && (opStops x.opcode || opCopies x.opcode) && x.opcode != 0x061
  match target with
  | none => h.finish d 0x11 0
  | some t => (h.askStop fun _ ix => ix == t.ix).finish d 0 0

def execCancel (r : Ring) (s : State) : Host.Outcome State Fault Refusal :=
  .next (s.onHw fun h => h.command r 0x002 false h.cmdCancel)

/-! #### The stage set (R268, R269) -/

/-- Another ring owns the stage set. -/
def Hw.stageHeld (h : Hw) (r : Nat) : Bool := !h.hst.stage.isEmpty && h.hst.stageOwner != r

/-- Add items to the set: the number staged in total, or a refusal. -/
def Hw.stageAdd (h : Hw) (r : Nat) (l : List StageItem) : CmdEnd × Hw :=
  if h.stageHeld r then (.fail 0x08, h)
  else if 1024 < h.hst.stage.length + l.length then (.fail 0x09, h)
  else (.ok (h.hst.stage.length + l.length), { h with hst := { h.hst with stage := h.hst.stage ++ l, stageOwner := r } })

/-- A BAR0 offset that a STAGE_WRITE may name. -/
def stageAddr (a : Nat) : Bool :=
  a % 8 == 0 && ((decide (0x1000 ≤ a) && decide (a ≤ 0x3fff)) || (decide (0x800000 ≤ a) && decide (a < 0x2800000)))

/-- STAGE_WRITE. -/
def Hw.cmdStageWrite (h : Hw) (d : Desc) : CmdEnd × Hw :=
  let n := d.flags % 4
  let items := (List.range n).map fun i => (getLE d.bytes (16 + 16 * i) 8, getLE d.bytes (24 + 16 * i) 8)
  if h.stageHeld d.ring then (.fail 0x08, h)
  else if n = 0 ∨ (items.all fun x => stageAddr x.1) = false then (.fail 0x02, h)
  else h.stageAdd d.ring (items.map fun x => .reg x.1 (BitVec.ofNat 64 x.2))

def execStageWrite (r : Ring) (s : State) : Host.Outcome State Fault Refusal :=
  .next (s.onHw fun h => h.command r 0x010 false fun d => Hw.endCmd d (h.cmdStageWrite d))

/-- Apply one item: the status that refuses it, or the chip after it. -/
def Hw.stageApply (h : Hw) (nv : Nv) (i : StageItem) : Nat × Hw :=
  let fin (x : CmdEnd × Hw) : Nat × Hw := (if x.1.status = 0x0a then 0 else x.1.status, x.2)
  match i with
  | .reg a v =>
    match Reg.ofAddr a with
    | none => (0, h)
    | some r => if h.setupRefuses nv r v then (0x02, h) else (0, h.setupWrite nv r .full v)
  | .excWrite w no => fin (h.cmdExcWrite w no)
  | .excRemove n => fin (h.cmdExcRemove n)
  | .mcast g m => fin (h.cmdMcastWrite g m)

/-- Apply items in order until one is refused. -/
def Hw.stageRun (nv : Nv) : List StageItem → Hw → Nat × Hw
  | [], h => (0, h)
  | i :: l, h =>
    let x := h.stageApply nv i
    if x.1 = 0 then Hw.stageRun nv l x.2 else x

/-- STAGE_COMMIT: all items or none, as one re-route. (DESIGN CHOICE log entry 44, DEDUCED log entry 61.) -/
def Hw.cmdStageCommit (h : Hw) (nv : Nv) (r : Nat) : CmdEnd × Hw :=
  if h.stageHeld r then (.fail 0x08, h)
  else
    let x := Hw.stageRun nv h.hst.stage { h with fwd := { h.fwd with gathered := some [] } }
    if x.1 ≠ 0 then (.fail x.1, h.stageDrop)
    else
      let keys := (x.2.fwd.gathered.getD []).map fun k => (⟨k.1, k.2⟩ : RouteKey)
      let h := (Hw.stageDrop { x.2 with fwd := { x.2.fwd with gathered := none } }).reroute keys
      (h.reached (.ok (h.fld .epochStatus Fld.epochStatus_epoch)), h)

def execStageCommit (r : Ring) (s : State) : Host.Outcome State Fault Refusal :=
  .next (s.onHw fun h => h.command r 0x011 false fun d => Hw.endCmd d (h.cmdStageCommit s.nv r))

/-- STAGE_DISCARD. -/
def Hw.cmdStageDiscard (h : Hw) (r : Nat) : CmdEnd × Hw :=
  if h.stageHeld r then (.fail 0x08, h) else (.ok h.hst.stage.length, h.stageDrop)

def execStageDiscard (r : Ring) (s : State) : Host.Outcome State Fault Refusal :=
  .next (s.onHw fun h => h.command r 0x012 false fun d => Hw.endCmd d (h.cmdStageDiscard r))

/-! #### Tables -/

/-- A staged command's end: its RESULT is that of the table, 0 where nothing has been done yet. (DESIGN CHOICE log entry 44.) -/
def stagedEnd (x : CmdEnd × Hw) : CmdEnd × Hw := ({ x.1 with result := 0 }, x.2)

def execExcWrite (r : Ring) (s : State) : Host.Outcome State Fault Refusal :=
  .next (s.onHw fun h => h.command r 0x020 false fun d =>
    let w : W64 := BitVec.ofNat 64 (getLE d.bytes 8 8)
    let no := bits d.flags 1 1 == 1
    Hw.endCmd d (if bits d.flags 0 1 = 1 then stagedEnd (h.stageAdd r [.excWrite w no]) else h.cmdExcWrite w no))

def execExcRemove (r : Ring) (s : State) : Host.Outcome State Fault Refusal :=
  .next (s.onHw fun h => h.command r 0x021 false fun d =>
    let n : Node := BitVec.ofNat 24 (getLE d.bytes 8 3)
    Hw.endCmd d (if bits d.flags 0 1 = 1 then stagedEnd (h.stageAdd r [.excRemove n]) else h.cmdExcRemove n))

def execExcRead (r : Ring) (s : State) : Host.Outcome State Fault Refusal :=
  .next (s.onHw fun h => h.command r 0x022 false fun d => Hw.endCmd d (h.cmdExcRead (BitVec.ofNat 24 (getLE d.bytes 8 3)), h))

/-- MCAST_WRITE: the mask is read from host memory when the command runs, staged or not. -/
def execMcastWrite (r : Ring) (dma : Option (List Byte)) (s : State) : Host.Outcome State Fault Refusal :=
  .next (s.onHw fun h => h.command r 0x028 false fun d => h.withHost
    (match dmaOf dma 128 with
     | none => h.finish d 0x05 0
     | some m =>
       let g := getLE d.bytes 8 2
       Hw.endCmd d (if bits d.flags 0 1 = 1 then stagedEnd (h.stageAdd r [.mcast g m]) else h.cmdMcastWrite g m)))

def execMcastRead (r : Ring) (s : State) : Host.Outcome State Fault Refusal :=
  .next (s.onHw fun h => h.command r 0x029 false fun d => h.withHost
    (let e := h.cmdMcastRead (getLE d.bytes 8 2)
     (h.emit (.hostWrite r (getLE d.bytes 16 8) e.data)).finish d e.status e.result))

/-- BRIDLE_CREATE: the member list is read from host memory when MEMBER_COUNT is in range, 1 to 1,024. (DEDUCED log entry 32.) -/
def execBridleCreate (r : Ring) (dma : Option (List Byte)) (s : State) : Host.Outcome State Fault Refusal :=
  .next (s.onHw fun h => h.command r 0x030 false fun d => h.withHost
    (let n := (bridleAskOf d.bytes []).count
     if n = 0 ∨ 1024 < n then Hw.endCmd d (h.cmdBridleCreate s.nv.disabled (bridleAskOf d.bytes []))
     else match dmaOf dma (16 * n) with
       | none => h.finish d 0x05 0
       | some l => Hw.endCmd d (h.cmdBridleCreate s.nv.disabled (bridleAskOf d.bytes l))))

/-- The engine has begun a descriptor, which then runs on. -/
def Hw.begin_ (h : Hw) (d : Desc) : Hw :=
  { h with hst := { h.hst with started := h.hst.started.map fun x => if x.ix = d.ix then { x with begun := true } else x } }

/-- BRIDLE_CLOSE waits without holding a step of the engine. -/
def Hw.closeCmd (h : Hw) (r : Nat) (ab : Bool) (f : Desc → Hw → Option Hw) : Hw :=
  match h.unbegun r with
  | none => h
  | some d =>
    if (bits d.flags 0 1 == 1) != ab then h
    else h.command r 0x031 false fun d =>
      match f d (h.begin_ d) with
      | some h => h
      | none => h.finish d 0x28 0

def execBridleCloseDrain (r : Ring) (s : State) : Host.Outcome State Fault Refusal :=
  .next (s.onHw fun h => h.closeCmd r false fun d h => h.closeDrain d.bytes (.host d.ix))

def execBridleCloseAbort (r : Ring) (s : State) : Host.Outcome State Fault Refusal :=
  .next (s.onHw fun h => h.closeCmd r true fun d h => h.closeAbort d.bytes (.host d.ix))

def execRecipeLoad (r : Ring) (s : State) : Host.Outcome State Fault Refusal :=
  .next (s.onHw fun h => h.command r 0x038 false fun d =>
    Hw.endCmd d (h.cmdRecipeLoad (getLE d.bytes 8 1) ((List.range 4).map fun i => BitVec.ofNat 64 (getLE d.bytes (16 + 8 * i) 8))))

def execRecipeClear (r : Ring) (s : State) : Host.Outcome State Fault Refusal :=
  .next (s.onHw fun h => h.command r 0x039 false fun d => Hw.endCmd d (h.cmdRecipeClear (getLE d.bytes 8 1)))

/-! #### Copies and the directory -/

/-- A copy-engine command goes to C-die[r mod 4]; while that C-die is parked or holds 4,096 descriptors it waits (R201, R375), and one whose
hub path is lost completes with UNREACHABLE (R256). (DEDUCED log entry 38.) -/
def Hw.copyCmd (h : Hw) (r op : Nat) (mk : Desc → CopyDesc) : Hw :=
  h.command r op false fun d =>
    let c := mk d
    if c.len = 0 then h.finish d 0x02 0
    else if h.err.hubLost.get (r % 4) then h.finish d 0x0a 0
    else if h.parked (r % 4) || h.parkReq (r % 4) || decide (4096 ≤ (h.gon.copies.get (r % 4)).length) then h
    else (h.begin_ d).addCopy (r % 4) c

def execCopy (r : Ring) (s : State) : Host.Outcome State Fault Refusal :=
  .next (s.onHw fun h => h.copyCmd r 0x040 fun d => copyOf d.bytes 0 (.host r d.ix))

/-- A transfer between host memory and this chip's exported space. -/
def hostCopy (r : Nat) (d : Desc) (k : CopyKind) : CopyDesc :=
  let off := getLE d.bytes 16 5
  { copyOf d.bytes 0 (.host r d.ix) with kind := k, lastAfterAck := false, cls6 := false, srcOff := off, dstOff := off, len := getLE d.bytes 24 4,
                                         hostAddr := BitVec.ofNat 64 (getLE d.bytes 8 8) }

def execHostToGondola (r : Ring) (s : State) : Host.Outcome State Fault Refusal :=
  .next (s.onHw fun h => h.copyCmd r 0x041 fun d => hostCopy r d .fromHost)

def execGondolaToHost (r : Ring) (s : State) : Host.Outcome State Fault Refusal :=
  .next (s.onHw fun h => h.copyCmd r 0x042 fun d => hostCopy r d .toHost)

/-- DIR_CMD: the operation of a DIR_REQ, its entry written to RESULT_ADDR unless that is 0. -/
def execDirCmd (c : DirRun) (s : State) : Host.Outcome State Fault Refusal :=
  .next (s.onHw fun h => h.command c.ring 0x048 false fun d =>
    let addr := getLE d.bytes 8 8
    if addr ≠ 0 ∧ h.hst.mayRequest = false then h
    else
      let x := h.cmdDir (d.flags % 16) (dirEntOf (slice d.bytes 16 32)) c.err
      let h := if addr = 0 ∨ x.1.data.isEmpty then x.2 else x.2.emit (.hostWrite c.ring addr x.1.data)
      h.finish d x.1.status 0)

/-! #### Records (R270) -/

def execRecordBuf (r : Ring) (s : State) : Host.Outcome State Fault Refusal :=
  .next (s.onHw fun h => h.command r 0x070 true fun d =>
    let len := getLE d.bytes 16 4
    if getLE d.bytes 8 8 % 64 ≠ 0 ∨ len < 256 ∨ 1048576 < len ∨ len % 64 ≠ 0 then h.finish d 0x02 0 else h.begin_ d)

/-- RECORD_FLUSH_TIMER: the buffer at the head of ring `r` has held its first record for RECORD_FLUSH_US. -/
def Hw.recordFlush (h : Hw) (r : Nat) : Hw :=
  match h.recBufs r with
  | [] => h
  | d :: _ =>
    match d.firstAt with
    | none => h
    | some t =>
      if h.hst.mayRequest = false ∨ h.tim.local_ < t + slotsUs * h.fld .hqCtl Fld.hqCtl_recordFlushUs then h else h.finishBuf d 0

def execRecordFlushTimer (r : Ring) (s : State) : Host.Outcome State Fault Refusal := .next (s.onHw fun h => h.recordFlush r)

/-! ### Interrupts (R271) -/

/-- COAL_TIMER_EXPIRE. -/
def Hw.coalExpire (h : Hw) (r : Nat) : Hw :=
  match (h.ring r).firstAt with
  | none => h
  | some t => if h.tim.local_ < t + slotsUs * h.fld (.ringCtl r) Fld.ringCtl_coalUs then h else h.cqSignal r true

def execCoalTimerExpire (r : Ring) (s : State) : Host.Outcome State Fault Refusal := .next (s.onHw fun h => h.coalExpire r)

/-- Send the pending messages of unmasked vectors, if the chip may start a request. -/
def Hw.sendPending (h : Hw) : Hw :=
  if !h.hst.mayRequest then h
  else
    let go := h.hst.msixPending.filter fun v => h.hst.msixOpen.contains v
    go.foldl (fun h v => h.emit (.msix v))
      { h with hst := { h.hst with msixPending := h.hst.msixPending.filter fun v => !h.hst.msixOpen.contains v } }

/-- MSIX_UNMASK: the vector's mask bit falls; a pending message goes out. -/
def Hw.msixUnmask (h : Hw) (v : Nat) : Hw :=
  Hw.sendPending { h with hst := { h.hst with msixOpen := if h.hst.msixOpen.contains v then h.hst.msixOpen else v :: h.hst.msixOpen } }

/-- A vector's mask bit rises. -/
def Hw.msixMask (h : Hw) (v : Nat) : Hw := { h with hst := { h.hst with msixOpen := h.hst.msixOpen.filter fun x => x != v } }

def execMsixUnmask (v : Fin 2048) (s : State) : Host.Outcome State Fault Refusal := .next (s.onLive fun h => h.msixUnmask v)

/-! ### The PCI Express side (R273 to R275) -/

/-- Every field with Cleared-by code `c` in the registers that `p` names returns to its Reset value (R10). -/
def Hw.clearCode (h : Hw) (c : ResetCode) (p : Reg → Bool) : Hw :=
  (h.regs.map (·.1)).foldl (fun h r =>
    if p r then h.setReg r ((h.reg r &&& ~~~(r.clr c)) ||| (r.reset &&& r.clr c)) else h) h

/-- What every event of R273 does; host descriptors end without a completion. The AER status outlasts it. (PRESUMED log entry 63, DEDUCED log entry 43.) -/
def Hw.flr (h : Hw) : Hw :=
  let h := ((h.clearCode .flr fun _ => true).stageDrop).askStop fun _ _ => true
  { h with hst := { h.hst with rings := [], started := [], fwStage := [], msixOpen := [], msixPending := [], msixTab := [], busMaster := false,
                               d3hot := false, round := [], cfg := h.hst.cfg.filter fun x => x.1 == 65 } }

def execFlr (s : State) : Host.Outcome State Fault Refusal := .next (s.onHw fun h => h.flr)

/-- The state of the PCI Express link is `up` and that of PERST# `perst`; a change of the link raises source 77 (R283). -/
def Hw.pcieLink (h : Hw) (up perst : Bool) : Hw :=
  let changed := up != h.hst.pcieUp
  let h : Hw := { h with hst := { h.hst with pcieUp := up, perst := perst } }
  if changed then h.icEvent 77 else h

/-- Configuration requests get Request Retry Status from now on, for at most 100 ms (R274). -/
def Hw.rrsFrom (h : Hw) : Hw := { h with hst := { h.hst with rrs := true, rrsAt := h.tim.local_ } }

/-- Configuration requests get Request Retry Status now. -/
def Hw.rrsNow (h : Hw) : Bool := h.hst.rrs && decide (h.tim.local_ < h.hst.rrsAt + 100 * slotsMs)

/-- PERST_ASSERT. The link goes down with it. -/
def execPerstAssert (s : State) : Host.Outcome State Fault Refusal := .next (s.onHw fun h => h.flr.pcieLink false true)

/-- PERST_DEASSERT. -/
def execPerstDeassert (s : State) : Host.Outcome State Fault Refusal :=
  .next (s.onHw fun h => if h.hst.perst then (h.pcieLink (!h.pwr.porHeld) false).rrsFrom else h)

/-- PCIE_LINK_LOST: as an FLR, with a record. -/
def execPcieLinkLost (s : State) : Host.Outcome State Fault Refusal :=
  .next (s.onHw fun h =>
    if !h.hst.pcieUp then h else (h.flr.pcieLink false h.hst.perst).record { code := 0x0703, die := 8, unit := 0 })

/-- PCIE_LINK_RETURN. -/
def execPcieLinkReturn (s : State) : Host.Outcome State Fault Refusal :=
  .next (s.onHw fun h => if h.hst.pcieUp || h.hst.perst || h.pwr.porHeld then h else (h.pcieLink true false).rrsFrom)

/-- D3HOT_ENTER: running pairs read PAUSED. -/
def Hw.d3hot (h : Hw) : Hw :=
  if h.hst.d3hot || !h.hst.pcieUp then h
  else
    let h := (List.range 256).foldl (fun h r => if h.ringState r = 1 then h.setRingState r 4 else h) h
    { h with hst := { h.hst with d3hot := true } }

def execD3hotEnter (s : State) : Host.Outcome State Fault Refusal := .next (s.onHw fun h => h.d3hot)

/-- Completions held for ring `r` are written. (DESIGN CHOICE log entry 14.) -/
def Hw.writeHeld (h : Hw) (r : Nat) : Hw :=
  let l := (h.ring r).heldCq
  if l.isEmpty then h
  else l.foldl (fun h b => h.cqWrite r (getLE b 0 4) (getLE b 4 1) (getLE b 5 8)) (h.setRing r { h.ring r with heldCq := [] })

/-- The chip may start requests again: held completions are written, and pending messages are sent. -/
def Hw.requestsResume (h : Hw) : Hw :=
  if !h.hst.mayRequest then h else ((List.range 256).foldl (fun h r => h.writeHeld r) h).sendPending

/-- D0_RETURN: the pairs resume, held completions are written, and pending messages are sent. -/
def Hw.d0 (h : Hw) : Hw :=
  if !h.hst.d3hot then h
  else
    let h := { h with hst := { h.hst with d3hot := false } }
    ((List.range 256).foldl (fun h r => if h.ringState r = 4 then h.setRingState r 1 else h) h).requestsResume

def execD0Return (s : State) : Host.Outcome State Fault Refusal := .next (s.onHw fun h => h.d0)

/-! ### Firmware staging (R265, item 10) -/

/-- FW_DISCARD. -/
def execFwDiscard (r : Ring) (s : State) : Host.Outcome State Fault Refusal :=
  .next (s.onHw fun h => h.command r 0x062 true fun d => Hw.finish { h with hst := { h.hst with fwStage := [] } } d 0 0)

end Sys2Proof.Machine
end

