-- ==== Sys2Proof/Machine/Clock.lean ====
section
/-! DEFINITION. The time unit, PTP, the pulse per second, telemetry history, and the layout of an error record (R303 to R308, R316, R327,
R330, R387). -/

namespace Sys2Proof.Machine

/-! ### Fabric time (R305, R306) -/

/-- The time event (R305, R307). -/
def Hw.timeEvent (h : Hw) : Hw := (h.hostEvent 9).icEvent 78

def Hw.tuErr (h : Hw) : Hw := h.setFld .tuStatus Fld.tuStatus_cfgErr 1

/-- Fabric time wraps with its 48-bit seconds. -/
def fabricMod : Nat := 2 ^ 48 * 1000000000

/-- A set or step over `dist` ns is refused: nothing changes but the status, the time event and a record. (DESIGN CHOICE log entry 47.) -/
def Hw.jumpRefused (h : Hw) (dist : Nat) : Hw :=
  let h := ((h.setFld .tuStatus Fld.tuStatus_jumpRefused 1).satFld .tuStatus Fld.tuStatus_refusedCount 1).setFld
    .tuStatus Fld.tuStatus_lastRefusedNs (min dist (2 ^ 32 - 1))
  (((h.timeEvent).count 8 0x202 0 1)).record { code := 0x0702, die := 8, unit := 0, d0 := BitVec.ofNat 64 dist }

/-- HOLDOVER; its change raises the time event. -/
def Hw.setHoldover (h : Hw) (b : Bool) : Hw :=
  if h.bit .tuStatus Fld.tuStatus_holdover = b then h
  else (h.setFld .tuStatus Fld.tuStatus_holdover (if b then 1 else 0)).timeEvent

/-- Units of 1/16 × 10^−12 ns in a nanosecond. -/
def servoUnit : Int := 16000000000000

/-- The offset that the servo holds or slews is `o` now: within JUMP_NS it tracks again (R307). (DESIGN CHOICE log entry 47.) -/
def Hw.servoOffset (h : Hw) (o : Int) : Hw :=
  if o.natAbs ≤ h.fld .tuCfg Fld.tuCfg_jumpNs * servoUnit.toNat then Hw.setHoldover { h with tim := { h.tim with slew := none } } false
  else { h with tim := { h.tim with slew := some o } }

/-- A change of fabric time by `delta`: refused beyond JUMP_NS without FORCE, once an absolute set has been accepted. An offset that the
servo has refused changes with it. -/
def Hw.jump (h : Hw) (delta : Int) (force set : Bool) : Hw :=
  let first := !h.bit .tuStatus Fld.tuStatus_setOnce
  if !first && !force && decide (h.fld .tuCfg Fld.tuCfg_jumpNs < delta.natAbs) then h.jumpRefused delta.natAbs
  else
    let h := if set then h.setFld .tuStatus Fld.tuStatus_setOnce 1 else h
    let t := (((h.tim.fabric : Int) + delta + (fabricMod : Int)) % (fabricMod : Int)).toNat
    let h := { h with tim := { h.tim with fabric := t } }
    match h.tim.slew with
    | some o => h.servoOffset (o - delta * servoUnit)
    | none => h

/-- TIME_SET: a write of TU_SET_HI. -/
def Hw.timeSet (h : Hw) (a : Acc) (v : W64) : Hw :=
  if a = .hi then h
  else
    let ns := h.fld .tuSetNs Fld.tuSetNs_ns
    if 999999999 < ns then h.tuErr
    else
      let sec := h.fld .tuSetNs Fld.tuSetNs_secLo + v.toNat % 65536 * 2 ^ 32
      h.jump (((sec * 1000000000 + ns : Nat) : Int) - (h.tim.fabric : Int)) (v.getLsbD 16) true

def execTimeSet (acc : Acc) (v : W64) (s : State) : Host.Outcome State Fault Refusal := .next (s.onLive fun h => h.timeSet acc v)

/-- TIME_STEP: a write of TU_STEP. (DESIGN CHOICE log entry 47.) -/
def Hw.timeStep (h : Hw) (a : Acc) (v : W64) : Hw :=
  let w := accWord a 0 v &&& accMask a
  h.jump (w.setWidth 48).toInt (w.getLsbD 48) false

def execTimeStep (acc : Acc) (v : W64) (s : State) : Host.Outcome State Fault Refusal := .next (s.onLive fun h => h.timeStep acc v)

/-- TIME_FREQ: a write of TU_FREQ. -/
def Hw.timeFreq (h : Hw) (a : Acc) (v : W64) : Hw :=
  let w := h.writeWord .tuFreq a v
  if 500000000 < ((w.setWidth 32).toInt).natAbs then h.tuErr else h.setReg .tuFreq w

def execTimeFreq (acc : Acc) (v : W64) (s : State) : Host.Outcome State Fault Refusal := .next (s.onLive fun h => h.timeFreq acc v)

/-- The half or whole of a word that a read returns (R7). -/
def readHalf (a : Acc) (v : W64) : W64 :=
  match a with
  | .full => v
  | .lo => v &&& 0xffffffff
  | .hi => v >>> 32

/-- TU_NOW as a word. -/
def Hw.tuNow (h : Hw) : W64 := BitVec.ofNat 64 (h.fabNs + h.fabSec % 2 ^ 32 * 2 ^ 32)

/-- TU_NOW_READ: seconds [47:32] of the same instant are latched. -/
def Hw.tuNowRead (h : Hw) (a : Acc) : W64 × Hw :=
  (readHalf a h.tuNow, h.setFld .tuNowHi Fld.tuNowHi_secHi (h.fabSec / 2 ^ 32))

def execTuNowRead (acc : Acc) (s : State) : Host.Outcome State Fault Refusal :=
  .next (s.onLive fun h => (h.tuNowRead acc).2.emit (.readData (h.tuNowRead acc).1))

/-- TU_CFG. -/
def Hw.tuCfgWrite (h : Hw) (a : Acc) (v : W64) : Hw :=
  let w := h.writeWord .tuCfg a v
  if Fld.tuCfg_role.get w = 3 ∨ 10000 < Fld.tuCfg_slew10ppb.get w then h.tuErr
  else { h.setReg .tuCfg w with tim := { h.tim with pps := h.tim.pps && decide (Fld.tuCfg_ppsEn.get w = 1) } }

/-- TU_PTP_EN[i]: a 257th port is refused; a bit at a lane that begins no port counts for none. -/
def Hw.ptpEnWrite (h : Hw) (i : Nat) (a : Acc) (v : W64) : Hw :=
  let h' := h.setReg (.tuPtpEn i) (h.writeWord (.tuPtpEn i) a v)
  let n := ((List.range 1024).filter fun p => h.portStart p && (h'.reg (.tuPtpEn (p / 64))).getLsbD (p % 64)).length
  if 256 < n then h.tuErr else h'

/-! ### PTP (R304, R307) -/

def Hw.ptpRuns (h : Hw) : Bool := h.gliuk && (h.fld .tuCfg Fld.tuCfg_role == 1 || h.fld .tuCfg Fld.tuCfg_role == 2)

/-- Gliuk's servo meets an offset of `off` ns from its source (R305, R307): a step within JUMP_NS, or the first absolute set, is made with a
new rate and the servo tracks; a step beyond it is refused, and the servo holds or slews. (DESIGN CHOICE log entry 47.) -/
def Hw.servo (h : Hw) (off : Int) (adj : W64) : Hw :=
  let first := !h.bit .tuStatus Fld.tuStatus_setOnce
  if first ∨ off.natAbs ≤ h.fld .tuCfg Fld.tuCfg_jumpNs then
    let h := (Hw.jump { h with tim := { h.tim with slew := none } } off false first).setHoldover false
    h.setReg .tuFreq ((adj.setWidth 32).setWidth 64)
  else
    let h := (h.jumpRefused off.natAbs).setHoldover true
    { h with tim := { h.tim with slew := some (off * servoUnit) } }

/-- PTP_RECEIVE: Gliuk's protocol takes the stamped frame of port `p` if it is of DOMAIN. What the best master clock algorithm and the servo
make of it is the standard's: free values say whether the message gives an offset, which, and the servo's new TU_FREQ within ±500 ppm. (DESIGN CHOICE log entry 47.) -/
def Hw.ptpReceive (h : Hw) (p : Nat) : Hw :=
  match h.tim.ptpIn.find? fun x => x.1 == p with
  | none => h
  | some x =>
    let h := { h with tim := { h.tim with ptpIn := h.tim.ptpIn.erase x } }
    if !h.ptpRuns || getBE ((x.2.2.ptp).getD []) 4 1 != h.fld .tuCfg Fld.tuCfg_domain then h
    else
      let (v, h) := h.draw
      if v.getLsbD 0 = false then h
      else
        let (w, h) := h.draw
        h.servo ((v >>> 1).setWidth 48).toInt (BitVec.ofInt 64 ((w.toNat % 1000000001 : Nat) - (500000000 : Int)))

def execPtpReceive (p : Port) (s : State) : Host.Outcome State Fault Refusal := .next (s.onHw fun h => h.ptpReceive p)

/-- PTP_SOURCE_LOST. -/
def execPtpSourceLost (s : State) : Host.Outcome State Fault Refusal :=
  .next (s.onHw fun h => if h.ptpRuns then Hw.setHoldover { h with tim := { h.tim with slew := none } } true else h)

/-- messageType and length of a PTP message (PRESUMED IEEE 1588-2019). (PRESUMED log entry 15.) -/
def ptpForm : PtpMsg → Nat × Nat
  | .sync => (0, 44)
  | .delayReq => (1, 44)
  | .pdelayReq => (2, 54)
  | .pdelayResp => (3, 54)
  | .followUp => (8, 44)
  | .delayResp => (9, 54)
  | .pdelayRespFollowUp => (10, 54)
  | .announce => (11, 64)

/-- The message whose transmit stamp a follow-up carries. -/
def ptpFollows : PtpMsg → Option Nat
  | .followUp => some 0
  | .pdelayRespFollowUp => some 3
  | .announce | .sync | .delayReq | .delayResp | .pdelayReq | .pdelayResp => none

/-- A PTP time-stamp: 48 bits of seconds, 32 of nanoseconds (PRESUMED IEEE 1588-2019, log entry 15). -/
def ptpTime (t : Int) : List Byte := let ns := (t / 10).toNat; bytesBE 6 (ns / 1000000000) ++ bytesBE 4 (ns % 1000000000)

/-- Port `p` may send another event message in this second of the local count: at most 128 (R304). -/
def Hw.ptpEventRoom (h : Hw) (p : Nat) : Bool :=
  let now := h.tim.local_ / slotsSec
  !(h.tim.ptpSent.any fun x => x.1 == p && x.2.1 == now && decide (128 ≤ x.2.2))

/-- An event message of port `p` is counted. -/
def Hw.ptpEventSent (h : Hw) (p : Nat) : Hw :=
  let now := h.tim.local_ / slotsSec
  let n := match h.tim.ptpSent.find? fun x => x.1 == p && x.2.1 == now with | some x => x.2.2 + 1 | none => 1
  { h with tim := { h.tim with ptpSent := (p, now, n) :: h.tim.ptpSent.filter fun x => x.1 != p } }

/-- A PTP message as a frame of one of the two transports of R304. (PRESUMED log entry 15.) -/
def Hw.ptpFrame (h : Hw) (p : Nat) (peer event udp : Bool) (m : List Byte) : Frame :=
  let smac : BitVec 48 := BitVec.ofNat 48 ((h.reg .vaethSa).toNat / 1024 * 1024 + p)
  if udp then
    let src := h.ownIp6 (portDie p)
    let dst := if peer then 0xff02 * 2 ^ 112 + 0x6b else 0xff0e * 2 ^ 112 + 0x181
    let port := if event then 319 else 320
    { dmac := BitVec.ofNat 48 (0x333300000000 + dst % 2 ^ 32), smac := smac, tags := [], etype := 0x86dd,
      body := padTo 46 (ip6Packet src dst 17 1 0 (udp6 src dst port port m)), fcsOk := true }
  else { dmac := if peer then 0x0180c200000e else 0x011b19000000, smac := smac, tags := [], etype := 0x88f7, body := padTo 46 m, fcsOk := true }

/-- PTP_MESSAGE_SEND: a two-step message in TC1 on an enabled port, over the transport that a free value names; a follow-up carries the
transmit stamp of the message it follows, which must have left. The fields that the standard's protocol fills are free bytes. (PRESUMED log entry 15, DESIGN CHOICE log entry 60.) -/
def Hw.ptpSend (h : Hw) (p : Nat) (m : PtpMsg) : Hw :=
  let f := ptpForm m
  let event := decide (f.1 < 8)
  let stamp := (ptpFollows m).bind fun typ => (h.tim.ptpOut.find? fun x => x.1 == p && x.2.1 == typ).map fun x => x.2.2
  if !h.ptpRuns || !h.portStart p || !h.linkUp p || !(h.reg (.tuPtpEn (p / 64))).getLsbD (p % 64) || !h.mayOriginate (portDie p) ||
      (event && !h.ptpEventRoom p) || ((ptpFollows m).isSome && stamp.isNone) then h
  else
    let (rest, h) := Hw.drawBytes f.2 h
    let (v, h) := h.draw
    let h := if event then h.ptpEventSent p else h
    let twoStep : Nat := if m = .sync ∨ m = .pdelayResp then 2 else 0
    let flags := (rest.getD 6 0).toNat / 4 * 4 + (rest.getD 6 0).toNat % 2 + twoStep
    let msg := overlay rest 0 (bytesBE 1 f.1 ++ [2] ++ bytesBE 2 f.2 ++ bytesBE 1 (h.fld .tuCfg Fld.tuCfg_domain) ++ [0] ++ bytesBE 1 flags)
    let msg := match stamp with | some t => overlay msg 34 (ptpTime t) | none => msg
    let peer := m == .pdelayReq || m == .pdelayResp || m == .pdelayRespFollowUp
    h.originateTo (portDie p) (h.ptpFrame p peer event (v.getLsbD 0) msg) none 1 (.port p) [p] false

def execPtpMessageSend (p : Port) (m : PtpMsg) (s : State) : Host.Outcome State Fault Refusal := .next (s.onHw fun h => h.ptpSend p m)

/-- PPS_PULSE (R387). -/
def execPpsPulse (rise : Bool) (s : State) : Host.Outcome State Fault Refusal :=
  .next (s.onLive fun h =>
    if rise && !h.bit .tuCfg Fld.tuCfg_ppsEn then h else { h with tim := { h.tim with pps := rise } })

/-! ### Error records as bytes (R327) -/

/-- A record in the layout of R327 with its RSEQ. -/
def Rec.bytes (r : Rec) (rseq : Nat) : List Byte :=
  bytesLE 2 4 ++ bytesLE 2 64 ++ bytesLE 2 r.code ++ bytesLE 1 (r.cls + 4 * r.scope + (if r.injected then 32 else 0)) ++ bytesLE 1 r.die ++
    bytesLE 8 rseq ++ bytesLE 4 r.qseq.toNat ++ bytesLE 2 r.count ++ bytesLE 2 r.unit ++ bytesLE 4 r.ns ++ bytesLE 4 (r.sec % 2 ^ 32) ++
    [r.tj, r.slope, r.loadDie, r.loadUnit] ++ bytesLE 2 r.rate ++ bytesLE 2 (r.sec / 2 ^ 32) ++ bytesLE 8 r.d0.toNat ++ bytesLE 8 r.d1.toNat ++
    bytesLE 8 r.d2.toNat

/-! ### Telemetry history (R316) -/

/-- An entry in its 32 KiB layout. -/
def HistEnt.bytes (e : HistEnt) : List Byte :=
  let head := bytesLE 2 3 ++ bytesLE 2 32768 ++ bytesLE 4 e.seq.toNat ++ bytesLE 8 e.sec ++ bytesLE 4 e.ns ++ bytesLE 1 e.quad ++ [e.tjMax]
  padTo 32768 (padTo 64 head ++ (e.pCounters ++ e.cCounters).flatMap (bytesLE 8) ++ (e.recs.take 447).flatMap fun r => r.bytes 0)

/-- The fixed counters of a die. -/
def Hw.fixedCounters (h : Hw) (d : Nat) : List Nat := (List.range 256).map fun k => h.fld (.cntVal d k) Fld.cntVal_value

/-- HISTORY_WRITE, once in each second of the local count: one entry for each quadrant; the oldest of 65,536 is overwritten. (DEDUCED log entry
28.) (DEDUCED log entry 28.) -/
def Hw.historyWrite (h : Hw) : Hw :=
  if !h.gliuk || h.tim.histSec == some (h.tim.local_ / slotsSec) then h
  else
    let put (h : Hw) (q : Nat) : Hw :=
      let e : HistEnt := { seq := h.tim.histSeq, sec := h.fabSec, ns := h.fabNs, quad := q, tjMax := h.tim.tjSec.get q,
                           pCounters := h.fixedCounters q, cCounters := h.fixedCounters (4 + q), recs := h.err.secQ.get q }
      let l := h.tim.hist.get q ++ [e]
      { h with tim := { h.tim with hist := h.tim.hist.set q (if 65536 < l.length then l.drop 1 else l), tjSec := h.tim.tjSec.set q 0 },
               err := { h.err with secQ := h.err.secQ.set q [] } }
    let h := [0, 1, 2, 3].foldl put h
    { h with tim := { h.tim with histSeq := h.tim.histSeq + 1, histSec := some (h.tim.local_ / slotsSec) } }

def execHistoryWrite (s : State) : Host.Outcome State Fault Refusal := .next (s.onHw fun h => h.historyWrite)

/-- Gliuk sends the entries that HIST_CTL asks for, oldest first, and clears REQ. -/
def Hw.historySend (h : Hw) : Hw :=
  if !h.gliuk || !h.bit .histCtl Fld.histCtl_req then h
  else
    let from_ := h.fld .histCtl Fld.histCtl_fromSeq
    let l := (h.tim.hist.get (h.fld .histCtl Fld.histCtl_quadrant)).filter fun e => decide (from_ ≤ e.seq.toNat)
    let h := l.foldl (fun h e => h.toRing (h.fld .histCtl Fld.histCtl_ring) e.bytes) h
    h.setFld .histCtl Fld.histCtl_req 0

/-- HISTORY_REQUEST: a write of HIST_CTL. -/
def Hw.histCtlWrite (h : Hw) (a : Acc) (v : W64) : Hw := (h.setReg .histCtl (h.writeWord .histCtl a v)).historySend

def execHistoryRequest (acc : Acc) (v : W64) (s : State) : Host.Outcome State Fault Refusal := .next (s.onLive fun h => h.histCtlWrite acc v)

/-! ### ERR_INJECT (R318, R330) -/

/-- The die holds the point. (DEDUCED log entry 40.) -/
def pointOn (pt d : Nat) : Bool :=
  if pt = 9 ∨ pt = 10 then decide (4 ≤ d) && decide (d < 8)
  else if pt = 6 ∨ pt = 11 then decide (d < 8)
  else decide (1 ≤ pt) && decide (pt ≤ 12) && decide (d < 4)

/-- ERR_INJECT_ARM: a write that arms an impossible pair is ignored. -/
def Hw.errInjectWrite (h : Hw) (a : Acc) (v : W64) : Hw :=
  let w := h.writeWord .errInject a v
  if Fld.errInject_arm.get w = 1 ∧ pointOn (Fld.errInject_point.get w) (Fld.errInject_die.get w) = false then h else h.setReg .errInject w

def execErrInjectArm (acc : Acc) (v : W64) (s : State) : Host.Outcome State Fault Refusal := .next (s.onLive fun h => h.errInjectWrite acc v)

end Sys2Proof.Machine
end

