-- ==== Sys2Proof/Machine/Mgmt.lean ====
section
/-! DEFINITION. The management plane: Gliuk's start and restarts, the watchdog, stage control tables, the interrupt controller, the
management Ethernet ports, and Tether's reception (R276 to R296, R299, R301). -/

namespace Sys2Proof.Machine

/-! ### Stage control tables (R281) -/

/-- The first set of stage control tables that no active Bridle uses. (DESIGN CHOICE log entry 45.) -/
def Hw.stageFree (h : Hw) : Option Nat := [0, 1].find? fun k => !(h.coll.bridles.any fun b => b.stageSet == k)

def Hw.setStagePending (h : Hw) (v : Nat) : Hw :=
  (List.range 4).foldl (fun h c => h.setFld (.collStatus c) Fld.collStatus_stagePending v) h

/-- Gliuk loads its own tables into a free set, which becomes current; while both sets serve Bridles the load is pending. (DESIGN CHOICE log entry 45.) -/
def Hw.loadStage (h : Hw) : Hw :=
  match h.stageFree with
  | some k => Hw.setStagePending { h with mgt := { h.mgt with stageVer := h.mgt.stageVer.set k h.mgt.imgVer, stageCur := k } } 0
  | none => h.setStagePending 1

/-- STAGE_TABLE_LOAD. -/
def execStageTableLoad (s : State) : Host.Outcome State Fault Refusal :=
  .next (s.onHw fun h => if h.gliuk && h.bit (.collStatus 0) Fld.collStatus_stagePending && h.stageFree.isSome then h.loadStage else h)

/-! ### Restart and boot (R277 to R282) -/

/-- A management restart with its cause: a RESTARTING heartbeat first for causes 1, 2 and 4; then the cores and every MGMT field reset and
the boot ROM starts. What only the running Gliuk held is lost. (DESIGN CHOICE log entry 45.) -/
def Hw.restart (h : Hw) (nv : Nv) (cause : Nat) : Hw :=
  let (v, h) := if h.gliuk && cause != 3 then h.draw else (0, h)
  let h := if h.gliuk && cause != 3 then h.heartbeat nv 1 (v.toNat % 65536) else h
  let h := (h.setGliuk false).clearCode .mgmt fun _ => true
  let h := ((h.satFld .mgmtStatus Fld.mgmtStatus_restarts 1).setFld .mgmtStatus Fld.mgmtStatus_lastCause cause).setFld
    .mgmtStatus Fld.mgmtStatus_inRestart 1
  let h := { h with mgt := { h.mgt with bootFrom := none, booting := true, wdogHalf := false, heartAt := none, joinAt := none, icLast := 3, icLine := [], icRose := [],
                                        reqs := [], txns := [], cpuFrames := [] },
                    tim := { h.tim with ptpIn := [], slew := none } }
  { h with err := { h.err with passAt := [], gateOn := [], extra := [], extraAt := [] } }

/-- MGMT_RESTART: a write of MGMT_CTL.RESTART; any other GUARD is ignored. In recovery the only way out is an image from the host (R278).
(DESIGN CHOICE log entry 45.) -/
def Hw.mgmtCtl (h : Hw) (nv : Nv) (guard : Nat) : Hw :=
  if guard = 0x5a17 ∧ h.bit .hubState Fld.hubState_recovery = false then h.restart nv 2 else h

def execMgmtRestart (guard : BitVec 16) (s : State) : Host.Outcome State Fault Refusal := .next (s.onLive fun h => h.mgmtCtl s.nv guard.toNat)

/-- GLIUK_RESTART_REQUEST. -/
def execGliukRestartRequest (s : State) : Host.Outcome State Fault Refusal :=
  .next (s.onHw fun h => if h.gliuk then h.restart s.nv 4 else h)

/-- Recovery (R278). -/
def Hw.recover (h : Hw) : Hw :=
  let h := (h.setFld .hubState Fld.hubState_recovery 1).setFld .mgmtStatus Fld.mgmtStatus_inRestart 0
  { h with mgt := { h.mgt with booting := false, bootFrom := none } }

/-- GLIUK_START: the released cores are ready to serve. -/
def Hw.gliukStart (h : Hw) (nv : Nv) : Hw :=
  match h.mgt.bootFrom with
  | none => h
  | some _ =>
    if h.gliuk then h
    else
      let h := (h.setFld .hubId Fld.hubId_gliukVer h.mgt.imgVer.toNat).setFld .mgmtStatus Fld.mgmtStatus_inRestart 0
      let h := ((h.setGliuk true).setHoldover false).historySend
      let lanes := (List.range 64).map fun k => (k, h.tim.local_)
      let h := { h with mgt := { h.mgt with bootFrom := none, wdogFrom := h.tim.local_, wdogHalf := false },
                        err := { h.err with passAt := lanes } }
      let base := h.mgt.imgPack.all fun b => b == 0
      let h := h.setReg .sweepStatus (BitVec.ofNat 64 (h.mgt.imgPackVer.toNat + h.mgt.imgSections.toNat * 2 ^ 32 + (if base then 2 ^ 42 else 0)))
      let h := h.loadStage
      if h.mgt.announced then h else Hw.announce { h with mgt := { h.mgt with announced := true } } nv 1 linkLocal

def execGliukStart (s : State) : Host.Outcome State Fault Refusal := .next (s.onHw fun h => h.gliukStart s.nv)

/-- BOOT_LIMIT_EXPIRE. -/
def Hw.bootLimit (h : Hw) : Hw :=
  match h.mgt.bootFrom with
  | none => h
  | some t =>
    if h.gliuk || decide (h.tim.local_ < t + 10 * slotsMs * h.fld .mgmtCfg Fld.mgmtCfg_bootLimit10ms) then h else h.recover

def execBootLimitExpire (s : State) : Host.Outcome State Fault Refusal := .next (s.onHw fun h => h.bootLimit)

/-! ### Watchdog (R280) -/

/-- WDOG_KICK. -/
def Hw.wdogKick (h : Hw) : Hw := { h with mgt := { h.mgt with wdogFrom := h.tim.local_, wdogHalf := false } }

def execWdogKick (s : State) : Host.Outcome State Fault Refusal := .next (s.onLive fun h => h.wdogKick)

/-- The watchdog has run for `num` / 2 of its period. -/
def Hw.wdogPast (h : Hw) (num : Nat) : Bool :=
  let p := h.fld .wdog Fld.wdog_periodMs
  h.gliuk && decide (p ≠ 0) && decide (h.mgt.wdogFrom * 2 + slotsMs * p * num ≤ h.tim.local_ * 2)

/-- WDOG_HALF_EXPIRE. -/
def execWdogHalfExpire (s : State) : Host.Outcome State Fault Refusal :=
  .next (s.onHw fun h =>
    if h.wdogPast 1 && !h.mgt.wdogHalf then Hw.icEvent { h with mgt := { h.mgt with wdogHalf := true } } 3 else h)

/-- WDOG_EXPIRE. -/
def execWdogExpire (s : State) : Host.Outcome State Fault Refusal :=
  .next (s.onHw fun h => if h.wdogPast 2 then h.restart s.nv 3 else h)

/-! ### Interrupt controller (R283 to R287) -/

/-- A source with an event of its own (R283); source 1 and the reserved ones fire only through TRIGGER. -/
def icAssigned (s : Nat) : Bool :=
  let r (a b : Nat) : Bool := decide (a ≤ s) && decide (s ≤ b)
  r 2 3 || r 64 84 || r 96 99 || r 128 399

/-- IC_SOURCE_EVENT. -/
def execIcSourceEvent (src : Fin 1024) (s : State) : Host.Outcome State Fault Refusal :=
  .next (s.onLive fun h => if icAssigned src then h.icEvent src else h)

/-- The register of source `s` as an agent reaches it: the host reaches bank 0 (R287). -/
def Hw.icRegOf (h : Hw) (who : Agent) (s : Nat) : Reg := h.icReg (match who with | .core c => c | _ => 0) s

/-- IC_TRIGGER; a REG_ACCESS cannot reach the controller (R298). -/
def Hw.icTrigger (h : Hw) (who : Agent) (s : Nat) : Hw :=
  if s = 0 ∨ 1022 < s ∨ who = .regAccess then h else (h.icPend (h.icRegOf who s)).icUpdate

def execIcTrigger (who : Agent) (src : Fin 1024) (s : State) : Host.Outcome State Fault Refusal :=
  .next (s.onLive fun h => h.icTrigger who src)

/-- What a claim by core `c` takes: the lowest-numbered enabled pending source routable to it. -/
def Hw.icNext (h : Hw) (c : Nat) : Option (Nat × Reg) :=
  (h.icOfferable.filter fun o => h.icRoutable o.1 o.2 c).foldl (fun best o =>
    match best with
    | none => some o
    | some b => if o.1 % 1024 < b.1 % 1024 then some o else some b) none

/-- IC_CLAIM: the word that the core reads, and the chip after it. (DEDUCED log entry 46.) -/
def Hw.icTake (h : Hw) (c : Nat) : W64 × Hw :=
  if h.icServing c then (0, h)
  else
    let rose := h.mgt.icRose.contains c
    let h := { h with mgt := { h.mgt with icRose := h.mgt.icRose.filter fun x => x != c } }
    let pick := if h.bit (.icTarget c) Fld.icTarget_en then h.icNext c else none
    match pick with
    | none => (if rose then 1023 else 0, h)
    | some (x, r) =>
      let n := h.fld r Fld.icSrc_count
      let h := ((h.setFld r Fld.icSrc_pending 0).setFld r Fld.icSrc_count 0).setFld r Fld.icSrc_active 1
      let h := (h.setFld (.icTarget c) Fld.icTarget_serving 1).setFld (.icTarget c) Fld.icTarget_servingSrc (x % 1024)
      (BitVec.ofNat 64 (x % 1024 + n * 65536), h.icUpdate)

/-- DEDUCED log entry 46. -/
def Hw.icClaim (h : Hw) (c : Nat) : Hw := (h.icTake c).2.emit (.readData (h.icTake c).1)

def execIcClaim (c : Core) (s : State) : Host.Outcome State Fault Refusal := .next (s.onLive fun h => h.icClaim c)

/-- IC_COMPLETE. (DEDUCED log entry 46.) -/
def Hw.icComplete (h : Hw) (c s : Nat) : Hw :=
  if h.icServing c ∧ h.fld (.icTarget c) Fld.icTarget_servingSrc = s then
    let h := h.setFld (h.icReg c s) Fld.icSrc_active 0
    let h := (h.setFld (.icTarget c) Fld.icTarget_serving 0).setFld (.icTarget c) Fld.icTarget_servingSrc 0
    Hw.icUpdate { h with mgt := { h.mgt with icRose := h.mgt.icRose.filter fun x => x != c } }
  else h.satFld .icCfg Fld.icCfg_badComplete 1

def execIcComplete (c : Core) (src : BitVec 10) (s : State) : Host.Outcome State Fault Refusal :=
  .next (s.onLive fun h => h.icComplete c src.toNat)

/-- IC_ROUTE_MODE_WRITE: a write of IC_CFG. -/
def Hw.icCfgWrite (h : Hw) (a : Acc) (v : W64) : Hw :=
  let w := h.writeWord .icCfg a v
  let moves := Fld.icCfg_routeMode.get w != h.fld .icCfg Fld.icCfg_routeMode
  if moves && (List.range 4).any h.icServing then h.setFld .icCfg Fld.icCfg_cfgErr 1
  else
    let h := h.setReg .icCfg w
    if moves then Hw.icUpdate { h with mgt := { h.mgt with icLine := [] } } else h

def execIcRouteModeWrite (v : W64) (s : State) : Host.Outcome State Fault Refusal := .next (s.onLive fun h => h.icCfgWrite .full v)

/-! ### Management Ethernet and Tether's receive queue (R288, R289, R295) -/

def Hw.tetherDrop (h : Hw) : Hw := h.satFld .tetherStatus Fld.tetherStatus_rxDrops 1

/-- A message reaches the receive queue, or is dropped because it is full; a link-local ANNOUNCE of a joining chip waits to be relayed
(R301). (DEDUCED log entry 35.) -/
def Hw.tetherQueue (h : Hw) (carrier port : Nat) (linkLoc : Bool) (b : List Byte) : Hw :=
  if 256 ≤ h.mgt.tetherQ.length + h.mgt.joins.length then h.tetherDrop
  else
    let h := if h.mgt.tetherQ.isEmpty && h.mgt.joins.isEmpty then h.icEvent 73 else h
    if linkLoc && getBE b 1 1 == 2 then { h with mgt := { h.mgt with joins := h.mgt.joins ++ [(port, b)] } }
    else { h with mgt := { h.mgt with tetherQ := h.mgt.tetherQ ++ [⟨carrier, port, b, h.tim.local_⟩] } }

/-- A UDP datagram to the Tether port. -/
def Hw.udpIn (h : Hw) (carrier port : Nat) (b : List Byte) : Hw :=
  if h.bit .mgmtCfg Fld.mgmtCfg_udpEn then h.tetherQueue carrier port false b else h.tetherDrop

/-! #### IPv6 on the management ports (R288) -/

/-- The MAC address of management Ethernet port `e`: the OTP base plus the port number. -/
def Nv.mgmtMac (n : Nv) (e : Nat) : Nat := (n.otp.macBase.toNat + e) % 2 ^ 48

/-- Its IPv6 address: the link-local one of its MAC address, since the spec names none. (PRESUMED log entry 15.) -/
def Nv.mgmtIp6 (n : Nv) (e : Nat) : Nat :=
  let m := n.mgmtMac e
  0xfe80 * 2 ^ 112 + (m / 2 ^ 24 ^^^ 0x20000) * 2 ^ 40 + 0xfffe * 2 ^ 24 + m % 2 ^ 24

/-- An ICMPv6 message of port `e` to an address, its checksum filled in (PRESUMED RFC 4443, log entry 15). -/
def Nv.icmp6 (n : Nv) (e typ : Nat) (mac : BitVec 48) (dst : Nat) (body : List Byte) : Frame :=
  let src := n.mgmtIp6 e
  let m (c : Nat) : List Byte := bytesBE 1 typ ++ [0] ++ bytesBE 2 c ++ body
  { dmac := mac, smac := BitVec.ofNat 48 (n.mgmtMac e), tags := [], etype := 0x86dd,
    body := padTo 46 (ip6Packet src dst 58 255 0 (m (ip6Check src dst 58 (m 0)))), fcsOk := true }

/-- A neighbor advertisement: solicited, overriding, with the port's MAC address (PRESUMED RFC 4861, log entry 15). -/
def Nv.advert (n : Nv) (e : Nat) (mac : BitVec 48) (dst : Nat) : Frame :=
  n.icmp6 e 136 mac dst (bytesBE 4 0x60000000 ++ bytesBE 16 (n.mgmtIp6 e) ++ [2, 1] ++ bytesBE 6 (n.mgmtMac e))

/-- A frame on management Ethernet port `e`: Tether over UDP, and answers to ICMPv6 echo requests and neighbor solicitations for the port's
own address; every other frame is let go. (PRESUMED log entry 15.) -/
def Hw.ethIn (h : Hw) (nv : Nv) (e : Nat) (f : MgmtFrame) : Hw :=
  if !h.bit (.mgmtEthCfg e) Fld.mgmtEthCfg_linkUp then h
  else if !h.gliuk then h.satFld (.mgmtEthCfg e) Fld.mgmtEthCfg_rxDrops 1
  else
    let h := h.icEvent (74 + e)
    match f with
    | .other => h
    | .tether b => h.udpIn 2 e b
    | .echo mac src dst body => if dst.toNat = nv.mgmtIp6 e then h.emit (.mgmtEth e (nv.icmp6 e 129 mac src.toNat body)) else h
    | .solicit mac src target => if target.toNat = nv.mgmtIp6 e then h.emit (.mgmtEth e (nv.advert e mac src.toNat)) else h

/-- MGMT_ETH_FRAME_RECEIVE. -/
def execMgmtEthFrameReceive (e : Fin 2) (f : MgmtFrame) (s : State) : Host.Outcome State Fault Refusal :=
  .next (s.onHw fun h => h.ethIn s.nv e f)

/-- MGMT_ETH_LINK_CHANGE: a link comes up only on an enabled port. -/
def execMgmtEthLinkChange (e : Fin 2) (up : Bool) (s : State) : Host.Outcome State Fault Refusal :=
  .next (s.onLive fun h => h.setFld (.mgmtEthCfg e) Fld.mgmtEthCfg_linkUp (if up && h.bit (.mgmtEthCfg e) Fld.mgmtEthCfg_enable then 1 else 0))

/-- An in-band Vaeth message on port `p`: the oldest TETHER frame consumed there. (DEDUCED log entry 35.) -/
def Hw.tetherInband (h : Hw) (nv : Nv) (p : Nat) : Hw :=
  match h.takeFrame p [0x78] with
  | (none, h) => h
  | (some x, h) =>
    let h := h.consumed x
    let loc := x.hdr.dst == linkLocal
    let join := !h.nodeValid && nv.inService && loc
    if h.bit .mgmtCfg Fld.mgmtCfg_tetherEn || join then h.tetherQueue 0 p loc x.frame.payload
    else h.tetherDrop

/-- An IPv6 frame for the management cores of P-die `q` that carries a datagram to the Tether port: in TC0, to the chip's own address
(R289). (PRESUMED log entry 15.) -/
def Hw.udpFrame (h : Hw) (q : Nat) (f : Frame) : Bool :=
  f.ip6Dst == h.ownIp6 q &&
    (f.ip6Dscp == h.dieFld q .vaethCfg Fld.vaethCfg_mgmtDscpA || f.ip6Dscp == h.dieFld q .vaethCfg Fld.vaethCfg_mgmtDscpB) && f.ip6Next == 17 && f.udpDst == h.fld .mgmtCfg Fld.mgmtCfg_udpPort && f.etype == 0x86dd

/-- An in-band IPv6 message on port `p`: the oldest such frame that waits for the cores. -/
def Hw.tetherIpv6 (h : Hw) (p : Nat) : Hw :=
  match h.mgt.cpuFrames.find? fun x => x.1 == p && h.udpFrame (portDie p) x.2 with
  | none => h
  | some x =>
    let h := { h with mgt := { h.mgt with cpuFrames := h.mgt.cpuFrames.erase x } }
    h.udpIn 1 p (slice x.2.body 48 (getBE x.2.body 44 2 - 8))

/-- TETHER_RECEIVE. In-band the message is that of the frame which waits; on a management Ethernet port it comes with the command. -/
def execTetherReceive (c : Carrier) (msg : List Byte) (s : State) : Host.Outcome State Fault Refusal :=
  .next (s.onHw fun h =>
    match c with
    | .inband p => h.tetherInband s.nv p
    | .inbandIpv6 p => h.tetherIpv6 p
    | .mgmtEth e => h.ethIn s.nv e (.tether msg))

/-! ### The checks of a message (R293 to R295) -/

/-- T_TYPEs accepted inbound (R296). -/
def tetherInbound (t : Nat) : Bool := [0x01, 0x10, 0x20, 0x31, 0x41, 0x50].contains t

/-- T_SEQ `n` is fresh for key slot `k` (R294). -/
def Hw.replayFresh (h : Hw) (k n : Nat) : Bool :=
  let high := (h.reg (.tetherReplayHigh k)).toNat
  decide (high < n) || (decide (high - n ≤ 63) && !(h.reg (.tetherReplayWindow k)).getLsbD (high - n))

/-- Accept T_SEQ `n`: its bit is set, and the window slides when it exceeds HIGH. -/
def Hw.replayAccept (h : Hw) (k n : Nat) : Hw :=
  let high := (h.reg (.tetherReplayHigh k)).toNat
  let w := h.reg (.tetherReplayWindow k)
  if high < n then
    (h.setReg (.tetherReplayHigh k) (BitVec.ofNat 64 n)).setReg (.tetherReplayWindow k) ((w <<< (n - high)) ||| 1)
  else h.setReg (.tetherReplayWindow k) (w ||| (1 <<< (high - n)))

/-- Check 1: version, length and PART fields. -/
def tetherForm (b : List Byte) : Bool :=
  let n := getBE b 4 2
  let i := getBE b 6 1
  let c := getBE b 7 1
  let part := (b.getD 3 0).getLsbD 0
  getBE b 0 1 == 1 && b.length == 146 + n && decide (n ≤ 8000) &&
    (if part then decide (1 ≤ c) && decide (c ≤ 8) && decide (i < c) else i == 0 && c == 1 && getBE b 30 2 == 0)

/-- A checked message waits for its own step, or joins its transaction. -/
def Hw.tetherTaken (h : Hw) (m : TMsg) : Hw :=
  let b := m.bytes
  let req : TReq := { typ := getBE b 1 1, key := getBE b 2 1, session := BitVec.ofNat 64 (getBE b 8 8), tseq := BitVec.ofNat 64 (getBE b 16 8),
                      sender := BitVec.ofNat 24 (getBE b 24 3), body := slice b 32 (getBE b 4 2), carrier := m.carrier, port := m.port }
  if !(b.getD 3 0).getLsbD 0 then { h with mgt := { h.mgt with reqs := h.mgt.reqs ++ [req] } }
  else
    let txn := getBE b 30 2
    let mine (t : TTxn) : Bool := t.key == req.key && t.txn == txn && t.sender == req.sender
    let part := (getBE b 6 1, req.body)
    let (old, h) := match h.mgt.txns.find? mine with
      | some t => (some t, h)
      | none =>
        -- a transaction of one part is complete at once and takes no room
        if h.mgt.txns.length < 4 ∨ getBE b 7 1 = 1 then (none, h)
        else (none, Hw.tetherDrop { h with mgt := { h.mgt with txns := h.mgt.txns.drop 1 } })
    let t : TTxn := match old with
      | some t => { t with parts := aput part.1 part.2 t.parts }
      | none => { key := req.key, txn := txn, sender := req.sender, typ := req.typ, count := getBE b 7 1, parts := [part], tseq := req.tseq,
                  time := h.tim.local_ }
    if t.parts.length = t.count then
      let whole := (List.range t.count).flatMap fun i => (aget i t.parts).getD []
      { h with mgt := { h.mgt with txns := h.mgt.txns.filter fun x => !mine x,
                                   reqs := h.mgt.reqs ++ [{ req with typ := t.typ, tseq := t.tseq, body := whole }] } }
    else if old.isSome then { h with mgt := { h.mgt with txns := h.mgt.txns.map fun x => if mine x then t else x } }
    else { h with mgt := { h.mgt with txns := h.mgt.txns ++ [t] } }

/-- TETHER_MESSAGE_PROCESS: the oldest queued message goes through checks 1 to 7 of R293. (DEDUCED log entry 35.) -/
def Hw.tetherProcess (h : Hw) (nv : Nv) : Hw :=
  match h.mgt.tetherQ with
  | [] => h
  | m :: rest =>
    if !h.gliuk then h
    else
      let h := { h with mgt := { h.mgt with tetherQ := rest } }
      let b := m.bytes
      let typ := getBE b 1 1
      let key := getBE b 2 1
      let hello := typ == 1 && (key == 0xfe || (decide (key < 8) && (aget key nv.keys).isSome))
      let bad : Hw := h.satFld .tetherStatus Fld.tetherStatus_authFails 1
      let ttl := getBE b 28 2
      let late := decide (ttl ≠ 0) && decide (m.time + slotsMs * ttl < h.tim.local_)
      if !tetherForm b then bad
      else if hello then
        if late then h.satFld .tetherStatus Fld.tetherStatus_expired 1 else h.tetherTaken m
      else
        match (if key < 8 then aget key nv.keys else none) with
        | none => bad
        | some k =>
          let signed := b.take (32 + getBE b 4 2)
          if !ed448Verify k (ctxBytes "Oslux Tether") signed (slice b (32 + getBE b 4 2) 114) then bad
          else if getBE b 8 8 ≠ (h.reg .tetherSession).toNat then
            if h.mgt.wrongAt.any fun x => decide (h.tim.local_ < x.2 + 100 * slotsMs) then bad
            else
              let sender : Node := BitVec.ofNat 24 (getBE b 24 3)
              Hw.announce { bad with mgt := { bad.mgt with wrongAt := [(sender, h.tim.local_)] } } nv 3 sender
          else
            let n := getBE b 16 8
            if !h.replayFresh key n then h.satFld .tetherStatus Fld.tetherStatus_replays 1
            else
              let h := h.replayAccept key n
              if late then h.satFld .tetherStatus Fld.tetherStatus_expired 1
              else if !tetherInbound typ then h.satFld .tetherStatus Fld.tetherStatus_authFails 1
              else h.tetherTaken m

def execTetherMessageProcess (s : State) : Host.Outcome State Fault Refusal := .next (s.onHw fun h => h.tetherProcess s.nv)

/-- TXN_TIMEOUT. -/
def execTxnTimeout (key : Byte) (txn : BitVec 16) (s : State) : Host.Outcome State Fault Refusal :=
  .next (s.onHw fun h =>
    let due (t : TTxn) : Bool := t.key == key.toNat && t.txn == txn.toNat && decide (t.time + 10 * slotsMs ≤ h.tim.local_)
    let n := (h.mgt.txns.filter due).length
    ({ h with mgt := { h.mgt with txns := h.mgt.txns.filter fun t => !due t } }).satFld .tetherStatus Fld.tetherStatus_rxDrops n)

/-! ### The requests that need no table (R296, R299, R301) -/

/-- Gliuk acts on the first checked message of a type; CMD messages in T_SEQ order (R297). -/
def Hw.takeReq (h : Hw) (typ : Nat) : Option (TReq × Hw) :=
  if !h.gliuk then none
  else
    let l := h.mgt.reqs.filter fun t => t.typ == typ
    let first := l.foldl (fun (b : Option TReq) t =>
      match b with
      | none => some t
      | some x => if typ = 0x10 ∧ t.key = x.key ∧ t.tseq < x.tseq then some t else some x) none
    first.map fun t => (t, { h with mgt := { h.mgt with reqs := h.mgt.reqs.erase t } })

/-- HELLO. -/
def Hw.hello (h : Hw) (nv : Nv) : Hw :=
  match h.takeReq 0x01 with
  | none => h
  | some (t, h) =>
    match aget t.sender h.mgt.helloAt with
    | some at_ =>
      if h.tim.local_ < at_ + 10 * slotsMs then h
      else Hw.announce { h with mgt := { h.mgt with helloAt := aput t.sender h.tim.local_ h.mgt.helloAt } } nv 2 t.sender
    | none => Hw.announce { h with mgt := { h.mgt with helloAt := aput t.sender h.tim.local_ h.mgt.helloAt } } nv 2 t.sender

def execHello (s : State) : Host.Outcome State Fault Refusal := .next (s.onHw fun h => h.hello s.nv)

/-- RECORD_ACK: every record up to the sequence is released. -/
def Hw.recordAck (h : Hw) : Hw :=
  match h.takeReq 0x31 with
  | none => h
  | some (t, h) => { h with mgt := { h.mgt with sent := h.mgt.sent.filter fun r => decide (getBE t.body 0 8 < r.seq) } }

def execRecordAck (s : State) : Host.Outcome State Fault Refusal := .next (s.onHw fun h => h.recordAck)

/-- RELAY_OUT: the inner payload goes link-local out of the port. -/
def Hw.relayOut (h : Hw) : Hw :=
  match h.takeReq 0x41 with
  | none => h
  | some (t, h) =>
    let p := getBE t.body 0 2
    if h.portStart p && h.linkUp p then h.tetherPort p (t.body.drop 2) else h

def execRelayOut (s : State) : Host.Outcome State Fault Refusal := .next (s.onHw fun h => h.relayOut)

/-- ANNOUNCE_RELAY: a joining neighbor's ANNOUNCE on port `p` goes to FM_NODE in RELAY_IN. -/
def Hw.announceRelay (h : Hw) (nv : Nv) (p : Nat) : Hw :=
  match h.mgt.joins.find? fun j => j.1 == p with
  | none => h
  | some j =>
    if !h.gliuk then h
    else
      let h := { h with mgt := { h.mgt with joins := h.mgt.joins.erase j } }
      if !h.inbandUp then h.tetherDrop
      else
        let soon := match aget p h.mgt.relayAt with
          | some at_ => decide (h.tim.local_ < at_ + 100 * slotsMs)
          | none => false
        if soon then h
        else
          let (b, h) := h.tetherBytes nv 0x40 (bytesBE 2 p ++ j.2)
          Hw.tetherNode { h with mgt := { h.mgt with relayAt := aput p h.tim.local_ h.mgt.relayAt } } ((h.reg .mgmtCfg).setWidth 24) b

def execAnnounceRelay (p : Port) (s : State) : Host.Outcome State Fault Refusal := .next (s.onHw fun h => h.announceRelay s.nv p)

/-- `n` slots have passed since a local count, or nothing has happened yet. -/
def Hw.since (h : Hw) (at_ : Option Nat) (n : Nat) : Bool := match at_ with | some t => decide (t + n ≤ h.tim.local_) | none => true

/-- ANNOUNCE_TIMER, once per second: link-local on every port in UP while NODE_ID.VALID is 0. -/
def Hw.announceAll (h : Hw) (nv : Nv) : Hw :=
  if !h.gliuk || h.nodeValid || !nv.inService || !h.since h.mgt.joinAt slotsSec then h
  else
    let h := { h with mgt := { h.mgt with joinAt := some h.tim.local_ } }
    let (b, h) := h.tetherBytes nv 0x02 (h.announceBody nv 4)
    ((List.range 1024).filter fun n => h.portStart n && h.linkUp n).foldl (fun h n => h.tetherPort n b) h

def execAnnounceTimer (s : State) : Host.Outcome State Fault Refusal := .next (s.onHw fun h => h.announceAll s.nv)

/-- HEARTBEAT_TIMER: every MGMT_CFG.HEARTBEAT_10MS × 10 ms while Gliuk runs (R300). (DESIGN CHOICE log entry 60.) -/
def Hw.heartbeatDue (h : Hw) (nv : Nv) : Hw :=
  if !h.gliuk || !h.since h.mgt.heartAt (10 * slotsMs * h.fld .mgmtCfg Fld.mgmtCfg_heartbeat10ms) then h
  else Hw.heartbeat { h with mgt := { h.mgt with heartAt := some h.tim.local_ } } nv 0 0

def execHeartbeatTimer (s : State) : Host.Outcome State Fault Refusal := .next (s.onHw fun h => h.heartbeatDue s.nv)

end Sys2Proof.Machine
end

