-- ==== Sys2Proof/Machine/PciConfig.lean ====
section
/-! DEFINITION. Configuration space of the PCI Express function (R251, R252, R325). The spec gives what it holds; where the header and
the capabilities lie, and what their other fields read, is the layout of PCI Express. (PRESUMED log entry 63.) -/

namespace Sys2Proof.Machine

/-- A dword of configuration space after a PCI Express reset: identity, class code, the three BARs, power management with No_Soft_Reset,
MSI-X with 2,048 vectors, payload and read-request sizes with FLR, 10-bit tags, AER and Device Serial Number. (PRESUMED log entry 63.) -/
def cfgReset (o : Otp) (i : Nat) : BitVec 32 :=
  match i with
  | 0 => 0x10241f6d
  | 1 => 0x00100000
  | 2 => 0x12000000 ||| o.stepping.setWidth 32
  | 4 | 6 => 0x4
  | 8 => 0xc
  | 13 => 0x40
  | 16 => 0x00035001
  | 17 => 0x8
  | 20 => 0x07ff7011
  | 21 => 0x180000
  | 22 => 0x188000
  | 28 => 0x00020010
  | 29 => 0x10008022
  | 30 => 0x2810
  | 37 => 0x00030000
  | 64 => 0x15020001
  | 66 => 0x00400000
  | 67 => 0x00462030
  | 84 => 0x00010003
  | 85 => o.serial.setWidth 32
  | 86 => (o.serial >>> 32).setWidth 32
  | _ => 0

/-- The bits that a configuration write sets: command, BAR addresses by size, MSI-X enable and mask, device control, AER mask and severity.
(PRESUMED log entry 63.) -/
def cfgRw (i : Nat) : BitVec 32 :=
  match i with
  | 1 => 0x546
  | 4 => 0xfc000000
  | 6 => 0xfff00000
  | 8 => 0xffc00000
  | 5 | 7 | 9 => 0xffffffff
  | 20 => 0xc0000000
  | 30 => 0x7fff
  | 66 | 67 => 0x07fff030
  | _ => 0

/-- A dword of configuration space. Bus Master Enable and the power state are the function's own. (PRESUMED log entry 63.) -/
def Hw.cfgDword (h : Hw) (o : Otp) (i : Nat) : BitVec 32 :=
  let w := (aget i h.hst.cfg).getD (cfgReset o i)
  if i = 1 then (w &&& 0xfffffffb) ||| (if h.hst.busMaster then 4 else 0)
  else if i = 17 then w ||| (if h.hst.d3hot then 3 else 0)
  else w

/-- Bus Master Enable is written; the chip may start requests again once it is 1 (R252). (DEDUCED log entry 43.) -/
def Hw.busMasterWrite (h : Hw) (on : Bool) : Hw :=
  let h := { h with hst := { h.hst with busMaster := on } }
  if on then h.requestsResume else h

/-- What a configuration write of a dword does beside its stored bits: Bus Master Enable, the power state, and an FLR. (PRESUMED log entry 63.) -/
def Hw.cfgEffect (h : Hw) (i : Nat) (v : BitVec 32) : Hw :=
  match i with
  | 1 => h.busMasterWrite (v.getLsbD 2)
  | 17 => if v &&& 3 = 3 then h.d3hot else if v &&& 3 = 0 then h.d0 else h
  | 30 => if v.getLsbD 15 then h.flr else h
  | _ => h

/-- A write of a dword of configuration space; the AER status is cleared by ones. (PRESUMED log entry 63.) -/
def Hw.cfgWrite (h : Hw) (o : Otp) (i : Nat) (v : BitVec 32) : Hw :=
  let old := (aget i h.hst.cfg).getD (cfgReset o i)
  let w := if i = 65 then old &&& ~~~v else (old &&& ~~~cfgRw i) ||| (v &&& cfgRw i)
  let h := { h with hst := { h.hst with cfg := if w = cfgReset o i then adel i h.hst.cfg else aput i w h.hst.cfg } }
  h.cfgEffect i v

/-- An Uncorrectable Internal Error through AER (R325): its status bit, and its signal. (PRESUMED log entry 63.) -/
def Hw.aerInternal (h : Hw) : Hw :=
  let w := (aget 65 h.hst.cfg).getD 0 ||| 0x00400000
  Hw.emit { h with hst := { h.hst with cfg := aput 65 w h.hst.cfg } } .aer

/-- A configuration read of 4 or 8 bytes. -/
def Hw.cfgRead (h : Hw) (o : Otp) (addr : Nat) : W64 :=
  if addr < 4096 then BitVec.ofNat 64 ((h.cfgDword o (addr / 8 * 2)).toNat + (h.cfgDword o (addr / 8 * 2 + 1)).toNat * 2 ^ 32) else 0

/-- A configuration write of 4 or 8 bytes: a dword of its own for each half. -/
def Hw.cfgPut (h : Hw) (o : Otp) (addr : Nat) (lo hi : Option (BitVec 32)) : Hw :=
  if addr < 4096 then
    let put (h : Hw) (i : Nat) (v : Option (BitVec 32)) : Hw := match v with
      | some v => h.cfgWrite o i v
      | none => h
    put (put h (addr / 8 * 2) lo) (addr / 8 * 2 + 1) hi
  else h

end Sys2Proof.Machine
end

