-- ==== Sys2Proof/Machine/Errors.lean ====
section
/-! DEFINITION. Errors and containment: records on their way to the fault manager and the host, fatal errors, rates and adaptive voltage,
parity repair, lane fences and the Sweep, withdrawal, and the management tick (R25 to R27, R70, R243, R299, R322 to R341, R381, R396). -/

namespace Sys2Proof.Machine

/-! ### Records (R26, R299, R326, R330) -/

/-- The queued records that their tick has not closed yet. -/
def Hw.openRecs (h : Hw) : List Rec := (h.err.quadQ.toList.flatMap id ++ h.err.hubQ).filter (·.open_)

/-- The end of a tick closes every queued record; each is copied to the host under ERR_CFG and raises ERROR. (DESIGN CHOICE log entry 14, DEDUCED log entry 48.) -/
def Hw.closeRecords (h : Hw) : Hw :=
  let new := h.openRecs
  let close (r : Rec) : Rec := { r with open_ := false }
  let h := { h with err := { h.err with quadQ := h.err.quadQ.map (List.map close), hubQ := h.err.hubQ.map close,
                                        secQ := h.err.secQ.map (List.map close) } }
  new.foldl (fun h r =>
    (if h.bit .errCfg Fld.errCfg_hostEn then h.toRing (h.fld .errCfg Fld.errCfg_ring) (r.bytes 0) else h).hostEvent 0) h

/-- An agent's overflow count, and the hub's, are sent as records of their own once Gliuk runs. (DEDUCED log entry 48.) -/
def Hw.overflowRecords (h : Hw) : Hw :=
  let tell (h : Hw) (u n : Nat) : Hw := h.record { code := 0x0001, die := 8, unit := u, d0 := BitVec.ofNat 64 n }
  let h := (List.range 4).foldl (fun h q =>
    if h.err.quadOver.get q = h.err.quadTold.get q then h
    else tell { h with err := { h.err with quadTold := h.err.quadTold.set q (h.err.quadOver.get q) } } q (h.err.quadOver.get q)) h
  if h.err.hubOver = h.err.hubTold then h
  else tell { h with err := { h.err with hubTold := h.err.hubOver } } 4 h.err.hubOver

/-- CODE of a record's bytes. -/
def recCode (b : List Byte) : Nat := getLE b 4 2

/-- A record enters the store of unacknowledged ones. In a full store the oldest is dropped, and a loss record that names the dropped
sequences stands in its place. -/
def Hw.keepSent (h : Hw) (x : SentRec) : Hw :=
  let l := h.mgt.sent
  if l.length < 65536 then { h with mgt := { h.mgt with sent := l ++ [x] } }
  else
    match l with
    | a :: b :: rest =>
      let first := if recCode a.bytes = 0x0002 then getLE a.bytes 40 8 else a.seq
      let (r, h) := h.mkRec { code := 0x0002, die := 8, unit := 0, d0 := BitVec.ofNat 64 first, d1 := BitVec.ofNat 64 b.seq }
      { h with mgt := { h.mgt with sent := ⟨a.seq, r.bytes a.seq, a.time⟩ :: rest ++ [x] }, err := { h.err with hubSeq := r.qseq + 1 } }
    | _ => h

/-- RECORDS messages of at most 125 records each, as many as one Tether body holds. (DEDUCED log entry 48.) -/
def Hw.sendRecords (h : Hw) (nv : Nv) : Nat → List SentRec → Hw
  | 0, _ => h
  | _, [] => h
  | n + 1, l => Hw.sendRecords (h.tetherFm nv 0x30 ((l.take 125).flatMap (·.bytes))) nv n (l.drop 125)

/-- Gliuk takes the closed records, numbers them and sends them. -/
def Hw.takeRecords (h : Hw) (nv : Nv) : Hw :=
  if !h.gliuk then h
  else
    let all := h.err.quadQ.toList.flatMap id ++ h.err.hubQ
    let new : List SentRec := all.zipIdx.map fun x => ⟨h.mgt.recSeq + x.2, x.1.bytes (h.mgt.recSeq + x.2), h.tim.local_⟩
    let h := { h with err := { h.err with quadQ := Four.all [], hubQ := [] }, mgt := { h.mgt with recSeq := h.mgt.recSeq + new.length } }
    (new.foldl (fun h x => h.keepSent x) h).sendRecords nv new.length new

/-- The end of a tick for the queues: the records close and Gliuk takes them; then the overflow counts follow as records of their own,
which the emptied queue of the hub takes. -/
def Hw.endOfTick (h : Hw) (nv : Nv) : Hw :=
  let h := h.closeRecords.takeRecords nv
  if h.gliuk then h.overflowRecords.closeRecords.takeRecords nv else h

/-- RECORD_RESEND_TIMER: records unacknowledged for 100 ms go out again. -/
def Hw.resendRecords (h : Hw) (nv : Nv) : Hw :=
  if !h.gliuk then h
  else
    let due (x : SentRec) : Bool := decide (x.time + 100 * slotsMs ≤ h.tim.local_)
    let l := h.mgt.sent.filter due
    let h := { h with mgt := { h.mgt with sent := h.mgt.sent.map fun x => if due x then { x with time := h.tim.local_ } else x } }
    h.sendRecords nv l.length l

def execRecordResendTimer (s : State) : Host.Outcome State Fault Refusal := .next (s.onHw fun h => h.resendRecords s.nv)

/-! ### Fatal errors (R322 to R325) -/

def Hw.firstFatal (h : Hw) (code : Nat) : Hw :=
  if h.fld .errStatus Fld.errStatus_firstFatalCode = 0 then h.setFld .errStatus Fld.errStatus_firstFatalCode code else h

/-- A FATAL of quadrant `q` with its cause code (R323). The hub queues the record of an agent that fails its probes. (DEDUCED log entry 48, DEDUCED log entry 49.) -/
def State.quadFatal (s : State) (q cause : Nat) : State :=
  if s.hw.pwr.porHeld || s.hw.fatalChip || s.hw.fatalQ q || s.hw.qdBusy q then s
  else
    let n := s.hw.dieFrames q
    let s := s.onHw fun h =>
      let h := h.setReg .errStatus (h.reg .errStatus ||| BitVec.ofNat 64 (2 ^ q))
      let h := ((h.firstFatal 0x0f01).bridlesLoseQuad q).dieLost q
      let h := ((List.range 32).map (32 * q + ·)).foldl (fun h o => h.darkPorts o) h
      (h.record { code := 0x0f01, die := if cause = 1 then 8 else q, unit := q, d0 := BitVec.ofNat 64 cause, d1 := BitVec.ofNat 64 n }).aerInternal
    s.loseQuad q

/-- Every Bridle ends without an ABORT of the chip's; the closes that wait complete with the status and result that `f` gives. -/
def Hw.endBridles (h : Hw) (nv : Nv) (f : Bridle → Nat × Nat) : Hw :=
  let who := h.coll.bridles.flatMap fun b => b.closers.map fun w => (w, f b)
  let h := { h with coll := { h.coll with bridles := [] } }
  who.foldl (fun h w => h.cmdDone nv w.1 w.2.1 w.2.2 []) h

/-- The commands that the engine has begun end with BUSY, their copies and long operations with them; record buffers, which still
take records, stay. -/
def Hw.endCommands (h : Hw) : Hw :=
  let mine := h.hst.started.filter fun d => d.begun && d.opcode != 0x070
  let fabric (d : CopyDesc) : Bool := match d.from_ with | .fabric _ _ => true | .host _ _ => false
  mine.foldl (fun h d => h.finish d 0x04 0)
    { h with hst := { h.hst with long := [] }, gon := { h.gon with copies := h.gon.copies.map fun l => l.filter fabric } }

/-- A chip FATAL with its cause code (R324). (DEDUCED log entry 49.) -/
def Hw.chipFatal (h : Hw) (nv : Nv) (cause : Nat) : Hw :=
  if h.pwr.porHeld || h.fatalChip then h
  else
    let h := ((h.setFld .errStatus Fld.errStatus_fatalChip 1).firstFatal 0x0f02).endBridles nv fun _ => (0x04, 0)
    let h := h.endCommands
    let h := [0, 1, 2, 3].foldl (fun h q => h.dieLost q) h
    let h := (List.range 128).foldl (fun h o => h.darkPorts o) h
    let h := ((h.record { code := 0x0f02, die := 8, unit := 0, d0 := BitVec.ofNat 64 cause }).icEvent 64).aerInternal
    if h.gliuk then h.closeRecords.takeRecords nv else h

/-- LIVENESS_PROBE: three in a row that fail while the hub path works. -/
def State.probe (s : State) (q : Nat) (answered : Bool) : State :=
  if s.hw.err.hubLost.get q || s.hw.qdBusy q || s.hw.pwr.porHeld then s
  else
    let n := if answered then 0 else s.hw.err.probes.get q + 1
    let s := s.onHw fun h => { h with err := { h.err with probes := h.err.probes.set q n } }
    if n < 3 then s else s.quadFatal q 1

def execLivenessProbe (q : Quad) (answered : Bool) (s : State) : Host.Outcome State Fault Refusal := .next (s.probe q answered)

/-- The handshake pipelines of quadrant `q` are stopped on purpose: parked, or tripped (R375, R382, R396). -/
def Hw.railsLow (h : Hw) (q : Nat) : Bool := h.parked q || h.parkReq q || h.pwr.thermTrip

/-- FRAME_ADMIT (R98): a frame in its landing zone or block retries. An uncorrectable word of the queue descriptors or buffer pointers it
needs is FATAL for its quadrant (R322, cause 2). -/
def execFrameAdmit (a : AdmitTry) (s : State) : Host.Outcome State Fault Refusal :=
  .next (match s.hw.heldAt a.id with
    | some x => if a.ue then s.quadFatal x.die 2 else s.onHw fun h => h.frameAdmit a.id
    | none => s)

/-- DESCRIPTOR_FETCH (R259). An uncorrectable word of the hub memory that the command engine uses is FATAL (R322, cause 18). -/
def execDescriptorFetch (r : Ring) (d : Fetched) (s : State) : Host.Outcome State Fault Refusal :=
  .next (s.onHw fun h => match d with
    | .bytes l => h.descriptorFetch r (some l)
    | .failed => h.descriptorFetch r none
    | .hubUe => h.chipFatal s.nv 18)

/-- PIPELINE_STALL. -/
def execPipelineStall (q : Quad) (s : State) : Host.Outcome State Fault Refusal := .next (if s.hw.railsLow q then s else s.quadFatal q 3)

/-- MAC_CLOCK_LOSS. -/
def execMacClockLoss (q : Quad) (s : State) : Host.Outcome State Fault Refusal := .next (s.quadFatal q 4)

/-- VCORE_OUT_OF_RANGE: a rail of either die stops its pipelines; the retention level and a thermal trip are exempt (R382). -/
def execVcoreOutOfRange (q : Quad) (_cdie : Bool) (s : State) : Host.Outcome State Fault Refusal :=
  .next (if s.hw.railsLow q then s else s.quadFatal q 3)

/-- REFCLK_LOSS. -/
def execRefclkLoss (s : State) : Host.Outcome State Fault Refusal := .next (s.onHw fun h => h.chipFatal s.nv 16)

/-- TIME_BASE_DIVERGE. -/
def execTimeBaseDiverge (s : State) : Host.Outcome State Fault Refusal := .next (s.onHw fun h => h.chipFatal s.nv 17)

/-- 0.50 V in steps of 2.5 mV. -/
def railLow : Nat := 200

/-- THERMAL_TRIP (R396): a chip FATAL; THERMTRIP_L is asserted, every emitter goes dark and every VCORE rail to 0.50 V. (DEDUCED log entry 49.) -/
def Hw.thermalTrip (h : Hw) (nv : Nv) : Hw :=
  if h.pwr.porHeld || h.pwr.thermTrip then h
  else
    let h := h.chipFatal nv 19
    let h := (List.range 144).foldl (fun h e =>
      if h.emitState e = 0 ∨ h.emitState e = 4 ∨ h.emitState e = 5 then h
      else ((h.setEmit e 0).setFeeds e 0x7f).setFld (.emitStatus e) Fld.emitStatus_level 0) h
    { h with lgt := { h.lgt with handover := [] },
             pwr := { h.pwr with thermTrip := true, vP := Four.all railLow, vC := Four.all railLow } }

def execThermalTrip (s : State) : Host.Outcome State Fault Refusal := .next (s.onHw fun h => h.thermalTrip s.nv)

/-- THERMTRIP_L and ALERT_L (R387), as asserted. -/
def Hw.thermtripL (h : Hw) : Bool := h.pwr.thermTrip
def Hw.alertL (h : Hw) : Bool :=
  (h.pwr.tjDie.any fun t => decide (100 ≤ t.toInt)) || (h.pwr.tStack.any fun t => decide (90 ≤ t.toInt)) || h.fatalChip ||
    decide (h.fld .errStatus Fld.errStatus_fatalQ ≠ 0)

/-! ### Rates (R27, R322) -/

/-- A rate of a die falls below 920: its field held no such sample before. (DESIGN CHOICE log entry 50.) -/
def Hw.newlyLow (h : Hw) (q : Nat) (f : Fld) (rate : Nat) : Bool :=
  decide (rate < 920) && (!h.bit (.coreRate q) Fld.coreRate_sampled || decide (920 ≤ h.fld (.coreRate q) f))

/-- CORE_RATE_SAMPLE, one in each 10 µs: the sample, a record for each die whose rate has fallen below 920, and cause 5. (DEDUCED log entry
48, DESIGN CHOICE log entry 50.) (DEDUCED log entry 48.) -/
def State.rateSample (s : State) (q : Nat) (p c : BitVec 12) (tj : Byte) : State :=
  let now := s.hw.slot q / (10 * slotsUs)
  if s.hw.pwr.porHeld || s.hw.qdBusy q || s.hw.railsLow q || now == s.hw.err.rateNo.get q then s
  else
    let low := decide (p.toNat < 920) || decide (c.toNat < 920)
    let s := s.onHw fun h =>
      let w := p.toNat + c.toNat * 2 ^ 16 + tj.toNat * 2 ^ 32 + (if low then 2 ^ 40 else 0) + 2 ^ 41
      let newP := h.newlyLow q Fld.coreRate_pRate p.toNat
      let newC := h.newlyLow q Fld.coreRate_cRate c.toNat
      let rec_ (h : Hw) (die : Nat) : Hw := h.record { code := 0x0601, die := die, unit := q, d0 := p.setWidth 64, d1 := c.setWidth 64 }
      let h := h.setReg (.coreRate q) (BitVec.ofNat 64 w)
      let h := { h with tim := { h.tim with tjSec := h.tim.tjSec.set q (if h.tim.tjSec.get q < tj then tj else h.tim.tjSec.get q) },
                        err := { h.err with rateNo := h.err.rateNo.set q now } }
      let h := if newP then rec_ h q else h
      if newC then rec_ h (4 + q) else h
    if p.toNat < 500 ∨ c.toNat < 500 then s.quadFatal q 5 else s

def execCoreRateSample (q : Quad) (pRate cRate : BitVec 12) (tj : Byte) (s : State) : Host.Outcome State Fault Refusal :=
  .next (s.rateSample q pRate cRate tj)

/-- One tick of adaptive voltage on one rail (R27, R381, R382): setpoint and commands left unacknowledged. The rail steps down at any
sample above 1,000. (DESIGN CHOICE log entry 29.) -/
def avsStep (v nack rate lo hi : Nat) (ack : Bool) : Nat × Nat :=
  let want := if rate < 1000 then min (v + 1) hi else if 1000 < rate then max (v - 1) lo else v
  if 3 ≤ nack then (v, if ack then 0 else nack)
  else if want = v then (v, nack)
  else if ack then (want, 0) else (v, nack + 1)

/-- Adaptive voltage of quadrant `q`; no rate is known before the first sample. (DESIGN CHOICE log entry 29.) -/
def Hw.avs (h : Hw) (q : Nat) (ack : Bool × Bool) : Hw :=
  if h.railsLow q || h.qdBusy q || !h.bit (.coreRate q) Fld.coreRate_sampled then h
  else
    let p := avsStep (h.pwr.vP.get q) (h.pwr.nackP.get q) (h.fld (.coreRate q) Fld.coreRate_pRate) 280 352 ack.1
    let c := avsStep (h.pwr.vC.get q) (h.pwr.nackC.get q) (h.fld (.coreRate q) Fld.coreRate_cRate) 240 312 ack.2
    { h with pwr := { h.pwr with vP := h.pwr.vP.set q p.1, nackP := h.pwr.nackP.set q p.2, vC := h.pwr.vC.set q c.1,
                                 nackC := h.pwr.nackC.set q c.2 } }

/-! ### Parity repair (R70, R128, R164) -/

def Hw.markGood (h : Hw) (t : TblRef) (p : Nat → Bool) : Hw :=
  { h with fwd := { h.fwd with bad := h.fwd.bad.filter fun x => !(x.1 == t && p x.2) } }

/-- The entry of quadrant `q` rewritten from the replica of `k`. -/
def Hw.copyEntry (h : Hw) (t : TblRef) (q k : Nat) : Hw :=
  match t.tbl with
  | .level l => h.setReg (levelReg l q t.ix) (h.reg (levelReg l k t.ix))
  | .spar => h.setReg (.sparTbl q t.ix) (h.reg (.sparTbl k t.ix))
  | .exc =>
    let mine (e : ExcEnt) : Bool := e.node.toNat == t.ix
    { h with fwd := { h.fwd with exc := h.fwd.exc.set q ((h.fwd.exc.get q).filter (fun e => !mine e) ++ (h.fwd.exc.get k).filter mine) } }
  | .mcast =>
    let l := h.fwd.mcast.get q
    { h with fwd := { h.fwd with mcast := h.fwd.mcast.set q (match aget t.ix (h.fwd.mcast.get k) with
                                                            | some m => aput t.ix m l
                                                            | none => adel t.ix l) } }
  | .recipe => (List.range 4).foldl (fun h w => h.setReg (.recipeW q (4 * t.ix + w)) (h.reg (.recipeW k (4 * t.ix + w)))) h
  | .circuit | .bridle | .member => h

/-- The Bridles that a lost Bridle entry, member or recipe aborts. -/
def Bridle.needs (b : Bridle) (t : TblRef) : Bool :=
  match t.tbl with
  | .bridle => b.ix == t.ix
  | .member => decide (b.memberBase ≤ t.ix) && decide (t.ix < b.memberBase + b.members.length)
  | .recipe => b.recipe == t.ix
  | _ => false

/-- The entry is invalidated in all four replicas; what that changes of a route is a re-route (R83). (DEDUCED log entry 51.) -/
def Hw.invalidate (h : Hw) (t : TblRef) : Hw :=
  match t.tbl with
  | .level l =>
    let z := match l with | .zone => t.ix | .row => t.ix / 64 | .rack => t.ix / 4096
    ((List.range 4).foldl (fun h q => h.setReg (levelReg l q t.ix) 0) h).reroute [zoneKey z]
  | .spar =>
    let zs := h.sparZones (h.epochDie.getD 0) [t.ix / 32]
    ((List.range 4).foldl (fun h q => h.setReg (.sparTbl q t.ix) 0) h).reroute (zs.map zoneKey)
  | .exc => (h.dropEntry (BitVec.ofNat 24 t.ix)).reroute [nodeKey (BitVec.ofNat 24 t.ix)]
  | .mcast => { h with fwd := { h.fwd with mcast := h.fwd.mcast.map fun l => adel t.ix l } }
  | .circuit =>
    let key := rackKey (h.fld (.circuitMap t.ix) Fld.circuitMap_remoteRack)
    let live := h.circuitState t.ix == 1
    let h := (h.setFld (.circuitMap t.ix) Fld.circuitMap_classMask 0).setFld (.circuitMap t.ix) Fld.circuitMap_groupEn 0
    let h := h.setReg (.circuitMap t.ix) (withParity (h.reg (.circuitMap t.ix)))
    if live then h.reroute [key] else h
  | .recipe =>
    (List.range 4).foldl (fun h q => (List.range 4).foldl (fun h w => h.setReg (.recipeW q (4 * t.ix + w)) 0) h) h
  | .bridle | .member => h

/-- TABLE_PARITY_REPAIR: the agent of quadrant `q` rewrites its entry from a good replica, or the entry goes everywhere and Bridles that
need it abort with TABLE. -/
def Hw.parityRepair (h : Hw) (q : Nat) (t : TblRef) : Hw :=
  if !h.tblBad q t then h
  else
    match (List.range 4).find? fun k => !h.tblBad k t with
    | some k => (h.copyEntry t q k).markGood t fun x => x == q
    | none =>
      let h := (h.invalidate t).markGood t fun _ => true
      h.coll.bridles.foldl (fun h b => if b.needs t && b.state != .aborted then h.bridleAbortLow b 7 0x7ff else h) h

def execTableParityRepair (q : Quad) (t : TblRef) (s : State) : Host.Outcome State Fault Refusal := .next (s.onHw fun h => h.parityRepair q t)

/-! ### Lane fences (R35 to R37, R335) -/

def Nv.laneOff (v : Nv) (k : Nat) : Bool := v.disabled.getLsbD k

/-- A C-die left without a lane: its active Bridles abort (R181). (DEDUCED log entry 51.) -/
def State.lastLane (s : State) (k : Nat) : State :=
  if (enabledLanes s.nv.disabled (k / 16)).isEmpty then s.onHw fun h => h.bridlesLoseLanes (k / 16) else s

/-- Lane `k` is fenced and stops at its next handshake boundary. (DEDUCED log entry 51.) -/
def State.fenceLane (s : State) (k : Nat) : State :=
  let s' := (s.onHw fun h => h.bridlesLoseLane s.nv.disabled k).onNv fun v => { v with laneFence := v.laneFence ||| BitVec.ofNat 64 (2 ^ k) }
  s'.lastLane k

/-- A write of LANE_FENCE: bits of lanes that are not fused are set. -/
def State.fenceWrite (s : State) (a : Acc) (v : W64) : State :=
  let bits := accWord a 0 v &&& accMask a &&& ~~~s.nv.otp.laneFused &&& ~~~s.nv.laneFence
  let s := s.onNv fun n => { n with laneFence := n.laneFence ||| bits }
  (List.range 64).foldl (fun s k => if bits.getLsbD k then s.lastLane k else s) s

/-- LANE_FENCE_WRITE. -/
def execLaneFenceWrite (acc : Acc) (v : W64) (s : State) : Host.Outcome State Fault Refusal :=
  .next (if s.hw.pwr.porHeld then s else s.fenceWrite acc v)

/-! ### The Sweep (R331 to R336) -/

/-- LANE_SWEEP[k] as kept: PASSES, LAST_PASS_S, and STATE only while it is OVERDUE. -/
def Nv.sweep (v : Nv) (k : Nat) : W64 := (aget k v.laneSweep).getD 0
def State.setSweep (s : State) (k : Nat) (w : W64) : State := s.onNv fun v => { v with laneSweep := aput k w v.laneSweep }
/-- DEDUCED log entry 58. -/
def Nv.overdue (v : Nv) (k : Nat) : Bool := Fld.laneSweep_state.get (v.sweep k) == 2

/-- FAILS: intermittent outcomes of lane `k` within the last 24 h. -/
def Hw.laneFails (h : Hw) (k : Nat) : Nat :=
  min 255 (h.err.intermit.filter fun x => x.1 == k && decide ((h.tim.local_ : Int) < x.2 + (86400 * slotsSec : Nat))).length

/-- SWEEP_STATUS.OVERDUE_LANES follows the lanes that read OVERDUE. (DEDUCED log entry 58.) -/
def State.countOverdue (s : State) : State :=
  s.onHw fun h => h.setFld .sweepStatus Fld.sweepStatus_overdueLanes
    ((List.range 64).filter fun k => s.nv.overdue k && !s.nv.laneOff k).length

/-- Sweeps run on lane `k`: Gliuk runs, ENABLE is 1, the lane is enabled and its quadrant serves (R333, R375). -/
def State.sweeps (s : State) (k : Nat) : Bool :=
  s.hw.gliuk && s.hw.bit .sweepCfg Fld.sweepCfg_enable && decide (k < 64) && !s.nv.laneOff k && s.hw.quadOk (k / 16) &&
    !s.hw.railsLow (k / 16)

/-- A record of lane `k`. -/
def Hw.laneRec (h : Hw) (code k : Nat) (d0 d1 : Nat) : Hw :=
  h.record { code := code, die := 4 + k / 16, unit := k, d0 := BitVec.ofNat 64 d0, d1 := BitVec.ofNat 64 d1 }

/-- SWEEP_PASS_COMPLETE; a pass without FAIL updates LAST_PASS_S. (DESIGN CHOICE log entry 50.) -/
def State.passDone (s : State) (k : Nat) (failed : Bool) : State :=
  if !s.sweeps k then s
  else
    let w := s.nv.sweep k
    let w := Fld.laneSweep_state.put (Fld.laneSweep_passes.put w (Fld.laneSweep_passes.get w + 1)) 0
    let w := if failed then w else Fld.laneSweep_lastPassS.put w s.hw.fabSec
    let c := k / 16
    let s := (s.setSweep k w).onHw fun h =>
      { h with err := { h.err with passAt := aput k h.tim.local_ h.err.passAt, extra := h.err.extra.filter fun x => x.1 != k } }
    -- the pack has finished on the C-die when no extra Sweep is left there
    let s := if s.hw.err.extra.any fun x => x.1 / 16 == c then s else s.onHw fun h => h.icEvent (96 + c)
    s.countOverdue

def execSweepPassComplete (k : RedLane) (failed : Bool) (s : State) : Host.Outcome State Fault Refusal := .next (s.passDone k failed)

/-- The band of LANE_HIST for a junction temperature. -/
def histBand (t : Int) : Nat :=
  if t < 30 then 0 else if t < 45 then 1 else if t < 60 then 2 else if t < 70 then 3 else if t < 80 then 4 else if t < 90 then 5
  else if t < 100 then 6 else 7

/-- `n` more mismatches of lane `k` at temperature `t`. (DEDUCED log entry 51.) -/
def State.addHist (s : State) (k n : Nat) (t : Int) : State :=
  s.onNv fun v =>
    let w := (aget k v.laneHist).getD 0
    let f : Fld := ⟨8 * histBand t, 8⟩
    { v with laneHist := aput k (f.put w (min 255 (f.get w + n))) v.laneHist }

/-- A lane that the Sweep finds at fault is fenced, with SWEEP_FAIL. (DESIGN CHOICE log entry 33, DEDUCED log entry 51.) -/
def State.sweepFail (s : State) (k sect : Nat) : State :=
  ((s.onHw fun h => h.laneRec 0x0501 k sect (Fld.laneSweep_lastPassS.get (s.nv.sweep k))).fenceLane k).countOverdue

/-- SWEEP_VECTOR_REPEAT: both runs mismatch, or the outcome is intermittent. -/
def State.vectorRepeat (s : State) (k sect : Nat) (tj : Byte) (r : Repeat) : State :=
  if !s.sweeps k then s
  else
    match r with
    | .mismatch => (s.addHist k 2 tj.toInt).sweepFail k sect
    | .matched =>
      let s := (s.addHist k 1 tj.toInt).onHw fun h => { h with err := { h.err with intermit := h.err.intermit ++ [(k, (h.tim.local_ : Int))] } }
      let s := s.onHw fun h => h.laneRec 0x0502 k sect (h.laneFails k)
      if s.hw.laneFails k < s.hw.fld .sweepCfg Fld.sweepCfg_intermitLimit then s else s.sweepFail k sect

def execSweepVectorRepeat (k : RedLane) (sect : BitVec 10) (tj : Byte) (r : Repeat) (s : State) : Host.Outcome State Fault Refusal :=
  .next (s.vectorRepeat k sect.toNat tj r)

/-- LANE_HANG. (DESIGN CHOICE log entry 33.) -/
def State.laneHang (s : State) (k : Nat) : State :=
  if s.nv.laneOff k || !s.hw.quadOk (k / 16) || s.hw.railsLow (k / 16) then s
  else ((s.onHw fun h => h.laneRec 0x0504 k 0 (Fld.laneSweep_lastPassS.get (s.nv.sweep k))).fenceLane k).countOverdue

def execLaneHang (k : RedLane) (s : State) : Host.Outcome State Fault Refusal := .next (s.laneHang k)

/-- SWEEP_OVERDUE. -/
def State.sweepOverdue (s : State) (k : Nat) : State :=
  match aget k s.hw.err.passAt with
  | none => s
  | some t =>
    if !s.sweeps k || s.nv.overdue k || decide (s.hw.tim.local_ < t + 10 * slotsSec) then s
    else
      let s := s.setSweep k (Fld.laneSweep_state.put (s.nv.sweep k) 2)
      (s.onHw fun h => h.laneRec 0x0503 k ((h.tim.local_ - t) / slotsSec) 0).countOverdue

def execSweepOverdue (k : RedLane) (s : State) : Host.Outcome State Fault Refusal := .next (s.sweepOverdue k)

/-- The hottest sensor of C-die `c` at a tick: an excursion within the window queues THERMAL_EXCURSION and asks for a full pass. (DEDUCED log entry 28, DESIGN CHOICE log entry 50.) -/
def Hw.excursion (h : Hw) (c : Nat) (tj : Byte) : Hw :=
  let d := h.fld .sweepCfg Fld.sweepCfg_excDeltaC
  let old := h.err.tjHist.get c
  match ((old.take (h.fld .sweepCfg Fld.sweepCfg_excWindowMs)).reverse.find? fun x => decide (d ≤ (tj.toInt - x.toInt).natAbs)) with
  | none => { h with err := { h.err with tjHist := h.err.tjHist.set c ((tj :: old).take 255) } }
  | some x =>
    let h := { h with err := { h.err with tjHist := h.err.tjHist.set c [tj], twinSweep := h.err.twinSweep ++ [c] } }
    h.record { code := 0x0602, die := 4 + c, unit := c, d0 := x.signExtend 64, d1 := tj.signExtend 64 }

/-- Gliuk starts an extra Sweep on C-die `c`, of a section or of the whole pack, unless its limit stands. (DESIGN CHOICE log entry 50.) -/
def State.extraSweep (s : State) (c : Nat) (sect : Option Nat) : State :=
  let key := match sect with | some x => x + 1 | none => 0
  let gap := if key = 0 then 100 * slotsMs else slotsSec
  let now := s.hw.tim.local_
  if s.hw.err.extraAt.any fun x => x.1 == c && x.2.1 == key && decide (now < x.2.2 + gap) then s
  else
    let new := ((enabledLanes s.nv.disabled c).filter fun k => s.sweeps k).map fun k => (k, sect)
    s.onHw fun h =>
      { h with err := { h.err with extra := h.err.extra.filter (fun x => !new.contains x) ++ new,
                                   extraAt := (c, key, now) :: h.err.extraAt.filter fun x => !(x.1 == c && x.2.1 == key) } }

/-- The extra Sweeps of a tick (R336). (DESIGN CHOICE log entry 50, DESIGN CHOICE log entry 60.) -/
def State.extraSweeps (s : State) (t : TickIn) : State :=
  if !s.hw.gliuk || !s.hw.bit .sweepCfg Fld.sweepCfg_enable then s
  else
    let due := s.hw.err.twinSweep.dedup
    let s := s.onHw fun h => { h with err := { h.err with twinSweep := [] } }
    let s := due.foldl (fun s c => s.extraSweep c none) s
    let hold := (List.range 4).flatMap fun c => (s.hw.err.gates.filter fun g =>
      decide ((g.2.1 : Int) ≤ (t.tj.get c).toInt) && decide ((t.tj.get c).toInt ≤ (g.2.2.1 : Int)) &&
        decide (g.2.2.2 ≤ (t.load.get c).toNat)).map fun g => (c, g.1)
    let new := hold.filter fun x => !s.hw.err.gateOn.contains x
    let s := s.onHw fun h => { h with err := { h.err with gateOn := hold } }
    new.foldl (fun s x => s.extraSweep x.1 (some x.2)) s

/-! ### Emitters at the tick (R242 to R244) -/

/-- Gliuk's thresholds on a lit emitter whose mean level was `old` when Gliuk saw it last. (DESIGN CHOICE log entry 26, DESIGN CHOICE log entry 52.) -/
def Hw.fade (h : Hw) (v : Nv) (e old : Nat) : Hw :=
  let l := h.emitLevel e
  let warn := h.fld .emitCfg Fld.emitCfg_warnPermil
  let spare := h.fld .emitCfg Fld.emitCfg_sparePermil
  let rec_ (h : Hw) (code : Nat) : Hw := h.record { code := code, die := e / 36, unit := e, d0 := BitVec.ofNat 64 l }
  match octetOf e with
  | none =>
    -- a serving spare: its fade raises records and nothing more
    if h.emitState e ≠ 10 then h
    else
      let h := if l ≤ warn ∧ warn < old then rec_ h 0x0211 else h
      if l ≤ spare ∧ spare < old then rec_ h 0x0212 else h
  | some o =>
    let fresh := h.emitState e == 1
    let h := if h.emitState e = 1 ∧ l ≤ warn then rec_ (h.setEmit e 2) 0x0211 else h
    if h.emitState e ≠ 2 then h
    else if warn + 20 ≤ l then h.setEmit e 1
    else if spare < l then h
    else if h.spareIdle v o then (if h.bit .emitCfg Fld.emitCfg_autoSpare then h.handoverStart e else h)
    else if fresh || decide (spare < old) then h.noSpareRec e else h

/-- The emitters' mean levels at a tick; a dark or sleeping emitter is not monitored. Gliuk remembers the level it saw, so that a crossing
while it does not run is met at its first tick (R25). (DESIGN CHOICE log entry 52.) -/
def Hw.emitters (h : Hw) (v : Nv) (l : List (Emitter × BitVec 10)) : Hw :=
  let see (h : Hw) (l : List (Nat × Nat)) : Hw := { h with lgt := { h.lgt with seenLevel := l } }
  l.foldl (fun h x =>
    let e := x.1.val
    let st := h.emitState e
    if st = 0 ∨ st = 4 ∨ st = 5 ∨ st = 6 then see h (adel e h.lgt.seenLevel)
    else
      let old := (aget e h.lgt.seenLevel).getD 1023
      let h := h.setFld (.emitStatus e) Fld.emitStatus_level x.2.toNat
      if h.gliuk then (see h (aput e x.2.toNat h.lgt.seenLevel)).fade v e old else h) h

/-! ### The management tick (R26) -/

/-- MANAGEMENT_TICK: one in each 1 ms of the local count (R26). (DESIGN CHOICE log entry 60.) -/
def State.tick (s : State) (t : TickIn) : State :=
  let now := s.hw.tim.local_ / slotsMs
  if s.hw.pwr.porHeld || now == s.hw.err.tickNo then s
  else
    let s := s.onHw fun h =>
      let h : Hw := { h with err := { h.err with tickNo := now } }
      let h := (h.count 8 0x200 0 1).icEvent 2
      let h := (List.range 4).foldl (fun h q => h.avs q (t.ack.get q)) h
      let h := h.emitters s.nv t.levels
      let h := (List.range 4).foldl (fun h c => h.excursion c (t.tj.get c)) h
      if h.bit .mgmtStatus Fld.mgmtStatus_inRestart then h.setHoldover true else h
    let s := s.extraSweeps t
    s.onHw fun h => h.endOfTick s.nv

def execManagementTick (t : TickIn) (s : State) : Host.Outcome State Fault Refusal := .next (s.tick t)

/-! ### Withdrawal (R341) -/

def Hw.withdrawState (h : Hw) : Nat := h.fld .withdrawCtl Fld.withdrawCtl_state

/-- VENT_NOTICE with SCOPE 1 on every port in UP. -/
def Hw.chipVent (h : Hw) (state : Nat) : Hw :=
  ((List.range 1024).filter fun n => h.portStart n && h.linkUp n).foldl (fun h n => h.ventNotice n 1 state) h

/-- WITHDRAW: REQ becomes 1. (DEDUCED log entry 51.) -/
def Hw.withdraw (h : Hw) : Hw :=
  if h.bit .withdrawCtl Fld.withdrawCtl_req then h
  else
    let h := ((h.setFld .withdrawCtl Fld.withdrawCtl_req 1).setFld .withdrawCtl Fld.withdrawCtl_state 1).chipVent 0
    { h with err := { h.err with noticeAt := h.slot 0 } }

def execWithdraw (s : State) : Host.Outcome State Fault Refusal := .next (s.onLive fun h => h.withdraw)

/-- WITHDRAW_RETURN: REQ becomes 0. -/
def Hw.withdrawReturn (h : Hw) : Hw :=
  if h.bit .withdrawCtl Fld.withdrawCtl_req then
    ((h.setFld .withdrawCtl Fld.withdrawCtl_req 0).setFld .withdrawCtl Fld.withdrawCtl_state 0).chipVent 2
  else h

def execWithdrawReturn (s : State) : Host.Outcome State Fault Refusal := .next (s.onLive fun h => h.withdrawReturn)

/-- WITHDRAW_NOTICE_REPEAT. -/
def Hw.withdrawRepeat (h : Hw) : Hw :=
  if h.withdrawState = 1 ∧ h.err.noticeAt + 100 * slotsUs ≤ h.slot 0 then
    Hw.chipVent { h with err := { h.err with noticeAt := h.slot 0 } } 0
  else h

def execWithdrawNoticeRepeat (s : State) : Host.Outcome State Fault Refusal := .next (s.onHw fun h => h.withdrawRepeat)

/-- The copy waits where R341 looks for frames; a frame on the wire, or of the chip's own in its block, stands in none of those places. -/
def Held.remains (x : Held) : Bool := x.copies.any fun c => c.spot != .wire && !(c.spot == .landing && x.inPort.isNone)

/-- WITHDRAW_EMPTY: no frame remains in a landing zone, queue, spill region, floor path or egress staging, and none but link-local and PTP
frames has come for QUIET_US. -/
def Hw.withdrawEmpty (h : Hw) : Hw :=
  let quiet := h.err.quietFrom + slotsUs * h.fld .withdrawCtl Fld.withdrawCtl_quietUs
  if h.withdrawState = 1 ∧ h.buf.held.any Held.remains = false ∧ h.buf.taken.isEmpty = true ∧ quiet ≤ h.slot 0 then
    ((h.setFld .withdrawCtl Fld.withdrawCtl_state 2).chipVent 1).record { code := 0x0704, die := 8, unit := 0, d0 := 2 }
  else h

def execWithdrawEmpty (s : State) : Host.Outcome State Fault Refusal := .next (s.onHw fun h => h.withdrawEmpty)

/-- A BAR0 write of WITHDRAW_CTL: a QUIET_US of 0 leaves the register unchanged. (DEDUCED log entry 51.) -/
def Hw.withdrawWrite (h : Hw) (a : Acc) (v : W64) : Hw :=
  let w := h.writeWord .withdrawCtl a v
  if Fld.withdrawCtl_quietUs.get w = 0 then h
  else
    let h := h.setFld .withdrawCtl Fld.withdrawCtl_quietUs (Fld.withdrawCtl_quietUs.get w)
    if Fld.withdrawCtl_req.get w = 1 then h.withdraw else h.withdrawReturn

end Sys2Proof.Machine
end

