-- ==== Sys2Proof/Machine/Reset.lean ====
section
/-! DEFINITION. Resets at every scope, power-up and removal, life-cycle wipes, sleep and park, boot verification, and the board ports:
I3C and test access (R277, R340, R348 to R353, R361, R364 to R377, R384, R387 to R390). -/

namespace Sys2Proof.Machine

/-! ### Registers at a reset (R10) -/

/-- The bits that a chip reset clears: those of every kind but POR. -/
def Reg.chipMask (r : Reg) : W64 := r.clr .chip ||| r.clr .dp ||| r.clr .qd ||| r.clr .port ||| r.clr .mgmt ||| r.clr .flr
/-- The bits that a power-on reset clears. -/
def Reg.porMask (r : Reg) : W64 := r.chipMask ||| r.clr .por
/-- The bits that a data-plane reset clears. -/
def Reg.dpMask (r : Reg) : W64 := r.clr .dp ||| r.clr .qd ||| r.clr .port

/-- Every register with the bits of `mask` at their Reset value. -/
def RegMap.cleared (m : RegMap) (mask : Reg → W64) : RegMap :=
  m.foldr (fun x l => l.set x.1 ((x.2 &&& ~~~mask x.1) ||| (x.1.reset &&& mask x.1))) []

/-! ### What a reset interrupts (R372) -/

/-- The running calibration command is lost; each of its records is whole, old or new. (DESIGN CHOICE log entry 3.) -/
def State.calLost (s : State) : State :=
  match s.hw.lgt.cal with
  | none => s
  | some (cmd, _) =>
    let x := putCals false (decide (cmd % 2 = 0)) s.hw.lgt.calWrites (s.hw, s.nv)
    { s with hw := x.1, nv := x.2 }

/-- A commit that was writing the boot flash leaves it as it was, or damaged. (DESIGN CHOICE log entry 3, DESIGN CHOICE log entry 56.) -/
def State.commitLost (s : State) : State :=
  if s.hw.hst.long.any fun l => l.op == .fwCommit && l.tested then
    let (v, h) := s.hw.draw
    { s with hw := h, nv := if v.getLsbD 0 then s.nv else { s.nv with flash := [0], flashSvn := 0 } }
  else s

/-- Widths of the reset kinds in LAST_KIND. (DEDUCED log entry 53.) -/
def kindWidth (k : Nat) : Nat := if k = 1 then 3 else if 2 ≤ k ∧ k ≤ 4 then 2 else if k = 5 then 1 else 0

/-- LAST_KIND keeps the widest kind, the latest of equally wide ones. (DEDUCED log entry 53.) -/
def Nv.noteKind (v : Nv) (k : Nat) : Nv := if kindWidth k < kindWidth v.lastKind then v else { v with lastKind := k }
def Nv.noteReset (v : Nv) : Nv := { v with chipResets := min (v.chipResets + 1) 65535 }

/-! ### Power-on and chip reset (R364, R366, R368) -/

/-- A chip reset runs, or POR_L is held. -/
def Hw.chipBusy (h : Hw) : Bool := h.pwr.porHeld || (!h.dpReady && !h.bit .resetStatus Fld.resetStatus_dpBusy)

/-- The volatile part right after a power-on or chip reset has begun. Kept: what stands outside the package (the PCIe link, temperatures,
pins), the intermittent outcomes (LANE_SWEEP is not cleared), and the key of a PROVISION in work. (DEDUCED log entry 49.) -/
def Hw.wiped (h : Hw) (por : Bool) : Hw :=
  { Hw.reset with
    regs := RegMap.cleared h.regs (if por then Reg.porMask else Reg.chipMask)
    gon := { Gon.reset with hot := h.gon.hot }
    hst := { Hst.reset with busMaster := h.hst.busMaster && !por, pcieUp := h.hst.pcieUp && !por, perst := h.hst.perst,
                            d3hot := h.hst.d3hot && !por, rrs := h.rrsNow || por, cfg := if por then [] else h.hst.cfg }
    err := { Err.reset with intermit := h.err.intermit.map fun x => (x.1, x.2 - (h.tim.local_ : Int)) }
    pwr := { Pwr.reset with porHeld := por, thermTrip := h.pwr.thermTrip && !por, tjDie := h.pwr.tjDie, tjBefore := h.pwr.tjBefore,
                            tStack := h.pwr.tStack, tStackBefore := h.pwr.tStackBefore, pkgPower := h.pwr.pkgPower, winFlags := h.pwr.winFlags, winLc := h.pwr.winLc,
                            ownerIn := h.pwr.ownerIn }
    out := h.out, freeCtr := h.freeCtr }

/-- The state of the chip as it is after a removal of power: only OTP, the stores and the boot flash outlast it (R373, R384). (DEDUCED log entry 53.) -/
def State.powerOff (s : State) : State :=
  let s := s.calLost.commitLost
  { s with hw := { Hw.reset with out := s.hw.out, freeCtr := s.hw.freeCtr }
           nv := { s.nv with laneFence := 0, laneSweep := [], laneHist := [], lastKind := 0, chipResets := 0 }
           mem := ⟨[], []⟩ }

/-- Every live calibration value comes from the store again. (DESIGN CHOICE log entry 26.) -/
def Hw.reloadAll (h : Hw) (v : Nv) : Hw :=
  Hw.reloadFloorLanes (Hw.reloadLanes { h with lgt := { h.lgt with liveLane := [], liveFloor := [] } } v (v.calLane.map (·.1))) v
    (v.calFloor.map (·.1))

/-- POR_L is asserted. -/
def State.porReset (s : State) : State :=
  if s.hw.pwr.porHeld then s
  else
    let s := s.calLost.commitLost
    { s with hw := s.hw.wiped true, nv := (s.nv.noteKind 1).noteReset, mem := ⟨[], []⟩ }

/-- POWER_ON_RESET. -/
def execPowerOnReset (c : PorCause) (s : State) : Host.Outcome State Fault Refusal :=
  .next (match c with
    | .power => s.powerOff
    | .pin => s.porReset)

/-- POWER_REMOVAL. -/
def execPowerRemoval (s : State) : Host.Outcome State Fault Refusal := .next s.powerOff

/-- A root-of-trust failure (R348): chip FATAL cause 20; nothing boots. (DEDUCED log entry 49.) -/
def State.rotFailure (s : State) : State :=
  s.onHw fun h => let h := h.chipFatal s.nv 20; { h with mgt := { h.mgt with booting := false } }

def allOnes57 : List Byte := List.replicate 57 0xff

/-- The wipe of a life-cycle change starts (R351, R352): the key store is emptied. -/
def State.lcWipe (s : State) : State :=
  (s.onNv fun v => { v with keys := [] }).onHw fun h => { h with pwr := { h.pwr with lcWipe := true } }

/-- The boot ROM finds a START fuse without its DONE fuse (R353). -/
def State.lcResume (s : State) : State :=
  let o := s.nv.otp
  if o.lc.start ≠ 1 ∨ o.seed0Valid = true ∨ o.seed1Valid = true then s.lcWipe
  else if o.seed0 = allOnes57 then s.rotFailure
  else (s.onNv fun v => { v with otp := { v.otp with seed0 := allOnes57 } }).lcWipe

/-- The first steps of a boot (R348, R353, R368): random numbers, OTP and self-tests, and a pending life-cycle change. (DESIGN CHOICE log entry 4.) -/
def State.bootStart (s : State) (otpOk : Bool) : State :=
  let s := s.onHw fun h =>
    let (a, h) := h.drawNz
    let (b, h) := h.drawNz
    (h.setReg .tetherSession a).setReg .lcNonce b
  let s := s.onHw fun h => h.reloadAll s.nv
  if !otpOk then s.rotFailure
  else if s.nv.transPending then s.lcResume
  else if s.nv.inService && s.nv.identity.isNone then s.rotFailure
  else s

/-- POR_RELEASE: SPARE_LEFT is read from the stacks. (DESIGN CHOICE log entry 1, DESIGN CHOICE log entry 3.) -/
def execPorRelease (otpOk : Bool) (s : State) : Host.Outcome State Fault Refusal :=
  .next (if !s.hw.pwr.porHeld then s
    else
      let s := s.onHw fun h => (List.range 12).foldl (fun h k =>
        let (v, h) := h.draw
        h.setFld (.hbmStatus k) Fld.hbmStatus_spareLeft (v.toNat % 256)) { h with pwr := { h.pwr with porHeld := false } }
      s.bootStart otpOk)

/-- A chip reset with its LAST_KIND code. (DEDUCED log entry 53.) -/
def State.chipReset (s : State) (kind : Nat) : State :=
  let s := s.calLost.commitLost
  State.bootStart { s with hw := s.hw.wiped false, nv := (s.nv.noteKind kind).noteReset, mem := ⟨[], []⟩ } true

/-- A life-cycle change from step 2 of R351 on: chip reset, START fuse, wipe. -/
def State.lcBegin (s : State) (target : Nat) : State :=
  ((s.chipReset 4).onNv fun v => { v with otp := { v.otp with lc := { v.otp.lc with start := target } } }).lcWipe

/-- Steps 5 and 6 of R351. The owner key given to a PROVISION whose key was lost with power is unknown: its digest is free bytes. (DESIGN CHOICE log entry 4, DESIGN CHOICE log entry 55.) -/
def State.lcFinish (s : State) : State :=
  let t := s.nv.otp.lc.start
  let done (v : Nv) : Nv := { v with otp := { v.otp with lc := { v.otp.lc with done := t } } }
  if t = 1 then
    let o := s.nv.otp
    let (seed, h) := Hw.drawBytes 57 s.hw
    let second := decide (o.seed0 = allOnes57)
    let o := if o.seed0Valid ∨ o.seed1Valid then o
      else if second then { o with seed1 := seed, seed1Valid := true } else { o with seed0 := seed, seed0Valid := true }
    let (dig, h) := match h.pwr.ownerIn with
      | some k => (digest64 k, h)
      | none => Hw.drawBytes 64 h
    let owner := match o.owner with
      | d :: l => (if d.valid then d else { d with bytes := dig, valid := true }) :: l
      | [] => []
    { s with hw := { h with pwr := { h.pwr with ownerIn := none } }, nv := done { s.nv with otp := { o with owner := owner } } }
  else if t = 3 then
    s.onNv fun v => done { v with otp := { v.otp with
      seed0 := allOnes57, seed1 := allOnes57,
      owner := v.otp.owner.map fun d => { d with revoked := true } } }
  else s.onNv done

/-! ### Data-plane reset (R364, R369) -/

/-- A running long operation of the host ends ABORTED. -/
def Hw.abortLong (h : Hw) (p : LongOp → Bool) : Hw :=
  let gone := h.hst.long.filter fun l => p l.op
  let h := { h with hst := { h.hst with long := h.hst.long.filter fun l => !p l.op } }
  gone.foldl (fun h l =>
    match h.hst.started.find? fun d => d.ix == l.ix with
    | some d => h.finish d 0x06 l.progress
    | none => h) h

/-- The copies of C-die `c` are lost; those of the host end ABORTED. (DEDUCED log entry 53.) -/
def Hw.abortCopies (h : Hw) (c : Nat) : Hw :=
  let l := h.gon.copies.get c
  let h := { h with gon := { h.gon with copies := h.gon.copies.set c [] } }
  l.foldl (fun h d => if d.isHost then h.endCopy c d (.host 0x06) else h) h

/-- Every port and emitter of an octet is dark until ENABLE = 1 is written again (R367). (DEDUCED log entry 53.) -/
def Hw.unreadyOctets (h : Hw) (l : List Nat) : Hw :=
  { h with pwr := { h.pwr with unready := (h.pwr.unready.filter fun o => !l.contains o) ++ l } }

/-- DATA_PLANE_RESET. The agents run on with their rails (R381); a quadrant that leaves its park has the boot voltage again. (DESIGN CHOICE log entry 29, DEDUCED log entry 53.) -/
def State.dpReset (s : State) : State :=
  let octets := List.range 128
  let s := s.onHw fun h =>
    let vP (q : Nat) : Nat := if h.parked q || h.parkReq q then 300 else h.pwr.vP.get q
    let vC (q : Nat) : Nat := if h.parked q || h.parkReq q then 260 else h.pwr.vC.get q
    let gens : List (BitVec 16 × BitVec 8) := h.coll.bridles.map fun b => (b.group, b.gen)
    let h : Hw := (h.setFld .hubState Fld.hubState_dpReady 0).endBridles s.nv fun b => (0, b.seqLow.toNat + 10 * 2 ^ 32)
    let h : Hw := { h with coll := { h.coll with lastGen := gens.foldl (fun l g => aput g.1 g.2 l) h.coll.lastGen, absent := [] } }
    let h : Hw := [0, 1, 2, 3].foldl (fun h q => h.dieDiscard q) h
    let h : Hw := octets.foldl (fun h o => h.darkPorts o) h
    let h : Hw := ([0, 1, 2, 3].foldl (fun h c => h.abortCopies c) h).abortLong fun o => o == .hbmWipe || o == .dirRehash || o == .counterSnapshot
    let h : Hw := h.reloadAll s.nv
    let h : Hw := { h with regs := RegMap.cleared h.regs Reg.dpMask }
    let h : Hw := { h with fwd := { h.fwd with learnQ := Four.all [] },
                           buf := { h.buf with filter := Four.all [], voq := [], samples := Four.all 0, spillNow := Four.all 0 },
                           egr := ⟨[], []⟩,
                           gon := { h.gon with dir := [], recs := [], atomQ := [], planted := [], fabricTurn := Four.all false },
                           lgt := { h.lgt with links := [], handover := [], seenLevel := [], noSpareAt := [] },
                           err := { h.err with probes := Four.all 0 },
                           pwr := { h.pwr with vP := ⟨vP 0, vP 1, vP 2, vP 3⟩, vC := ⟨vC 0, vC 1, vC 2, vC 3⟩ } }
    (h.unreadyOctets octets).setFld .resetStatus Fld.resetStatus_dpBusy 1
  { (s.onNv fun v => v.noteKind 5) with mem := ⟨[], []⟩ }

/-! ### Quadrant reset (R370) -/

def Hw.clearBit (h : Hw) (r : Reg) (i : Nat) : Hw := h.setReg r (h.reg r &&& ~~~(BitVec.ofNat 64 (2 ^ i)))
def Hw.setBit (h : Hw) (r : Reg) (i : Nat) : Hw := h.setReg r (h.reg r ||| BitVec.ofNat 64 (2 ^ i))

/-- Path `k` starts or ends at P-die `q`. -/
def pathOf (q k : Nat) : Bool := decide (k < 12) && (k / 3 == q || pathDie k == q)

/-- Every group of path `k` whose ring is locked carries traffic. (DESIGN CHOICE log entry 27.) -/
def Hw.widePath (h : Hw) (k : Nat) : Hw :=
  h.setFld (.floorPath k) Fld.floorPath_upMask (((List.range (pathWidth k)).filter fun g => (k, g) ∉ h.lgt.floorOut).map fun g => 2 ^ g).sum

/-- The floor paths of quadrant `q` are wide again, unless the quadrant at the other end is parked. -/
def Hw.widePaths (h : Hw) (q : Nat) : Hw :=
  ((List.range 12).filter fun k => pathOf q k && !h.pathNarrow k).foldl (fun h k => h.widePath k) h

/-- The registers of quadrant `q` that a quadrant reset clears, with its bits in hub registers. -/
def Hw.clearQuad (h : Hw) (q : Nat) : Hw :=
  let mine (r : Reg) : Bool := r.quad == some q
  let h : Hw := { h with regs := RegMap.cleared h.regs fun r => if mine r then r.clr .qd ||| r.clr .port else 0 }
  let h : Hw := ((h.clearBit .errStatus q).clearBit .quadPark q).clearBit .powerStatus q
  (List.range 32).foldl (fun h i => h.clearBit (.octetSleep (q / 2)) (32 * (q % 2) + i)) h

/-- The live values of the quadrant's lanes, and of the floor lanes that start or end in it, come from the store again.
(DESIGN CHOICE log entry 26.) -/
def Hw.reloadQuad (h : Hw) (v : Nv) (q : Nat) : Hw :=
  let mine (k : Nat) : Bool := pathOf q k || (decide (12 ≤ k) && (k - 12) / 2 == q)
  (h.reloadLanes v ((List.range 256).map (256 * q + ·))).reloadFloorLanes v
    ((List.range 1600).filter fun j => mine (floorPlace j).1)

/-- The quadrant of a meter. -/
def BucketRef.quad : BucketRef → Nat
  | .shaper n _ => n / 256
  | .policer q _ => q

/-- QUADRANT_RESET. (DESIGN CHOICE log entry 29, DEDUCED log entry 53.) -/
def State.quadReset (s : State) (q : Nat) : State :=
  let octets := (List.range 32).map (32 * q + ·)
  let wasParked := s.hw.parked q
  let s := s.onHw fun h =>
    let h : Hw := (h.setBit .resetStatus (1 + q)).bridlesLoseQuad q
    let h : Hw := { h with coll := { h.coll with bridles := h.coll.bridles.map fun (b : Bridle) => { b with slots := b.slots.set q 0 } } }
    let h : Hw := octets.foldl (fun h o => h.darkPorts o) (h.dieDiscard q)
    let h : Hw := (h.abortCopies q).clearQuad q
    let h : Hw := { h with fwd := { h.fwd with learnQ := h.fwd.learnQ.set q [] },
                           buf := { h.buf with filter := h.buf.filter.set q [], samples := h.buf.samples.set q 0,
                                               sampledAt := h.buf.sampledAt.set q 0,
                                               spillNow := h.buf.spillNow.set q 0 },
                           egr := { sched := h.egr.sched.filter fun x => x.1 / 256 != q,
                                    buckets := h.egr.buckets.filter fun x => x.1.quad != q },
                           gon := { h.gon with rowCe := h.gon.rowCe.filter fun x => x.1.pc.val / 96 != q },
                           lgt := { h.lgt with links := h.lgt.links.filter fun x => x.1 / 256 != q,
                                               handover := h.lgt.handover.filter fun x => x.1 / 36 != q,
                                               seenLevel := h.lgt.seenLevel.filter fun x => x.1 / 36 != q,
                                               noSpareAt := h.lgt.noSpareAt.filter fun x => x.1 / 36 != q },
                           err := { h.err with quadQ := h.err.quadQ.set q [], secQ := h.err.secQ.set q [], quadSeq := h.err.quadSeq.set q 0,
                                               quadOver := h.err.quadOver.set q 0, quadTold := h.err.quadTold.set q 0, rateNo := h.err.rateNo.set q 0,
                                               probes := h.err.probes.set q 0, tjHist := h.err.tjHist.set q [] },
                           pwr := { h.pwr with vP := h.pwr.vP.set q 300, vC := h.pwr.vC.set q 260, nackP := h.pwr.nackP.set q 0,
                                               nackC := h.pwr.nackC.set q 0 } }
    ((if wasParked then h.widePaths q else h).reloadQuad s.nv q).unreadyOctets octets
  s.loseQuad q

/-! ### Port reset (R371) -/

/-- A frame in the landing zone of the octet is discarded as lost with its link. -/
def Hw.landingLoss (h : Hw) (o : Nat) : Hw :=
  let h : Hw := h.buf.held.foldl (fun h x =>
    match x.inPort with
    | none => h
    | some p => if p / 8 = o ∧ (x.copies.any fun c => c.spot == .landing) = true then
        ((h.count (portDie p) 0x034 p 1).sampleHeld x none 8 0).dropFrame x.id else h) h
  let mine := h.buf.taken.filter fun x => x.port / 8 == o
  mine.foldl (fun h x => (h.count (portDie x.port) 0x034 x.port 1).takenEnd x [] 8)
    { h with buf := { h.buf with taken := h.buf.taken.filter fun x => x.port / 8 != o } }

/-- The schedulers of an octet's ports have virtual time and tags 0, and their shapers are full again (R114, R120). -/
def Hw.freshSched (h : Hw) (o : Nat) : Hw :=
  let mine (r : BucketRef) : Bool := match r with
    | .shaper n _ => n / 8 == o
    | .policer _ _ => false
  { h with egr := { sched := h.egr.sched.map fun x => if x.1 / 8 = o then (x.1, { x.2 with comm := Band.zero, exc := Band.zero }) else x
                    buckets := h.egr.buckets.filter fun x => !mine x.1 } }

/-- PORT_RESET. (DEDUCED log entry 53.) -/
def Hw.portReset (h : Hw) (v : Nv) (o : Nat) : Hw :=
  let slept := h.asleep o
  let h : Hw := (h.landingLoss o).darkPorts o
  let h : Hw := { h with regs := RegMap.cleared h.regs fun r => if r.octet = some o then r.clr .port else 0 }
  let h : Hw := (h.clearBit (.octetSleep (o / 64)) (o % 64)).reloadOctet v o
  let h : Hw := { h with lgt := { h.lgt with links := h.lgt.links.filter fun x => x.1 / 8 != o } }
  let h : Hw := (h.freshSched o).unreadyOctets [o]
  if slept && h.bit (.octetCfg o) Fld.octetCfg_enable && h.quadOk (o / 32) && !h.parked (o / 32) then h.lightOctet v o else h

/-! ### RESET_CTL (R365) -/

/-- The scope of a RESET_CTL request is in reset, or lies inside one that is. -/
def Hw.scopeBusy (h : Hw) (kind target : Nat) : Bool :=
  h.chipBusy || (decide (2 ≤ kind) && h.bit .resetStatus Fld.resetStatus_dpBusy) ||
    (kind == 3 && h.qdBusy target) || (kind == 4 && h.qdBusy (target / 32))

/-- A reset request with a good GUARD, or a refusal. -/
def State.resetRequest (s : State) (kind target : Nat) : State :=
  let target := if kind = 3 then target % 128 else target
  let ok := kind = 1 ∨ kind = 2 ∨ (kind = 3 ∧ target < 4) ∨ (kind = 4 ∧ target < 128)
  if ¬ok ∨ s.hw.scopeBusy kind target = true then s.onHw fun h => h.setFld .resetStatus Fld.resetStatus_cmdErr 1
  else
    match kind with
    | 1 => s.chipReset 3
    | 2 => s.dpReset
    | 3 => s.quadReset target
    | _ => s.onHw fun h => h.portReset s.nv target

/-- A BAR0 or REG_ACCESS write of RESET_CTL. (DEDUCED log entry 16.) -/
def State.resetCtlWrite (s : State) (a : Acc) (v : W64) : State :=
  let w := accWord a 0 v &&& accMask a
  if Fld.resetCtl_guard.get w = 0xd1e5 then s.resetRequest (Fld.resetCtl_kind.get w) (Fld.resetCtl_target.get w)
  else s.onHw fun h => h.setFld .resetStatus Fld.resetStatus_cmdErr 1

/-- CHIP_RESET: an edge of CHIP_RST_L while a chip reset runs or POR_L is held has no effect; a life-cycle change resets the chip while its
START fuse stands without DONE. -/
def execChipReset (c : ChipCause) (s : State) : Host.Outcome State Fault Refusal :=
  .next (match c with
    | .pin => if s.hw.chipBusy then s else s.chipReset 2
    | .resetCtl => if s.hw.pwr.porHeld then s else s.resetRequest 1 0
    | .lifeCycle => if s.hw.pwr.porHeld || !s.nv.transPending then s else s.chipReset 4)

def execDataPlaneReset (s : State) : Host.Outcome State Fault Refusal := .next (if s.hw.pwr.porHeld then s else s.resetRequest 2 0)
def execQuadrantReset (q : Quad) (s : State) : Host.Outcome State Fault Refusal := .next (if s.hw.pwr.porHeld then s else s.resetRequest 3 q)
def execPortReset (o : Octet) (s : State) : Host.Outcome State Fault Refusal := .next (if s.hw.pwr.porHeld then s else s.resetRequest 4 o)

/-! ### The end of a wipe (R364, R368, R370) -/

/-- The reset of quadrant `q` ends: replicas, and the time base, come from another quadrant. -/
def Hw.quadReady (h : Hw) (q : Nat) : Hw :=
  let other := ([0, 1, 2, 3].find? fun k => k != q && !h.qdBusy k).getD ((q + 1) % 4)
  let h := h.copyReplicas q other
  let h := { h with coll := { h.coll with absent := h.coll.absent.filter fun x => x.2 != q } }
  let h := { h with tim := { h.tim with slot := h.tim.slot.set q (h.slot other) } }
  h.clearBit .resetStatus (1 + q)

/-- RESET_WIPE_COMPLETE: the widest reset that runs ends; of several quadrants, the lowest. (DESIGN CHOICE log entry 27.) -/
def State.wipeDone (s : State) : State :=
  if s.hw.pwr.porHeld then s
  else if s.hw.chipBusy then
    let s := if s.hw.pwr.lcWipe then s.lcFinish else s
    s.onHw fun h =>
      let h := (List.range 20).foldl (fun h k => h.widePath k) { h with pwr := { h.pwr with lcWipe := false } }
      h.setFld .hubState Fld.hubState_dpReady 1
  else if s.hw.bit .resetStatus Fld.resetStatus_dpBusy then
    s.onHw fun h => (h.setFld .resetStatus Fld.resetStatus_dpBusy 0).setFld .hubState Fld.hubState_dpReady 1
  else
    match (List.range 4).find? s.hw.qdBusy with
    | some q => s.onHw fun h => h.quadReady q
    | none => s

def execResetWipeComplete (s : State) : Host.Outcome State Fault Refusal := .next s.wipeDone

/-! ### Sleep (R374) -/

def Hw.powerErr (h : Hw) : Hw := h.setFld .powerStatus Fld.powerStatus_cfgErr 1

/-- What OCTET_SLEEP asks of an octet. (DEDUCED log entry 54.) -/
def Hw.maySleep (h : Hw) (o : Nat) : Bool :=
  ((h.octetPorts o).all fun n =>
    h.linkState n == 0 ||
      (h.ventState n == 2 && (match h.circuitOn n with
        | some i => h.circuitState i == 3 || h.circuitState i == 5
        | none => true))) &&
    (h.handoverOf (primaryOf o)).isNone

/-- OCTET_SLEEP. -/
def Hw.octetSleep (h : Hw) (v : Nv) (o : Nat) : Hw :=
  if h.asleep o then h
  else if h.maySleep o then ((h.setBit (.octetSleep (o / 64)) (o % 64)).darkPorts o).darkOctet v o
  else h.powerErr

/-- OCTET_WAKE. -/
def Hw.octetWake (h : Hw) (v : Nv) (o : Nat) : Hw :=
  if !h.asleep o then h
  else
    let h := h.clearBit (.octetSleep (o / 64)) (o % 64)
    if h.bit (.octetCfg o) Fld.octetCfg_enable && h.quadOk (o / 32) && !h.parked (o / 32) && !h.pwr.unready.contains o then
      (h.octetPorts o).foldl (fun h n => h.wakePort v n) (h.lightOctet v o)
    else h

def execOctetSleep (o : Octet) (s : State) : Host.Outcome State Fault Refusal := .next (s.onLive fun h => h.octetSleep s.nv o)
def execOctetWake (o : Octet) (s : State) : Host.Outcome State Fault Refusal := .next (s.onLive fun h => h.octetWake s.nv o)

/-- A write of OCTET_SLEEP[i]: each bit is a request of its own. -/
def Hw.octetSleepWrite (h : Hw) (v : Nv) (i : Nat) (a : Acc) (x : W64) : Hw :=
  let w := h.writeWord (.octetSleep i) a x
  (List.range 64).foldl (fun h j => if w.getLsbD j then h.octetSleep v (64 * i + j) else h.octetWake v (64 * i + j)) h

/-! ### Park (R375) -/

/-- What a park asks of a quadrant; one in reset is refused as well. (DEDUCED log entry 54.) -/
def Hw.mayPark (h : Hw) (q : Nat) : Bool :=
  (((List.range 32).map (32 * q + ·)).all fun o => h.asleep o || !h.bit (.octetCfg o) Fld.octetCfg_enable) &&
    !(h.coll.bridles.any fun b => b.dies.contains q || (b.members.any fun m => portDie m.port == q) ||
        (b.parentEn && portDie b.parentPort == q)) &&
    h.spillUsed q == 0 && (h.gon.copies.get q).isEmpty && !h.qdBusy q && !h.chipBusy

/-- QUADRANT_PARK. -/
def Hw.quadPark (h : Hw) (q : Nat) : Hw :=
  if h.parkReq q then h else if h.mayPark q then h.setBit .quadPark q else h.powerErr

/-- QUADRANT_UNPARK. -/
def Hw.quadUnpark (h : Hw) (q : Nat) : Hw := h.clearBit .quadPark q

def execQuadrantPark (q : Quad) (s : State) : Host.Outcome State Fault Refusal := .next (s.onLive fun h => h.quadPark q)
def execQuadrantUnpark (q : Quad) (s : State) : Host.Outcome State Fault Refusal := .next (s.onLive fun h => h.quadUnpark q)

/-- A write of QUAD_PARK. -/
def Hw.quadParkWrite (h : Hw) (a : Acc) (x : W64) : Hw :=
  let w := h.writeWord .quadPark a x
  (List.range 4).foldl (fun h q => if w.getLsbD q then h.quadPark q else h.quadUnpark q) h

/-- Path `k` keeps one group, its lowest. (DESIGN CHOICE log entry 27.) -/
def Hw.narrowPath (h : Hw) (k : Nat) : Hw :=
  let m := h.fld (.floorPath k) Fld.floorPath_upMask
  match (List.range 16).find? fun g => Nat.testBit m g with
  | some g => h.setFld (.floorPath k) Fld.floorPath_upMask (2 ^ g)
  | none => h

/-- PARK_COMPLETE: rails at retention, floor paths narrow, PARKED. -/
def Hw.parkDone (h : Hw) (q : Nat) : Hw :=
  if h.parked q || !h.parkReq q then h
  else
    let h := ((List.range 12).filter (pathOf q)).foldl (fun h k => h.narrowPath k) h
    let h := { h with pwr := { h.pwr with vP := h.pwr.vP.set q railLow, vC := h.pwr.vC.set q railLow } }
    h.setBit .powerStatus q

def execParkComplete (q : Quad) (s : State) : Host.Outcome State Fault Refusal := .next (s.onHw fun h => h.parkDone q)

/-- UNPARK_COMPLETE: the steps are reversed, and the Sweep periods of the quadrant start again. (DESIGN CHOICE log entry 29.) -/
def Hw.unparkDone (h : Hw) (q : Nat) : Hw :=
  if !h.parked q || h.parkReq q then h
  else
    let h := (h.clearBit .powerStatus q).widePaths q
    let fresh := ((List.range 16).map (16 * q + ·)).map fun k => (k, h.tim.local_)
    { h with pwr := { h.pwr with vP := h.pwr.vP.set q 300, vC := h.pwr.vC.set q 260 },
             err := { h.err with passAt := if h.gliuk then fresh ++ h.err.passAt.filter fun x => x.1 / 16 != q else h.err.passAt } }

def execUnparkComplete (q : Quad) (s : State) : Host.Outcome State Fault Refusal := .next (s.onHw fun h => h.unparkDone q)

/-! ### Verification of an image (R361, R362) -/

/-- Steps 2, 4, 5 and 7 of R361 on a header at the start of `l`, with its magic, context string and the bytes it may occupy. -/
def headerOk (v : Nv) (magic limit : Nat) (context : String) (l : List Byte) : Bool :=
  let n := getBE l 20 4
  let pub := slice l 96 57
  getBE l 0 4 == magic && getBE l 4 2 == 1 && getBE l 8 2 == 0x1024 && decide (512 + n ≤ min limit l.length) &&
    digest64 pub == v.otp.vendorDigest && ed448Verify pub (ctxBytes context) (slice l 0 160) (slice l 160 114) &&
    digest64 (slice l 512 n) == slice l 32 64

/-- The shape check of step 2 alone. -/
def imageShape (l : List Byte) : Bool :=
  let n := getBE l 20 4
  let off := getBE l 24 4
  getBE l 0 4 == 0x4f58474b && getBE l 4 2 == 1 && getBE l 8 2 == 0x1024 && decide (512 + n ≤ 4194304) && decide (512 + n ≤ l.length) &&
    (off == 0 || (decide (512 + n ≤ off) && decide (off + getBE l 28 4 ≤ l.length)))

/-- Why FW_COMMIT refuses an image; none when every step passes. -/
def imageFault (v : Nv) (l : List Byte) : Option Nat :=
  let off := getBE l 24 4
  if !imageShape l then some 0x60
  else if !(l.getD 6 0).getLsbD v.lcState then some 0x07
  else if headerOk v 0x4f58474b 4194304 "Oslux Gliuk" l && decide (v.otp.minSvn ≤ getBE l 16 4) &&
      (off == 0 || headerOk v 0x4f585357 (getBE l 28 4) "Oslux Sweep" (l.drop off)) then none
  else some 0x60

/-! ### Boot verification (R277, R361) -/

/-- Checks 2 to 7 of R361 on what the boot ROM found. (DESIGN CHOICE log entry 56.) -/
def imageOk (v : Nv) (i : ImageHdr) : Bool :=
  i.magicOk && i.lcMask.getLsbD v.lcState && i.vendorOk && i.sigOk && decide (v.otp.minSvn ≤ i.svn.toNat) && i.bodyOk

/-- FW_DIGEST and PACK_DIGEST: the digest of a header's bytes 0 to 273 (R361). -/
def headerDigest (l : List Byte) : List Byte := digest64 (slice l 0 274)

/-- What the boot ROM finds on an image: the header and the outcome of each check are those of the bytes in the boot flash where an image
was written there; the pack's sections and gates, whose layout the spec does not give, and an image from before the model's time are the
operand's. (DESIGN CHOICE log entry 56.) -/
def Nv.bootImage (v : Nv) (i : ImageHdr) : ImageHdr :=
  if v.flash.isEmpty then i
  else
    let l := v.flash
    let n := getBE l 20 4
    let off := getBE l 24 4
    let pack := l.drop off
    let pub := slice l 96 57
    { magicOk := imageShape l, lcMask := l.getD 6 0, vendorOk := digest64 pub == v.otp.vendorDigest,
      sigOk := ed448Verify pub (ctxBytes "Oslux Gliuk") (slice l 0 160) (slice l 160 114), svn := BitVec.ofNat 32 (getBE l 16 4),
      bodyOk := digest64 (slice l 512 n) == slice l 32 64,
      packOk := if off = 0 then none else some (headerOk v 0x4f585357 (getBE l 28 4) "Oslux Sweep" pack),
      ver := BitVec.ofNat 32 (getBE l 12 4), packVer := BitVec.ofNat 32 (getBE pack 12 4), sections := i.sections, gates := i.gates,
      hdrDigest := headerDigest l, packDigest := headerDigest pack }

/-- BOOT_VERIFICATION_COMPLETE: the cores are released, with the pack or the base pack, or recovery is entered. (DESIGN CHOICE log entry 56.) -/
def Hw.bootVerified (h : Hw) (v : Nv) (img : Option ImageHdr) : Hw :=
  if !h.mgt.booting || h.pwr.porHeld || v.transPending then h
  else
    match img with
    | none => h.recover
    | some i =>
      if !imageOk v i then h.recover
      else
        let h := if i.packOk = some false then
            h.record { code := 0x0505, die := 8, unit := 0, d0 := i.packVer.setWidth 64 }
          else h
        let pack := i.packOk = some true
        let (free, h) := h.draw
        { h with
          mgt := { h.mgt with booting := false, bootFrom := some h.tim.local_, imgVer := i.ver, imgSvn := i.svn, imgHdr := i.hdrDigest,
                              imgPackVer := if pack then i.packVer else 0,
                              imgSections := if pack then i.sections else free.setWidth 10,
                              imgPack := if pack then i.packDigest else List.replicate 64 0 }
          err := { h.err with gates := if pack then i.gates else [] } }

def execBootVerificationComplete (img : Option ImageHdr) (s : State) : Host.Outcome State Fault Refusal :=
  .next (s.onHw fun h => h.bootVerified s.nv (img.map s.nv.bootImage))

/-! ### The status window (R389) -/

/-- The 64 bytes of the window. (DESIGN CHOICE log entry 57.) -/
def Hw.window (h : Hw) : List Byte :=
  padTo 64 (padTo 16 (padTo 9 h.pwr.tjDie) ++ padTo 16 (padTo 12 h.pwr.tStack) ++ bytesLE 2 h.pwr.pkgPower.toNat ++ [h.pwr.winFlags, h.pwr.winLc])

/-- I3C_READ: no answer while POR_L is asserted. -/
def execI3cRead (off : BitVec 6) (s : State) : Host.Outcome State Fault Refusal :=
  .next (s.onHw fun h => if h.pwr.porHeld then h else h.emit (.i3c (h.window.drop off.toNat)))

/-- I3C_WINDOW_REFRESH. (DESIGN CHOICE log entry 57.) -/
def Hw.windowRefresh (h : Hw) (v : Nv) (tj ts : List Byte) (power : BitVec 16) : Hw :=
  if h.pwr.porHeld then h
  else
    let b (x : Bool) (k : Nat) : Nat := if x then k else 0
    let low := (List.range 4).any fun q => h.bit (.coreRate q) Fld.coreRate_rateLow
    let fatal := h.fatalChip || decide (h.fld .errStatus Fld.errStatus_fatalQ ≠ 0)
    { h with pwr := { h.pwr with
      tjBefore := h.pwr.tjDie, tjDie := (padTo 9 tj).take 9, tStack := (padTo 12 ts).take 12, tStackBefore := h.pwr.tStack, pkgPower := power,
      winFlags := BitVec.ofNat 8 (b h.pwr.thermTrip 1 + b low 2 + b fatal 4 + h.fld .powerStatus Fld.powerStatus_parked * 16),
      winLc := BitVec.ofNat 8 v.lcState } }

def execI3cWindowRefresh (tjDie tStack : List Byte) (power : BitVec 16) (s : State) : Host.Outcome State Fault Refusal :=
  .next (s.onHw fun h => h.windowRefresh s.nv tjDie tStack power)

/-! ### Test access (R350, R390) -/

/-- DEBUG_OPEN: BLANK or RETURN, with no life-cycle change pending. -/
def Nv.debugOpen (v : Nv) : Bool := (v.lcState == 0 || v.lcState == 3) && !v.transPending

def idcode (v : Nv) : Nat := v.otp.stepping.toNat % 16 * 2 ^ 28 + 0x1024 * 2 ^ 12 + 0x6e3 * 2 + 1

/-- TEST_ACCESS_OPERATION: what an open private instruction or core debug does is not in the spec; a closed one acts as BYPASS. The boundary
scan cells and the bypass bit are no state of the chip's function. (DESIGN CHOICE log entry 57.) -/
def execTestAccessOperation (op : JtagOp) (s : State) : Host.Outcome State Fault Refusal :=
  match op with
  | .bypass | .samplePreload | .extest => .next s
  | .idcode => .next (s.onHw fun h => h.emit (.jtag (idcode s.nv)))
  | .internalScan | .memoryAccess | .fuseRead | .coreDebug => if s.nv.debugOpen then .refused .privateTest else .next s

end Sys2Proof.Machine
end

