-- ==== Sys2Proof/Machine/Secure.lean ====
section
/-! DEFINITION. The root of trust: its commands, owner tokens, attestation reports, and the verification of a staged image (R344 to R347,
R351, R354 to R363). -/

namespace Sys2Proof.Machine

/-! ### Mailbox (R345) -/

/-- `n` bytes of the mailbox from offset `off`. -/
def Hw.mbox (h : Hw) (off n : Nat) : List Byte :=
  (List.range n).map fun i => BitVec.ofNat 8 ((h.reg (.secMbox ((off + i) / 8))).toNat / 2 ^ (8 * ((off + i) % 8)))

/-- Write bytes into the mailbox. -/
def Hw.setMbox (h : Hw) (off : Nat) (l : List Byte) : Hw :=
  (List.range ((off % 8 + l.length + 7) / 8)).foldl (fun h i =>
    let w := off / 8 + i
    let old := h.mbox (8 * w) 8
    let new := (List.range 8).map fun j => let k := 8 * w + j; if off ≤ k ∧ k < off + l.length then l.getD (k - off) 0 else old.getD j 0
    h.setReg (.secMbox w) (BitVec.ofNat 64 (natLE new))) h

/-- EXT_MEASURE as bytes. -/
def Hw.extMeasure (h : Hw) : List Byte := (List.range 8).flatMap fun i => bytesLE 8 (h.reg (.extMeasure i)).toNat

/-! ### Identity and owner (R346, R347, R356) -/

/-- The identity public key; none while no identity is present. -/
def Nv.idPub (v : Nv) : Option (List Byte) := v.identity.map fun k => slice (ed448Pub k) 0 57

/-- OWNER_INDEX: the last digest whose VALID fuse is blown. -/
def Nv.ownerIndex (v : Nv) : Nat := (v.otp.owner.filter (·.valid)).length - 1
/-- The digest at OWNER_INDEX, if it is valid and not revoked (OWNER_SET). -/
def Nv.ownerDigest (v : Nv) : Option (List Byte) :=
  match v.otp.owner[v.ownerIndex]? with
  | some d => if d.valid && !d.revoked then some d.bytes else none
  | none => none

/-! ### Reports (R363) -/

/-- The OTP fields in the order of R346, with the seed banks as zeros. (DESIGN CHOICE log entry 55.) -/
def Otp.bytes (o : Otp) : List Byte :=
  let lc : List Bool := [1, 2, 3].flatMap fun k => [decide (k ≤ o.lc.start), decide (k ≤ o.lc.done)]
  o.vendorDigest ++ bytesBE 8 o.serial.toNat ++ [o.stepping] ++ bytesBE 6 o.macBase.toNat ++ bytesBE 8 o.laneFused.toNat ++
    (o.emitLevel.flatMap fun l => bytesBE 2 l.toNat) ++ Config.fuseBytes 6 lc ++ List.replicate 57 0 ++ List.replicate 57 0 ++
    Config.fuseBytes 7 [o.seed0Valid, o.seed1Valid] ++
    (o.owner.flatMap fun d => d.bytes ++ Config.fuseBytes 8 [d.valid, d.revoked]) ++
    Config.fuseBytes 9 ((List.range 64).map fun i => decide (i < o.minSvn))

/-- CFG_DIGEST. -/
def State.cfgDigest (s : State) : List Byte :=
  let v := s.nv
  let slot (k : Nat) : List Byte := match aget k v.keys with
    | some b => 1 :: slice b 0 57
    | none => List.replicate 58 0
  digest64 (bytesBE 1 v.lcState ++ bytesBE 1 v.ownerIndex ++ bytesBE 1 v.otp.minSvn ++ v.ownerDigest.getD (List.replicate 64 0) ++
    (List.range 8).flatMap slot ++ s.hw.extMeasure)

/-- The signed part of a report: bytes 0 to 479. -/
def State.reportBody (s : State) (nonce : List Byte) : List Byte :=
  let v := s.nv
  let h := s.hw
  let map := bytesBE 8 v.otp.laneFused.toNat ++ bytesBE 8 v.laneFence.toNat
  [1] ++ bytesBE 1 v.lcState ++ bytesBE 2 0x1024 ++ [v.otp.stepping, 0, 0, 0] ++ bytesBE 8 v.otp.serial.toNat ++ slice nonce 0 32 ++
    bytesBE 6 h.fabSec ++ bytesBE 4 h.fabNs ++ List.replicate 6 0 ++ bytesBE 4 h.mgt.imgVer.toNat ++ bytesBE 4 h.mgt.imgSvn.toNat ++
    bytesBE 4 h.mgt.imgPackVer.toNat ++ bytesBE 1 v.otp.minSvn ++ [0, 0, 0] ++ map ++ slice h.mgt.imgHdr 0 64 ++ slice h.mgt.imgPack 0 64 ++
    s.cfgDigest ++ digest64 v.otp.bytes ++ digest64 map ++ slice (v.idPub.getD []) 0 57 ++ List.replicate 7 0

/-- A report of 594 bytes. -/
def State.report (s : State) (nonce : List Byte) : List Byte :=
  let b := s.reportBody nonce
  b ++ slice (s.nv.sign "Oslux Attest" b) 0 114

/-! ### Owner tokens (R354, R355) -/

/-- Check the token in the mailbox for a command: RESULT, 0 when it is good. (DESIGN CHOICE log entry 55.) -/
def State.tokenCheck (s : State) (cmd : Nat) : Nat :=
  let pub := s.hw.mbox 64 57
  let msg := bytesBE 1 cmd ++ bytesBE 8 s.nv.otp.serial.toNat ++ bytesBE 8 (s.hw.reg .lcNonce).toNat ++ s.hw.mbox 0 64
  if s.nv.ownerDigest ≠ some (digest64 pub) then 4
  else if ed448Verify pub (ctxBytes "Oslux Owner") msg (s.hw.mbox 128 114) then 0 else 3

/-- The unsigned form that PROVISIONED accepts for KEY_INSTALL. -/
def State.unsigned (s : State) : Bool :=
  s.nv.lcState == 1 && ((s.hw.mbox 64 57) ++ (s.hw.mbox 128 114)).all fun b => b == 0

/-! ### The commands (R357 to R360) -/

/-- A command ends with RESULT; LC_NONCE is renewed at the end of an owner-signed one. (DESIGN CHOICE log entry 4, DESIGN CHOICE log entry 55.) -/
def State.secEnd (s : State) (cmd result : Nat) : State :=
  s.onHw fun h =>
    let h := (h.setFld .secStatus Fld.secStatus_result result).setFld .secStatus Fld.secStatus_done 1
    if cmd = 3 ∨ cmd = 6 ∨ cmd = 7 ∨ cmd = 8 then let (n, h) := h.drawNz; h.setReg .lcNonce n else h

/-- States in which a command is served: a bit for each. -/
def secStates (cmd : Nat) : Nat := if cmd = 4 then 1 else if cmd = 5 then 2 else 6

/-- The command may run: not while another runs, and in its states with its GUARD. An unfinished change of state counts as none of them. (DESIGN CHOICE log entry 55.) -/
def State.secRun (s : State) (cmd guard : Nat) (f : State → State) : State :=
  if s.hw.pwr.porHeld then s
  else if s.hw.bit .secStatus Fld.secStatus_busy then s.onHw fun h => h.setFld .secStatus Fld.secStatus_ignored 1
  else if s.nv.transPending || !Nat.testBit (secStates cmd) s.nv.lcState then s.secEnd cmd 2
  else if (cmd = 4 ∨ cmd = 5 ∨ cmd = 6) ∧ guard ≠ 0x5ec1 then s.secEnd cmd 1
  else f s

/-- ATTEST. -/
def State.attest (s : State) : State := s.secRun 1 0 fun s => (s.onHw fun h => h.setMbox 0 (s.report (h.mbox 0 32))).secEnd 1 0

/-- EXTEND. -/
def State.extend (s : State) : State :=
  s.secRun 2 0 fun s =>
    let d := digest64 (s.hw.extMeasure ++ s.hw.mbox 0 64)
    (s.onHw fun h => (List.range 8).foldl (fun h i => h.setReg (.extMeasure i) (BitVec.ofNat 64 (getLE d (8 * i) 8))) h).secEnd 2 0

/-- A key slot changes: TETHER_REPLAY[k] returns to 0 (R359). -/
def State.setKey (s : State) (k : Nat) (key : Option (List Byte)) : State :=
  (s.onNv fun v => { v with keys := match key with
    | some b => aput k b v.keys
    | none => adel k v.keys }).onHw fun h => (h.setReg (.tetherReplayHigh k) 0).setReg (.tetherReplayWindow k) 0

/-- KEY_INSTALL: install or erase. -/
def State.keyInstall (s : State) : State :=
  s.secRun 3 0 fun s =>
    let t := if s.unsigned then 0 else s.tokenCheck 3
    let slot := getBE (s.hw.mbox 0 1) 0 1
    let op := getBE (s.hw.mbox 1 1) 0 1
    if t ≠ 0 then s.secEnd 3 t
    else if 7 < slot ∨ (op ≠ 1 ∧ op ≠ 2) then s.secEnd 3 5
    else (s.setKey slot (if op = 1 then some (s.hw.mbox 2 57) else none)).secEnd 3 0

/-- PROVISION. -/
def State.provision (s : State) (guard : Nat) : State :=
  s.secRun 4 guard fun s => (s.onHw fun h => { h with pwr := { h.pwr with ownerIn := some (h.mbox 0 57) } }).lcBegin 1

/-- OPERATE. -/
def State.operate (s : State) (guard : Nat) : State := s.secRun 5 guard fun s => s.lcBegin 2

/-- RETURN. -/
def State.retire (s : State) (guard : Nat) : State :=
  s.secRun 6 guard fun s =>
    let t := s.tokenCheck 6
    if t ≠ 0 then s.secEnd 6 t
    else if getBE (s.hw.mbox 0 1) 0 1 ≠ 3 then s.secEnd 6 5
    else s.lcBegin 3

/-- OWNER_ROTATE. -/
def State.ownerRotate (s : State) : State :=
  s.secRun 7 0 fun s =>
    let t := s.tokenCheck 7
    let i := s.nv.ownerIndex
    if t ≠ 0 then s.secEnd 7 t
    else if 3 ≤ i then s.secEnd 7 6
    else
      let new : OwnerDigest := { bytes := digest64 (s.hw.mbox 0 57), valid := true, revoked := false }
      let old (d : OwnerDigest) : OwnerDigest := { d with revoked := true }
      (s.onNv fun v => { v with otp := { v.otp with owner := (v.otp.owner.modify i old).set (i + 1) new } }).secEnd 7 0

/-- SVN_RAISE. -/
def State.svnRaise (s : State) : State :=
  s.secRun 8 0 fun s =>
    let t := s.tokenCheck 8
    let n := getBE (s.hw.mbox 0 4) 0 4
    if t ≠ 0 then s.secEnd 8 t
    else if n ≤ s.nv.otp.minSvn ∨ 64 < n ∨ s.hw.mgt.imgSvn.toNat < n ∨ s.nv.flashSvn.toNat < n then s.secEnd 8 5
    else (s.onNv fun v => { v with otp := { v.otp with minSvn := n } }).secEnd 8 0

/-- KEY_READ. -/
def State.keyRead (s : State) : State :=
  s.secRun 9 0 fun s =>
    let slot := getBE (s.hw.mbox 0 1) 0 1
    if 7 < slot then s.secEnd 9 5
    else
      let out : List Byte := match aget slot s.nv.keys with
        | some b => 1 :: slice b 0 57
        | none => List.replicate 58 0
      (s.onHw fun h => h.setMbox 0 out).secEnd 9 0

def execAttest (s : State) : Host.Outcome State Fault Refusal := .next s.attest
def execExtend (s : State) : Host.Outcome State Fault Refusal := .next s.extend
def execKeyInstall (s : State) : Host.Outcome State Fault Refusal := .next s.keyInstall
def execProvision (guard : BitVec 16) (s : State) : Host.Outcome State Fault Refusal := .next (s.provision guard.toNat)
def execOperate (guard : BitVec 16) (s : State) : Host.Outcome State Fault Refusal := .next (s.operate guard.toNat)
def execReturn (guard : BitVec 16) (s : State) : Host.Outcome State Fault Refusal := .next (s.retire guard.toNat)
def execOwnerRotate (s : State) : Host.Outcome State Fault Refusal := .next s.ownerRotate
def execSvnRaise (s : State) : Host.Outcome State Fault Refusal := .next s.svnRaise
def execKeyRead (s : State) : Host.Outcome State Fault Refusal := .next s.keyRead

/-- A BAR0 write of SEC_CMD. (DEDUCED log entry 16.) -/
def State.secCmdWrite (s : State) (a : Acc) (v : W64) : State :=
  let w := accWord a 0 v &&& accMask a
  let g := Fld.secCmd_guard.get w
  match Fld.secCmd_cmd.get w with
  | 1 => s.attest
  | 2 => s.extend
  | 3 => s.keyInstall
  | 4 => s.provision g
  | 5 => s.operate g
  | 6 => s.retire g
  | 7 => s.ownerRotate
  | 8 => s.svnRaise
  | 9 => s.keyRead
  | _ => if s.hw.bit .secStatus Fld.secStatus_busy then s.onHw fun h => h.setFld .secStatus Fld.secStatus_ignored 1 else s.secEnd 0 5

/-- A write of a mailbox word. -/
def Hw.mboxWrite (h : Hw) (i : Nat) (a : Acc) (v : W64) : Hw :=
  if h.bit .secStatus Fld.secStatus_busy then h.setFld .secStatus Fld.secStatus_ignored 1
  else h.setReg (.secMbox i) (h.writeWord (.secMbox i) a v)

/-- SEC_STATUS as it reads: the OTP fields beside the stored ones. -/
def State.secStatus (s : State) : W64 :=
  let v := s.nv
  let b (x : Bool) (k : Nat) : Nat := if x then 2 ^ k else 0
  (s.hw.reg .secStatus &&& 0x3f0000) ||| BitVec.ofNat 64
    (v.lcState + b v.transPending 3 + b v.debugOpen 4 + b v.identity.isSome 5 + v.ownerIndex * 2 ^ 6 + b v.ownerDigest.isSome 8 +
      v.otp.minSvn * 2 ^ 9)

/-- ATTEST_REQ: ATTEST_RESP carries the report. -/
def execAttestReq (s : State) : Host.Outcome State Fault Refusal :=
  .next (match s.hw.takeReq 0x50 with
    | none => s
    | some (t, h) =>
      let s : State := { s with hw := h }
      s.onHw fun h => h.tetherFm s.nv 0x51 (s.report (slice t.body 0 32)))

end Sys2Proof.Machine
end

