-- ==== Sys2Proof/Machine/Long.lean ====
section
/-! DEFINITION. The long operations of the command engine (R264, R265, R268), and the firmware commands (R278, R362, R388). -/

namespace Sys2Proof.Machine

/-- The running operation of kind `k`. -/
def Hw.longOf (h : Hw) (k : LongOp) : Option LongRun := h.hst.long.find? fun l => l.op == k
def Hw.setLong (h : Hw) (l : LongRun) : Hw :=
  { h with hst := { h.hst with long := h.hst.long.map fun x => if x.op = l.op then l else x } }
/-- The descriptor of a running operation; none after an event of R273. -/
def Hw.longDesc (h : Hw) (l : LongRun) : Option Desc := h.hst.started.find? fun d => d.ix == l.ix

/-- The operation ends; it completes if its descriptor still stands. -/
def Hw.longEnd (h : Hw) (l : LongRun) (status result : Nat) : Hw :=
  let d := h.longDesc l
  let h := { h with hst := { h.hst with long := h.hst.long.filter fun x => x.op != l.op } }
  match d with
  | some d => h.finish d status result
  | none => h

/-- Begin the long operation that ring `r` has started: BUSY while one of its opcode runs, BAD_FIELD where `ok` fails. A rehash keeps its
NEW_SEED, since it runs to its end whatever becomes of its descriptor (R273). -/
def Hw.longBegin (h : Hw) (r op : Nat) (k : LongOp) (early : Bool) (ok : Desc → Bool) : Hw :=
  h.command r op early fun d =>
    if (h.longOf k).isSome then h.finish d 0x04 0
    else if !ok d then h.finish d 0x02 0
    else
      let h := h.begin_ d
      { h with hst := { h.hst with long := h.hst.long ++ [⟨k, r, d.ix, false, 0, if k = .excRehash ∨ k = .dirRehash then [getLE d.bytes 8 4] else [], false⟩] } }

/-- EXC_DUMP. -/
def execExcDump (r : Ring) (s : State) : Host.Outcome State Fault Refusal :=
  .next (s.onHw fun h => h.longBegin r 0x023 .excDump false fun d =>
    getLE d.bytes 8 8 % 64 == 0 && decide (1 ≤ getLE d.bytes 16 4) && decide (getLE d.bytes 16 4 ≤ 528384))

/-- EXC_REHASH. -/
def execExcRehash (r : Ring) (s : State) : Host.Outcome State Fault Refusal :=
  .next (s.onHw fun h => h.longBegin r 0x024 .excRehash false fun _ => true)

/-- DIR_REHASH. -/
def execDirRehash (r : Ring) (s : State) : Host.Outcome State Fault Refusal :=
  .next (s.onHw fun h => h.longBegin r 0x049 .dirRehash false fun _ => true)

/-- HBM_WIPE. -/
def execHbmWipe (r : Ring) (s : State) : Host.Outcome State Fault Refusal :=
  .next (s.onHw fun h => h.longBegin r 0x050 .hbmWipe false fun d =>
    getLE d.bytes 8 5 % 2097152 == 0 && getLE d.bytes 16 5 % 2097152 == 0 && decide (getLE d.bytes 8 5 + getLE d.bytes 16 5 ≤ h.exportBytes))

/-- COUNTER_SNAPSHOT. -/
def execCounterSnapshot (r : Ring) (s : State) : Host.Outcome State Fault Refusal :=
  .next (s.onHw fun h => h.longBegin r 0x058 .counterSnapshot false fun d => getLE d.bytes 8 8 % 4096 == 0)

/-- FW_STAGE. -/
def execFwStage (r : Ring) (s : State) : Host.Outcome State Fault Refusal :=
  .next (s.onHw fun h => h.longBegin r 0x060 .fwStage true fun d =>
    let off := getLE d.bytes 16 3
    let n := getLE d.bytes 24 3
    off % 4096 == 0 && decide (1 ≤ n) && decide (off + n ≤ 4194304))

/-- Bytes staged: the end of the farthest part. (DESIGN CHOICE log entry 44.) -/
def Hw.stagedBytes (h : Hw) : Nat := (h.hst.fwStage.map fun p => p.1 + p.2.length).foldl max 0
/-- The first `n` bytes of the staging area. -/
def Hw.stagedImage (h : Hw) (n : Nat) : List Byte := slice (h.hst.fwStage.foldl (fun l p => overlay l p.1 p.2) []) 0 n

/-- FW_COMMIT, with RESTART as the row has it. -/
def Hw.fwCommit (h : Hw) (r : Nat) (restart : Bool) : Hw :=
  match h.unbegun r with
  | none => h
  | some d =>
    if (bits d.flags 0 1 == 1) != restart then h
    else if d.opcode = 0x061 ∧ h.fatalChip = false ∧ (h.longOf .fwCommit).isNone = true ∧
        (4194304 < getLE d.bytes 8 3 ∨ h.stagedBytes < getLE d.bytes 8 3) then h.finish d 0x61 0
    else h.longBegin r 0x061 .fwCommit true fun _ => true

def execFwCommit (r : Ring) (s : State) : Host.Outcome State Fault Refusal := .next (s.onHw fun h => h.fwCommit r false)
def execFwCommitRestart (r : Ring) (s : State) : Host.Outcome State Fault Refusal := .next (s.onHw fun h => h.fwCommit r true)

/-! ### Steps -/

/-- Put an entry in its place by node number. -/
def byNode (e : ExcEnt) : List ExcEnt → List ExcEnt
  | [] => [e]
  | x :: l => if e.node.toNat ≤ x.node.toNat then e :: x :: l else x :: byNode e l

/-- Entries that one step of a dump writes, and entries that one step of a rehash moves. (DESIGN CHOICE log entry 44.) -/
def stepEntries : Nat := 512

/-- EXC_DUMP: the next entries by node number of a replica that the hub reaches, up to MAX in all; the latch holds the node number from
which the next step goes on. (DESIGN CHOICE log entry 44.) -/
def Hw.dumpStep (h : Hw) (l : LongRun) (d : Desc) : Hw :=
  let left := getLE d.bytes 16 4 - l.progress
  let ahead := ((h.fwd.exc.get h.readDie).filter fun e => decide (l.latch.headD 0 ≤ e.node.toNat)).foldr byNode []
  let es := ahead.take (min stepEntries left)
  let h := if es.isEmpty then h
    else h.emit (.hostWrite d.ring (getLE d.bytes 8 8 + 8 * l.progress) (es.flatMap fun e => bytesLE 8 e.word.toNat))
  let n := l.progress + es.length
  match es.getLast?, decide (es.length < min ahead.length left) with
  | some e, true => h.setLong { l with progress := n, latch := [e.node.toNat + 1] }
  | _, _ => h.longEnd l (h.reached (.ok n)).status n

/-- Move the first `n` entries that lie under the old seed: each goes to its bucket under the new one, or to the overflow store where four
moved entries already fill that bucket (R265, item 3). -/
def moveEntries {α : Type} (bucket : α → Nat) (moved inBucket : α → Bool) (put : α → Bool → α) : Nat → List α → List α
  | 0, l => l
  | n + 1, l =>
    match l.find? fun x => !moved x, l.findIdx? fun x => !moved x with
    | some x, some i =>
      let ovf := decide (4 ≤ (l.filter fun y => moved y && inBucket y && bucket y == bucket x).length)
      moveEntries bucket moved inBucket put n (l.set i (put x ovf))
    | _, _ => l

/-- An entry whose move is over, and one that a move puts in its place. -/
def excSettled (e : ExcEnt) : ExcEnt := { e with moved := false }
def excMoved (e : ExcEnt) (o : Bool) : ExcEnt := { e with ovf := o, moved := true }
def dirSettled (e : DirEnt) : DirEnt := { e with moved := false }
def dirMoved (e : DirEnt) (o : Bool) : DirEnt := { e with ovf := o, moved := true }

/-- EXC_REHASH: the test, then moves; once no entry is left to move, the new seed stands. (DESIGN CHOICE log entry 21, DESIGN CHOICE log entry 44.) -/
def Hw.excRehash (h : Hw) (l : LongRun) (seed : BitVec 32) : Hw :=
  let bucket (e : ExcEnt) : Nat := excBucket e.node seed
  let es := h.fwd.exc.get h.readDie
  if !l.tested then
    if bucketsFit (es.map bucket) 1 4096 then h.setLong { l with tested := true } else h.longEnd l 0x10 0
  else
    let todo := (es.filter fun e => !e.moved).length
    if todo = 0 then
      let h := h.setHubReg .fwdSeed (Fld.fwdSeed_excSeed.put (h.reg .fwdSeed) seed.toNat)
      let h := { h with fwd := { h.fwd with exc := h.mapReach (fun x => x.map excSettled) h.fwd.exc } }
      h.longEnd l (h.reached (.ok 0)).status l.progress
    else
      let move (x : List ExcEnt) : List ExcEnt :=
        moveEntries bucket (·.moved) (!·.ovf) excMoved stepEntries x
      Hw.setLong { h with fwd := { h.fwd with exc := h.mapReach move h.fwd.exc } } { l with progress := l.progress + min todo stepEntries }

/-- DIR_REHASH: the test, then moves; once no entry is left to move, the new seed stands. (DESIGN CHOICE log entry 44.) -/
def Hw.dirRehash (h : Hw) (l : LongRun) (seed : BitVec 32) : Hw :=
  let bucket (e : DirEnt) : Nat := dirBucket e.keyHi e.keyLo seed
  if !l.tested then
    if bucketsFit (h.gon.dir.map bucket) 4 16384 then h.setLong { l with tested := true } else h.longEnd l 0x49 0
  else
    let todo := (h.gon.dir.filter fun e => !e.moved).length
    if todo = 0 then
      let h := h.setFld .gondolaSeed Fld.gondolaSeed_dirSeed seed.toNat
      let h := { h with gon := { h.gon with dir := h.gon.dir.map dirSettled } }
      h.longEnd l (h.reached (.ok 0)).status l.progress
    else
      let dir := moveEntries bucket (·.moved) (!·.ovf) dirMoved stepEntries h.gon.dir
      Hw.setLong { h with gon := { h.gon with dir := dir } } { l with progress := l.progress + min todo stepEntries }

/-- HBM_WIPE: 2 MiB. While a quadrant does not serve, the operation ends as a request that touches it would; quadrants whose hub path is
lost are left as they are, and the command completes with UNREACHABLE (R256). (DESIGN CHOICE log entry 44.) -/
def State.wipeStep (s : State) (l : LongRun) (d : Desc) : State :=
  let off := getLE d.bytes 8 5 + l.progress
  if getLE d.bytes 16 5 ≤ l.progress then s.onHw fun h => h.longEnd l 0 l.progress
  else if !((List.range 4).all s.hw.memServes) then s.onHw fun h => h.longEnd l 0x46 l.progress
  else
    let l' := { l with progress := l.progress + 2097152 }
    let near (a : Nat) : Bool := !s.hw.err.hubLost.get (offQuad a)
    let gone (a : Nat) : Bool := decide (off ≤ a) && decide (a < off + 2097152)
    let s := s.onMem fun m => if s.hw.someLost then m.keep fun a => !(gone a && near a) else m.wipe off 2097152
    s.onHw fun h =>
      let kept := h.gon.planted.filter fun x => !(gone (64 * x.1) && near (64 * x.1))
      let h := Hw.setLong { h with gon := { h.gon with planted := kept } } l'
      if getLE d.bytes 16 5 ≤ l'.progress then h.longEnd l' (h.reached (.ok 0)).status l'.progress else h

/-- The dies of DIE_MASK that the hub reaches. -/
def Hw.snapDies (h : Hw) (mask : Nat) : List Nat := (List.range 9).filter fun d => Nat.testBit mask d && (decide (8 ≤ d) || !h.err.hubLost.get (d % 4))

/-- COUNTER_SNAPSHOT: the latch of the counters with the stamp, then a page a step. (DESIGN CHOICE log entry 44.) -/
def Hw.snapStep (h : Hw) (l : LongRun) (d : Desc) : Hw :=
  let pages := (l.latch.length - 1) / 512
  let stop := if (List.range 8).any fun k => Nat.testBit (getLE d.bytes 2 2) k && h.err.hubLost.get (k % 4) then 0x0a else 0
  if l.latch.isEmpty then
    let dies := h.snapDies (getLE d.bytes 2 2)
    h.setLong { l with latch := h.stamp32.toNat :: dies.flatMap fun d => (List.range 512).map fun k => h.fld (.cntVal d k) Fld.cntVal_value }
  else if pages ≤ l.progress then h.longEnd l stop (l.latch.headD 0)
  else
    let vals := (l.latch.drop (1 + 512 * l.progress)).take 512
    let h := h.emit (.hostWrite d.ring (getLE d.bytes 8 8 + 4096 * l.progress) (vals.flatMap (bytesLE 8)))
    h.setLong { l with progress := l.progress + 1 }

/-- Bytes that one step of FW_STAGE reads. (DESIGN CHOICE log entry 44.) -/
def stepBytes : Nat := 65536

/-- FW_STAGE: the part is read from host memory, some of it in each step. (DESIGN CHOICE log entry 44.) -/
def Hw.stageStep (h : Hw) (l : LongRun) (d : Desc) (dma : Option (List Byte)) : Hw :=
  let total := getLE d.bytes 24 3
  let n := min stepBytes (total - l.progress)
  match dmaOf dma n with
  | none => h.longEnd l 0x05 0
  | some b =>
    let h := { h with hst := { h.hst with fwStage := h.hst.fwStage ++ [(getLE d.bytes 16 3 + l.progress, b)] } }
    let l := { l with progress := l.progress + n }
    if total ≤ l.progress then h.longEnd l 0 total else h.setLong l

/-- FW_COMMIT: verification, then the flash write. A write that fails leaves the flash as it was, written, or damaged; which, the spec does
not say. The restart follows the completion. (DESIGN CHOICE log entry 56.) -/
def State.commitStep (s : State) (l : LongRun) (d : Desc) (flashOk : Bool) : State :=
  let n := getLE d.bytes 8 3
  let img := s.hw.stagedImage n
  if !l.tested then
    match imageFault s.nv img with
    | some e => s.onHw fun h => h.longEnd l e 0
    | none => s.onHw fun h => h.setLong { l with tested := true }
  else
    let put (v : Nv) : Nv := { v with flash := img, flashSvn := BitVec.ofNat 32 (getBE img 16 4) }
    if flashOk then
      (s.onNv put).onHw fun h =>
        let h := h.longEnd l 0 n
        if bits d.flags 0 1 = 1 then h.restart s.nv 1 else h
    else
      let (v, h) := s.hw.draw
      let nv := if v.toNat % 3 = 0 then s.nv else if v.toNat % 3 = 1 then put s.nv else { s.nv with flash := [0], flashSvn := 0 }
      { s with hw := h.longEnd l 0x62 0, nv := nv }

/-- The step of operation `l`, with its descriptor where that still stands. One that was asked to stop ends ABORTED with its progress;
one that moves host data waits while the chip may start no request. -/
def State.longRun (s : State) (l : LongRun) (dma : Option (List Byte)) (flashOk : Bool) : State :=
  let host (t : State) : State := if s.hw.hst.mayRequest then t else s
  if l.stop then s.onHw fun h => h.longEnd l 0x06 l.progress
  else
    match l.op, s.hw.longDesc l with
    | .excRehash, _ => s.onHw fun h => h.excRehash l (BitVec.ofNat 32 (l.latch.headD 0))
    | .dirRehash, _ => s.onHw fun h => h.dirRehash l (BitVec.ofNat 32 (l.latch.headD 0))
    | _, none => s.onHw fun h => h.longEnd l 0x06 l.progress
    | .excDump, some d => host (s.onHw fun h => h.dumpStep l d)
    | .hbmWipe, some d => s.wipeStep l d
    | .counterSnapshot, some d => if l.latch.isEmpty then s.onHw fun h => h.snapStep l d else host (s.onHw fun h => h.snapStep l d)
    | .fwStage, some d => host (s.onHw fun h => h.stageStep l d dma)
    | .fwCommit, some d => s.commitStep l d flashOk

/-- LONG_OPERATION_STEP: one step of a running operation whose turn it is (R268). -/
def State.longStep (s : State) (k : LongOp) (dma : Option (List Byte)) (flashOk : Bool) : State :=
  match s.hw.longOf k with
  | none => s
  | some l => if s.hw.mayTurn (longItem k) then (s.longRun l dma flashOk).onHw fun h => h.tookTurn (longItem k) else s

def execLongOperationStep (k : LongOp) (dma : Option (List Byte)) (flashOk : Bool) (s : State) : Host.Outcome State Fault Refusal :=
  .next (s.longStep k dma flashOk)

end Sys2Proof.Machine
end

