-- ==== Sys2Proof/Machine/Bar0.lean ====
section
/-! DEFINITION. BAR0: what each register reads as and what a write of it does; doorbells and counter pages as accesses; and the three
access commands (R6 to R9, R21, R251 to R255, R272, R274, R287, R298). -/

namespace Sys2Proof.Machine

/-! ### Computed register words -/

/-- BRIDLE[b] word `w` (R129); a FREE entry reads 0. -/
def bridleWord (b : Bridle) (w : Nat) : W64 :=
  let n (x : Bool) (k : Nat) : Nat := if x then 2 ^ k else 0
  let st : Nat := match b.state with | .pending => 1 | .ready => 2 | .draining => 3 | .aborted => 4
  match w with
  | 0 => withParity (BitVec.ofNat 64 (b.group.toNat + b.gen.toNat * 2 ^ 16 + st * 2 ^ 24 + b.kind * 2 ^ 28 + n b.exact 30 + n b.twin 31 +
      b.winLog2 * 2 ^ 32 + b.home * 2 ^ 36 + b.canon * 2 ^ 40 + b.recipe * 2 ^ 48))
  | 1 => withParity (BitVec.ofNat 64 (b.parentPort + n b.parentEn 10 + b.parentMember * 2 ^ 12 + b.parentNode.toNat * 2 ^ 24))
  | 2 => withParity (BitVec.ofNat 64 (b.memberBase + b.members.length * 2 ^ 18 + b.elements * 2 ^ 32 + b.chunkUnits * 2 ^ 48))
  | 3 => withParity (BitVec.ofNat 64 (b.straggleUs + b.abortUs * 2 ^ 16 + b.ranks * 2 ^ 32 + b.ownerShift * 2 ^ 50))
  | 4 => withParity (BitVec.ofNat 64 (b.rootRank + b.firstSeq.toNat * 2 ^ 18))
  | 5 => BitVec.ofNat 64 (b.seqLow.toNat + b.openCount * 2 ^ 32)
  | 6 => BitVec.ofNat 64 (b.abortSeq.toNat + b.abortReason * 2 ^ 32 + b.abortMember * 2 ^ 36)
  | _ => BitVec.ofNat 64 (b.slots.q0 + b.slots.q1 * 2 ^ 14 + b.slots.q2 * 2 ^ 28 + b.slots.q3 * 2 ^ 42)

/-- MEMBER[i] word `w` (R130). -/
def memberWord (m : Member) (w : Nat) : W64 :=
  if w = 0 then
    withParity (BitVec.ofNat 64 (m.port + (if m.valid then 2 ^ 10 else 0) + (if m.ordered then 2 ^ 11 else 0) + m.node.toNat * 2 ^ 16))
  else withParity (BitVec.ofNat 64 (m.rankLo + m.rankN * 2 ^ 32))

/-- The entry at `i` of the member pool's replica in quadrant `q`. -/
def Hw.poolEntry (h : Hw) (q i : Nat) : Option Member :=
  (h.coll.bridles.find? fun b => h.bridleIn q b && decide (b.memberBase ≤ i) && decide (i < b.memberBase + b.members.length)).bind fun b =>
    b.members[i - b.memberBase]?

/-- Bytes 8i to 8i + 7 of an identity or digest window. -/
def wordOf (l : List Byte) (i : Nat) : W64 := BitVec.ofNat 64 (getLE l (8 * i) 8)

/-- Words of registers that stand only at the first lane of a port. (DEDUCED log entry 16.) -/
def Reg.portIndex : Reg → Option Nat
  | .portFwd n => some n
  | .schedPort n => some n
  | .shaper n _ _ => some n
  | .policeMap n _ => some n
  | .portHwm n => some n
  | .portLink n => some n
  | .linkCtl n => some n
  | _ => none

/-- LANE_STATUS (R36). -/
def Nv.laneStatus (v : Nv) : W64 :=
  let c (k : Nat) : Nat := (enabledLanes v.disabled k).length
  BitVec.ofNat 64 (c 0 + c 1 + c 2 + c 3 + c 0 * 2 ^ 8 + c 1 * 2 ^ 13 + c 2 * 2 ^ 18 + c 3 * 2 ^ 23)

/-- EMIT_STATUS[e]: a retired emitter reads 4 or 5 after any reset (R249). (DESIGN CHOICE log entry 26.) -/
def State.emitWord (s : State) (e : Nat) : W64 :=
  let w := s.hw.reg (.emitStatus e)
  if (s.nv.retired.get (e / 36)).getLsbD (e % 36) && Fld.emitStatus_state.get w == 0 then
    Fld.emitStatus_state.put w (if Config.retiredReads e then 5 else 4)
  else w

/-- The word that a register reads as. Fields that the spec writes only are 0; a claim, a latch and a clear are in `State.readReg`. (DESIGN CHOICE log entry 2, DEDUCED log entry 9.) -/
def State.view (s : State) (r : Reg) : W64 :=
  let h := s.hw
  let v := s.nv
  if (match r.portIndex with | some n => !h.portStart n | none => false) then 0
  else match r with
    | .hubId => h.reg r ||| BitVec.ofNat 64 (v.otp.stepping.toNat * 2 ^ 16)
    | .hubState => h.reg r ||| BitVec.ofNat 64 v.lcState
    | .unitMap => v.otp.laneFused
    | .laneFence => v.laneFence
    | .laneStatus => v.laneStatus
    | .laneSweep k => Fld.laneSweep_fails.put (v.sweep k) (h.laneFails k)
    | .laneHist k => (aget k v.laneHist).getD 0
    | .resetStatus => h.reg r ||| BitVec.ofNat 64 (v.lastKind * 2 ^ 6 + v.chipResets * 2 ^ 32)
    | .tetherStatus => Fld.tetherStatus_rxQueued.put (h.reg r) (h.mgt.tetherQ.length + h.mgt.joins.length)
    | .hqStatus => h.reg r ||| BitVec.ofNat 64 ((if h.hst.stage.isEmpty then 0 else 1 + h.hst.stageOwner * 2) + h.hst.stage.length * 2 ^ 9)
    | .icSrc k => h.reg (h.icReg 0 k)
    | .icBank _ _ => if h.fld .icCfg Fld.icCfg_routeMode = 1 then h.reg r else 0
    | .secStatus => s.secStatus
    | .secSerial => v.otp.serial
    | .idPub i => wordOf (v.idPub.getD []) i
    | .vendorDigest i => wordOf v.otp.vendorDigest i
    | .ownerDigest i => wordOf (v.ownerDigest.getD []) i
    | .portFwd n => (h.reg r &&& 0x1fffff) ||| BitVec.ofNat 64 ((if h.inService n then 2 ^ 20 else 0) + h.learnCount n * 2 ^ 32)
    | .bufClass q t => Fld.bufClass_used.put (h.reg r) ((h.used q t + 255) / 256)
    | .bufStatus q =>
      Fld.bufStatus_spillUsed.put (Fld.bufStatus_freeCells.put (h.reg r) (h.freeCells q)) (units4k (h.spillUsed q))
    | .voqStat q _ => Fld.voqStat_sample.put (h.reg r) (h.buf.samples.get q).toNat
    | .collStatus c =>
      h.reg r ||| BitVec.ofNat 64 (h.freeSlots v.disabled c + h.coll.bridles.length * 2 ^ 16 +
        (131072 - (h.coll.bridles.map fun b => b.members.length).sum) * 2 ^ 32)
    | .bridleW q i => match h.bridleAt (i / 8) with | some b => if h.bridleIn q b then bridleWord b (i % 8) else 0 | none => 0
    | .memberW q i => match h.poolEntry q (i / 2) with | some m => memberWord m (i % 2) | none => 0
    | .gondolaStatus => Fld.gondolaStatus_dirUsed.put (h.reg r) h.gon.dir.length
    | .emitMap q => v.retired.get q
    | .emitStatus e => s.emitWord e
    | .calStatus => h.reg r ||| BitVec.ofNat 64 (v.calWrites.toNat * 2 ^ 32)
    | .calLane n w => if w = 0 then (v.calOf n).1 else (v.calOf n).2
    | .calFloor j => v.calFloorOf j
    | .liveLane n w => if w = 0 then (h.liveOf v n).1 else (h.liveOf v n).2
    | .liveFloor j => h.liveFloorOf v j
    | .tuNow => h.tuNow
    | .wdog | .circuitCtl _ | .linkCtl _ => h.reg r &&& ~~~r.woMask
    | .mgmtCtl | .resetCtl | .icClaim _ | .icComplete _ | .tuStep | .tuSetHi | .secCmd | .calCmd => 0
    | _ => h.reg r

/-! ### Reads -/

/-- LANE_SWEEP[k].STATE (R337). Whether a regular pass runs at this moment is a free value. (DESIGN CHOICE log entry 3, DESIGN CHOICE log entry 50.) -/
def State.laneSweepRead (s : State) (k : Nat) : W64 × State :=
  let w := s.view (.laneSweep k)
  let put (n : Nat) (s : State) : W64 × State := (Fld.laneSweep_state.put w n, s)
  if s.nv.otp.laneFused.getLsbD k then put 4 s
  else if s.nv.laneFence.getLsbD k then put 3 s
  else if s.nv.overdue k then put 2 s
  else if s.hw.err.extra.any fun x => x.1 == k then put 1 s
  else if s.sweeps k then
    let (b, h) := s.hw.draw
    put (if b.getLsbD 0 then 1 else 0) { s with hw := h }
  else put 0 s

/-- Read a register whole: its word, and the chip after the read. A read of either half of a register with RC fields clears them all
(R7, R9). (DEDUCED log entry 16.) -/
def State.readReg (s : State) (who : Agent) (r : Reg) : W64 × State :=
  match r with
  | .laneSweep k => s.laneSweepRead k
  | .tuNow => (s.hw.tuNow, s.onHw fun h => (h.tuNowRead .full).2)
  | .icSrc k => (s.hw.reg (s.hw.icRegOf who k), s)
  | .icClaim c =>
    match who with
    | .core _ => ((s.hw.icTake c).1, s.onHw fun h => (h.icTake c).2)
    | _ => (0, s)
  | .liveLane n w => let s := s.onHw fun h => h.adaptLane s.nv n; (s.view (.liveLane n w), s)
  | .liveFloor j => let s := s.onHw fun h => h.adaptFloor s.nv j; (s.view (.liveFloor j), s)
  | _ =>
    let w := s.view r
    (w, if r.rcMask = 0 ∨ s.hw.reg r &&& r.rcMask = 0 then s else s.onHw fun h => h.setReg r (h.reg r &&& ~~~r.rcMask))

/-- The access is naturally aligned (R7). -/
def accAligned (addr : Nat) (a : Acc) : Bool :=
  match a with
  | .hi => addr % 8 == 4
  | _ => addr % 8 == 0

/-- The P-die, C-die, HBM and floor blocks (R255). -/
def dpBlock (addr : Nat) : Bool := decide (0x800000 ≤ addr)

/-- The quadrant that a P-die or C-die block belongs to. -/
def blockQuad (addr : Nat) : Option Nat :=
  if addr < 0x800000 then none
  else if addr < 0x2800000 then some ((addr - 0x800000) / 0x800000)
  else if addr < 0x3800000 then some ((addr - 0x2800000) / 0x400000)
  else none

/-- A REG_ACCESS to the host-queue, interrupt-controller, time-unit or security block is denied (R298). (DEDUCED log entry 36.) -/
def accDenied (who : Agent) (addr : Nat) : Bool := who == .regAccess && decide (0x100000 ≤ addr) && decide (addr < 0x800000)

/-- The access reaches a block of a quadrant whose hub path is lost (R21). -/
def Hw.blockLost (h : Hw) (addr : Nat) : Bool :=
  match blockQuad addr with
  | some q => h.err.hubLost.get q
  | none => false

/-- A word of the MSI-X table (PRESUMED PCI Express layout): 0x0018_0000 + 8 × i. Its mask bit is kept apart. (PRESUMED log entry 15.) -/
def Hw.msixWord (h : Hw) (i : Nat) : W64 :=
  (aget i h.hst.msixTab).getD 0 ||| (if i % 2 = 1 ∧ h.hst.msixOpen.contains (i / 2) = false then 0x100000000 else 0)

/-- A word of the PBA. (PRESUMED log entry 15.) -/
def Hw.pbaWord (h : Hw) (i : Nat) : W64 :=
  BitVec.ofNat 64 (((List.range 64).filter fun j => h.hst.msixPending.contains (64 * i + j)).map (2 ^ ·)).sum

/-- Write a word of the MSI-X table. (PRESUMED log entry 15.) -/
def Hw.msixWrite (h : Hw) (i : Nat) (a : Acc) (v : W64) : Hw :=
  let w := accWord a (h.msixWord i) v
  let keep : W64 := if i % 2 = 0 then w &&& 0xfffffffffffffffc else w &&& 0xffffffff
  let h := { h with hst := { h.hst with msixTab := if keep = 0 then adel i h.hst.msixTab else aput i keep h.hst.msixTab } }
  if i % 2 = 0 ∨ a = .lo then h else if w.getLsbD 32 then h.msixMask (i / 2) else h.msixUnmask (i / 2)

/-- A register that stands at this address; IC_BANK[c][0] is a hole. -/
def regAt (addr : Nat) : Option Reg :=
  match Reg.ofAddr (addr / 8 * 8) with
  | some (.icBank _ 0) => none
  | x => x

/-- A BAR0 read (R7, R9, R21, R253, R255). (DEDUCED log entry 16.) (DEDUCED log entry 9.) -/
def State.busRead (s : State) (who : Agent) (addr : Nat) (a : Acc) : W64 × State :=
  if !accAligned addr a || (dpBlock addr && !s.hw.dpReady) then (0, s)
  else if s.hw.blockLost addr then (readHalf a 0xffffffffffffffff, s)
  else if 0x180000 ≤ addr ∧ addr < 0x188000 then (readHalf a (s.hw.msixWord ((addr - 0x180000) / 8)), s)
  else if 0x188000 ≤ addr ∧ addr < 0x188100 then (readHalf a (s.hw.pbaWord ((addr - 0x188000) / 8)), s)
  else
    match regAt addr with
    | none => (0, s)
    | some r => (readHalf a (s.readReg who r).1, (s.readReg who r).2)

/-! ### Writes -/

/-- Set a register to a word where the word may stand; else the whole register stays as it is. -/
def Hw.guarded (h : Hw) (r : Reg) (a : Acc) (v : W64) (ok : W64 → Bool) : Hw :=
  let w := h.writeWord r a v
  if !ok w ∨ w = h.reg r then h else h.setReg r w

/-- As `guarded`, for a register that the agents apply to every P-die (R61). -/
def Hw.guardedHub (h : Hw) (r : Reg) (a : Acc) (v : W64) (ok : W64 → Bool) : Hw :=
  let w := h.writeWord r a v
  if !ok w ∨ w = h.reg r then h else h.setHubReg r w

/-- VAETH_CFG: the ranges of ETHERTYPE and MAX_FRAME. -/
def vaethCfgOk (w : W64) : Bool :=
  let e := Fld.vaethCfg_ethertype.get w
  let m := Fld.vaethCfg_maxFrame.get w
  decide (0x600 ≤ e) && !([0x8100, 0x88a8, 0x8808, 0x88cc, 0x88f7, 0x86dd].contains e) && decide (64 ≤ m) && decide (m ≤ 9216)

/-- NODE_ID: VALID may be set only in PROVISIONED and OPERATIONAL (R349); elsewhere it stays as it is. (DESIGN CHOICE log entry 17.) -/
def Hw.nodeIdWrite (h : Hw) (nv : Nv) (a : Acc) (v : W64) : Hw :=
  let w := h.writeWord .nodeId a v
  let w := if nv.inService then w else w &&& (h.reg .nodeId ||| 0x7fffffffffffffff)
  h.setHubReg .nodeId w

/-- MGMT_CFG: a HEARTBEAT_10MS of 0 and a BOOT_LIMIT_10MS outside 10 to 255 are refused whole; TETHER_EN and UDP_EN may be set only in
PROVISIONED and OPERATIONAL (R349). (DESIGN CHOICE log entry 17.) -/
def Hw.mgmtCfgWrite (h : Hw) (nv : Nv) (a : Acc) (v : W64) : Hw :=
  let w := h.writeWord .mgmtCfg a v
  let w := if nv.inService then w else w &&& (h.reg .mgmtCfg ||| 0xfffffffffcffffff)
  if Fld.mgmtCfg_heartbeat10ms.get w = 0 ∨ Fld.mgmtCfg_bootLimit10ms.get w < 10 then h else h.setReg .mgmtCfg w

/-- WDOG: a period outside 0 and 100 to 10,000 is refused; KICK restarts the watchdog (R280). (DESIGN CHOICE log entry 17.) -/
def Hw.wdogWrite (h : Hw) (a : Acc) (v : W64) : Hw :=
  let w := h.writeWord .wdog a v
  let p := Fld.wdog_periodMs.get w
  if p ≠ 0 ∧ (p < 100 ∨ 10000 < p) then h
  else
    let idle := h.fld .wdog Fld.wdog_periodMs == 0
    let h := h.setReg .wdog w
    -- a watchdog that was off runs from now on
    let h := if idle && p != 0 then h.wdogKick else h
    if (accWord a 0 v &&& accMask a).getLsbD 14 then h.wdogKick else h

/-- SWEEP_CFG ranges (R337). (DESIGN CHOICE log entry 17.) -/
def sweepCfgOk (w : W64) : Bool :=
  let d := Fld.sweepCfg_excDeltaC.get w
  decide (2 ≤ d) && decide (d ≤ 60) && decide (1 ≤ Fld.sweepCfg_excWindowMs.get w) && decide (1 ≤ Fld.sweepCfg_intermitLimit.get w)

/-- A write of SWEEP_CFG; ENABLE set while Gliuk runs starts the period of every lane (R333). (DESIGN CHOICE log entry 50.) -/
def Hw.sweepCfgWrite (h : Hw) (a : Acc) (v : W64) : Hw :=
  let on := h.bit .sweepCfg Fld.sweepCfg_enable
  let h := h.guarded .sweepCfg a v sweepCfgOk
  if !on && h.bit .sweepCfg Fld.sweepCfg_enable && h.gliuk then
    { h with err := { h.err with passAt := (List.range 64).map fun k => (k, h.tim.local_) } }
  else h

/-- EMIT_CFG ranges (R249). (DESIGN CHOICE log entry 17.) -/
def emitCfgOk (w : W64) : Bool :=
  let x := Fld.emitCfg_warnPermil.get w
  let y := Fld.emitCfg_sparePermil.get w
  decide (500 ≤ x) && decide (x ≤ 950) && decide (400 ≤ y) && decide (y + 50 ≤ x)

/-- HQ_CTL: a flush time of 0 is refused and sets CFG_ERR (R271). -/
def Hw.hqCtlWrite (h : Hw) (a : Acc) (v : W64) : Hw :=
  let w := h.writeWord .hqCtl a v
  if Fld.hqCtl_recordFlushUs.get w = 0 then h.setFld .hqStatus Fld.hqStatus_cfgErr 1 else h.setReg .hqCtl w

/-- A write of an interrupt source's register: ENABLE and TARGET, then TRIGGER (R283, R302). -/
def Hw.icSrcWrite (h : Hw) (r : Reg) (a : Acc) (v : W64) : Hw :=
  let w := accWord a 0 v &&& accMask a
  let h := if a = .hi then h else h.setReg r (Fld.icSrc_trigger.put (h.writeWord r a v) 0)
  Hw.icUpdate (if w.getLsbD 24 then h.icPend r else h)

/-- Free calibration records of a recommissioning that runs (R248). (DESIGN CHOICE log entry 18.) -/
def drawRecs : Nat → Hw → List (W64 × W64) × Hw
  | 0, h => ([], h)
  | n + 1, h =>
    let (a, h) := h.draw
    let (b, h) := h.draw
    let (l, h) := drawRecs n h
    ((a, b) :: l, h)

/-- A write of CAL_CMD (R248). Whether every lane sees its own pattern, and the records found, are free values. (DESIGN CHOICE log entry 17, DESIGN CHOICE log entry 18.) -/
def Hw.calCmdWrite (h : Hw) (nv : Nv) (a : Acc) (v : W64) : Hw :=
  let w := accWord a 0 v &&& accMask a
  let t := Fld.calCmd_target.get w
  let g := Fld.calCmd_guard.get w
  match Fld.calCmd_cmd.get w with
  | 1 => h.calBegin 1 t g true true fun h => h.saveOctet nv t
  | 2 => if t < 20 then h.calBegin 2 t g true true fun h => h.saveFloor nv t else h
  | 3 => h.calBegin 3 t 0 false ((h.octetPorts t).all fun n => !h.inService n) fun h => h.loadOctet nv t
  | 4 => if t < 20 then h.calBegin 4 t 0 false true fun h => h.reloadFloor nv t else h
  | 5 => h.calBegin 5 t g true ((h.octetPorts t).all fun n => h.linkState n == 0) fun h =>
      (drawRecs 8 h.draw.2).2.recommissionOctet t (h.draw.1.getLsbD 0) (drawRecs 8 h.draw.2).1
  | 6 => if t < 20 then h.calBegin 6 t g true true fun h =>
      (drawRecs 128 h).2.recommissionFloor t ((drawRecs 128 h).1.map (·.1)) else h
  | _ => h

/-- What a write of a register does to everything but the non-volatile stores. -/
def Hw.writeReg (h : Hw) (nv : Nv) (who : Agent) (r : Reg) (a : Acc) (v : W64) : Hw :=
  let bits := accWord a 0 v &&& accMask a
  match r with
  | .secMbox i => h.mboxWrite i a v
  | .octetSleep i => h.octetSleepWrite nv i a v
  | .quadPark => h.quadParkWrite a v
  | .withdrawCtl => h.withdrawWrite a v
  | .fwdCfg | .fwdSeed | .mirrorCfg _ | .circuitMap _ | .circuitCtl _ | .cntVal _ _ | .cntSel _ _ | .zoneTbl _ _ | .rowTbl _ _
  | .rackTbl _ _ | .sparTbl _ _ | .portFwd _ | .classCfg _ _ | .bufClass _ _ | .voqCfg _ _ | .noticeCfg _ | .spillCfg _ | .bufStatus _
  | .schedPort _ | .shaper _ _ _ | .policer _ _ _ | .policeMap _ _ | .octetCfg _ | .octetStatus _ | .linkCtl _ => h.setupWrite nv r a v
  | .gondolaCfg => h.gondolaCfgWrite a v
  | .gondolaWin w => h.gondolaWinWrite w a v
  | .sqBase n | .cqBase n | .ringCtl n => h.ringWrite n r a v
  | .icCfg => h.icCfgWrite a v
  | .icSrc k => h.icSrcWrite (h.icRegOf who k) a v
  | .icBank _ _ => if h.fld .icCfg Fld.icCfg_routeMode = 1 then h.icSrcWrite r a v else h
  | .icTarget _ => (h.guarded r a v fun _ => true).icUpdate
  | .icComplete c =>
    match who with
    | .core _ => if a = .hi then h else h.icComplete c (bits.toNat % 1024)
    | _ => h
  | .tuCfg => h.tuCfgWrite a v
  | .tuStep => h.timeStep a v
  | .tuFreq => h.timeFreq a v
  | .tuSetHi => h.timeSet a v
  | .tuPtpEn i => h.ptpEnWrite i a v
  | .histCtl => h.histCtlWrite a v
  | .errInject => h.errInjectWrite a v
  | .mgmtCtl => if bits.getLsbD 0 then h.mgmtCtl nv (Fld.mgmtCtl_guard.get bits) else h
  | .calCmd => h.calCmdWrite nv a v
  | .mgmtCfg => h.mgmtCfgWrite nv a v
  | .wdog => if a = .hi then h else h.wdogWrite a v
  | .nodeId => h.nodeIdWrite nv a v
  | .vaethCfg => h.guardedHub r a v vaethCfgOk
  | .fabricPrefixHi | .fabricPrefixLo | .vaethSa | .vaethDa => h.guardedHub r a v fun _ => true
  | .sampleCfg => h.guardedHub r a v fun w => decide (4 ≤ Fld.sampleCfg_nLog2.get w) && decide (Fld.sampleCfg_nLog2.get w ≤ 24)
  | .sweepCfg => h.sweepCfgWrite a v
  | .emitCfg => h.guarded r a v emitCfgOk
  | .hqCtl => h.hqCtlWrite a v
  | .counterGrant k => h.guarded r a (if k = 1 then v &&& (if a = .hi then 0 else 0xff) else v) fun _ => true
  | _ => h.guarded r a v fun _ => true

/-- What a write of a register does. -/
def State.writeReg (s : State) (who : Agent) (r : Reg) (a : Acc) (v : W64) : State :=
  match r with
  | .laneFence => s.fenceWrite a v
  | .resetCtl => s.resetCtlWrite a v
  | .secCmd => s.secCmdWrite a v
  | _ => s.onHw fun h => h.writeReg s.nv who r a v

/-- A BAR0 write (R7, R9, R21, R253, R255). (DEDUCED log entry 16.) (DEDUCED log entry 9.) -/
def State.busWrite (s : State) (who : Agent) (addr : Nat) (a : Acc) (v : W64) : State :=
  if !accAligned addr a || (dpBlock addr && !s.hw.dpReady) || s.hw.blockLost addr then s
  else if 0x180000 ≤ addr ∧ addr < 0x188000 then s.onHw fun h => h.msixWrite ((addr - 0x180000) / 8) a v
  else
    match regAt addr with
    | none => s
    | some r => s.writeReg who r a v

/-! ### The other spaces of the function -/

/-- A counter page read: the counter in bits [47:0] where the grant bit of its group is 1 (R272). The counter of a die that the hub does not
reach reads all ones, as its registers do (R21). (DEDUCED log entry 9.) -/
def State.counterRead (s : State) (addr : Nat) : W64 :=
  let g := addr / 0x1000
  let k := 64 * (g % 8) + addr % 0x1000 / 8
  if 72 ≤ g ∨ 0x200 ≤ addr % 0x1000 ∨ (s.hw.reg (.counterGrant (g / 64))).getLsbD (g % 64) = false then 0
  else (s.busRead .host (Reg.addr (.cntVal (g / 8) k)) .full).1 &&& 0xffffffffffff

/-- A BAR2 write: a doorbell, or one that is discarded and counted (R254). -/
def Hw.bar2Write (h : Hw) (addr : Nat) (a : Acc) (v : W64) : Hw :=
  let r := addr / 4096
  if 256 ≤ r ∨ a ≠ .full then h.badDoorbell
  else if addr % 4096 = 0 then h.sqDoorbell r v
  else if addr % 4096 = 8 then h.cqDoorbell r v
  else h.badDoorbell

/-- A configuration write of the addressed dwords. -/
def Hw.configWrite (h : Hw) (o : Otp) (addr : Nat) (a : Acc) (v : W64) : Hw :=
  let lo := v.setWidth 32
  let hi := (v >>> 32).setWidth 32
  match a with
  | .full => h.cfgPut o addr (some lo) (some hi)
  | .lo => h.cfgPut o addr (some lo) none
  | .hi => h.cfgPut o addr none (some lo)

/-- The access reaches its space: BAR0 for every agent, the others only for the host over a link that is up. (DEDUCED log entry 9.) -/
def Hw.reachesSpace (h : Hw) (sp : Space) (who : Agent) : Bool := sp == .bar0 || (who == .host && h.hst.pcieUp)

/-- What a read of a space answers, and the chip after it. -/
def State.spaceRead (s : State) (sp : Space) (who : Agent) (addr : Nat) (a : Acc) : Out × State :=
  match sp with
  | .bar0 => (.readData (s.busRead who addr a).1, (s.busRead who addr a).2)
  | .bar2 => (.readData 0, s)
  | .bar4 => (.readData (if accAligned addr a then readHalf a (s.counterRead addr) else 0), s)
  | .config =>
    if s.hw.rrsNow then (.retryStatus, s)
    else (.readData (if accAligned addr a then readHalf a (s.hw.cfgRead s.nv.otp addr) else 0), s)

/-- What a write of a space does; BAR4 ignores every write. -/
def State.spaceWrite (s : State) (sp : Space) (who : Agent) (addr : Nat) (a : Acc) (v : W64) : State :=
  match sp with
  | .bar0 => s.busWrite who addr a v
  | .bar2 => s.onHw fun h => h.bar2Write addr a v
  | .bar4 => s
  | .config =>
    s.onHw fun h => if h.rrsNow then h.emit .retryStatus else if accAligned addr a then h.configWrite s.nv.otp addr a v else h

/-! ### The commands -/

/-- REGISTER_WRITE. -/
def execRegisterWrite (who : Agent) (addr : BusAddr) (acc : Acc) (v : W64) (s : State) :
    Host.Outcome State Fault Refusal :=
  .next (if s.hw.pwr.porHeld || accDenied who addr.off.toNat || !s.hw.reachesSpace addr.space who then s
    else s.spaceWrite addr.space who addr.off.toNat acc v)

/-- RC_REGISTER_READ: a read of any register; RC fields clear. -/
def execRcRegisterRead (who : Agent) (addr : BusAddr) (acc : Acc) (s : State) : Host.Outcome State Fault Refusal :=
  .next (if s.hw.pwr.porHeld || accDenied who addr.off.toNat || !s.hw.reachesSpace addr.space who then s
    else (s.spaceRead addr.space who addr.off.toNat acc).2.onHw fun h => h.emit (s.spaceRead addr.space who addr.off.toNat acc).1)

/-- BAD_SIZE_ACCESS: a read returns 0, a write is ignored. (DEDUCED log entry 9.) -/
def execBadSizeAccess (_bar4 write : Bool) (addr : BitVec 26) (size : Nat) (s : State) : Host.Outcome State Fault Refusal :=
  .next (s.onLive fun h =>
    if write || ((size == 4 || size == 8) && addr.toNat % size == 0) then h else h.emit (.readData 0))

end Sys2Proof.Machine
end

