-- ==== Sys2Proof/Machine/TetherCmd.lean ====
section
/-! DEFINITION. The two Tether messages that act on the chip: CMD (R297) and REG_ACCESS (R298). -/

namespace Sys2Proof.Machine

/-! ### CMD -/

/-- A command of a CMD body: its end and the chip after it; none for a close that waits. `d` is the descriptor, `att` the attachment. (DEDUCED log entry 36.) -/
def Hw.tetherRun (h : Hw) (nv : Nv) (t : TReq) (d att : List Byte) : Option CmdEnd × Hw :=
  let op := getLE d 0 2 % 4096
  let flags := getLE d 2 2
  let node : Node := BitVec.ofNat 24 (getLE d 8 3)
  let some_ (x : CmdEnd × Hw) : Option CmdEnd × Hw := (some x.1, x.2)
  let fail (n : Nat) : Option CmdEnd × Hw := (some (.fail n), h)
  let staged : Bool := bits flags 0 1 == 1 && (op == 0x020 || op == 0x021 || op == 0x028)
  let known : Bool := [0x001, 0x020, 0x021, 0x022, 0x028, 0x029, 0x030, 0x031, 0x038, 0x039, 0x048].contains op
  if !known then fail 0x03
  else if op = 0x001 then fail (if h.fatalChip then 0x04 else 0)
  else if h.fatalChip || !h.dpReady then fail 0x04
  else if staged then fail 0x02
  else match op with
    | 0x020 => some_ (h.cmdExcWrite (BitVec.ofNat 64 (getLE d 8 8)) (bits flags 1 1 == 1))
    | 0x021 => some_ (h.cmdExcRemove node)
    | 0x022 => (some (h.cmdExcRead node), h)
    | 0x028 => match dmaOf (some att) 128 with
      | none => fail 0x05
      | some m => some_ (h.cmdMcastWrite (getLE d 8 2) m)
    | 0x029 => (some (h.cmdMcastRead (getLE d 8 2)), h)
    | 0x030 =>
      let n := (bridleAskOf d []).count
      if n = 0 ∨ 1024 < n then some_ (h.cmdBridleCreate nv.disabled (bridleAskOf d []))
      else match dmaOf (some att) (16 * n) with
        | none => fail 0x05
        | some l => some_ (h.cmdBridleCreate nv.disabled (bridleAskOf d l))
    | 0x031 => match (if bits flags 0 1 = 1 then h.closeAbort d (.tether t) else h.closeDrain d (.tether t)) with
      | some h => (none, h)
      | none => fail 0x28
    | 0x038 => some_ (h.cmdRecipeLoad (getLE d 8 1) ((List.range 4).map fun i => BitVec.ofNat 64 (getLE d (16 + 8 * i) 8)))
    | 0x039 => some_ (h.cmdRecipeClear (getLE d 8 1))
    | _ =>
      let x := h.cmdDir (flags % 16) (dirEntOf (slice d 16 32)) .none
      (some { x.1 with data := padTo 32 x.1.data }, x.2)

/-- CMD: the first checked message in T_SEQ order runs, and CMD_RESP tells its end. (DEDUCED log entry 36.) -/
def Hw.tetherCmd (h : Hw) (nv : Nv) : Hw :=
  match h.takeReq 0x10 with
  | none => h
  | some (t, h) =>
    match h.tetherRun nv t ((padTo 64 t.body).take 64) (t.body.drop 64) with
    | (some e, h) => h.cmdDone nv (.tether t) e.status e.result e.data
    | (none, h) => h

def execCmd (s : State) : Host.Outcome State Fault Refusal := .next (s.onHw fun h => h.tetherCmd s.nv)

/-! ### REG_ACCESS -/

/-- One item: its 16 bytes of answer, and the chip after it. (DEDUCED log entry 36.) -/
def State.regItem (s : State) (item : List Byte) : List Byte × State :=
  let a := getBE item 0 8
  let addr := a % 2 ^ 26
  let answer (v : W64) (st : Nat) : List Byte := bytesBE 8 v.toNat ++ [BitVec.ofNat 8 st] ++ List.replicate 7 0
  if accDenied .regAccess addr then (answer 0 1, s)
  else if dpBlock addr && !s.hw.dpReady then (answer 0 2, s)
  else
    let s := if bits a 63 1 = 1 then s.busWrite .regAccess addr .full (BitVec.ofNat 64 (getBE item 8 8)) else s
    let (v, s) := s.busRead .regAccess addr .full
    (answer v 0, s)

/-- Items in order; a write that ends Gliuk ends the message. -/
def State.regItems : Nat → List Byte → State → List Byte × State
  | 0, _, s => ([], s)
  | n + 1, l, s =>
    if !s.hw.gliuk then ([], s)
    else
      let (b, s) := s.regItem (l.take 16)
      let (r, s) := State.regItems n (l.drop 16) s
      (b ++ r, s)

/-- REG_ACCESS: a body with an impossible COUNT, or without all its items, is dropped. (DEDUCED log entry 36.) -/
def State.regAccess (s : State) : State :=
  match s.hw.takeReq 0x20 with
  | none => s
  | some (t, h) =>
    let s : State := { s with hw := h }
    let n := getBE t.body 0 1
    if n = 0 ∨ 32 < n ∨ t.body.length < 8 + 16 * n then s
    else
      let (b, s) := State.regItems n (t.body.drop 8) s
      s.onHw fun h => h.tetherFm s.nv 0x21 (bytesBE 1 n ++ List.replicate 7 0 ++ b)

def execRegAccess (s : State) : Host.Outcome State Fault Refusal := .next s.regAccess

end Sys2Proof.Machine
end

