-- ==== Sys2Proof/Machine/Dispatch.lean ====
section
/-! DEFINITION. The effect of each command: one arm for each constructor of `Instr`. -/

namespace Sys2Proof.Machine

def exec (i : Instr) (s : State) : Host.Outcome State Fault Refusal :=
  match i with
  | .registerWrite who addr acc v => Sys2Proof.Machine.execRegisterWrite who addr acc v s
  | .rcRegisterRead who addr acc => Sys2Proof.Machine.execRcRegisterRead who addr acc s
  | .badSizeAccess bar4 write addr size => Sys2Proof.Machine.execBadSizeAccess bar4 write addr size s
  | .frameReceive p rx upset => Sys2Proof.Machine.execFrameReceive p rx upset s
  | .learnInsert q => Sys2Proof.Machine.execLearnInsert q s
  | .learnAgeExpire node => Sys2Proof.Machine.execLearnAgeExpire node s
  | .frameAdmit a => Sys2Proof.Machine.execFrameAdmit a s
  | .spillReadback q p c => Sys2Proof.Machine.execSpillReadback q p c s
  | .ageDiscard id => Sys2Proof.Machine.execAgeDiscard id s
  | .egressSchedule p => Sys2Proof.Machine.execEgressSchedule p s
  | .starvationTimerExpire p c => Sys2Proof.Machine.execStarvationTimerExpire p c s
  | .floorCellReceive a b crcBad => Sys2Proof.Machine.execFloorCellReceive a b crcBad s
  | .transmitStart p => Sys2Proof.Machine.execTransmitStart p s
  | .transmitEnd p => Sys2Proof.Machine.execTransmitEnd p s
  | .depthSample q => Sys2Proof.Machine.execDepthSample q s
  | .coreRateSample q pRate cRate tj => Sys2Proof.Machine.execCoreRateSample q pRate cRate tj s
  | .tableParityRepair q t => Sys2Proof.Machine.execTableParityRepair q t s
  | .levelTableWrite l q ix acc v => Sys2Proof.Machine.execLevelTableWrite l q ix acc v s
  | .sparWrite q spar w acc v => Sys2Proof.Machine.execSparWrite q spar w acc v s
  | .pinSeedWrite acc v => Sys2Proof.Machine.execPinSeedWrite acc v s
  | .portVent p => Sys2Proof.Machine.execPortVent p s
  | .portUnvent p => Sys2Proof.Machine.execPortUnvent p s
  | .ventComplete p => Sys2Proof.Machine.execVentComplete p s
  | .ventNoticeReceive p => Sys2Proof.Machine.execVentNoticeReceive p s
  | .noticeReportReceive p => Sys2Proof.Machine.execNoticeReportReceive p s
  | .circuitMapWrite ix acc v => Sys2Proof.Machine.execCircuitMapWrite ix acc v s
  | .circuitEnable ix => Sys2Proof.Machine.execCircuitEnable ix s
  | .circuitVent ix => Sys2Proof.Machine.execCircuitVent ix s
  | .circuitRetrain ix => Sys2Proof.Machine.execCircuitRetrain ix s
  | .circuitDisable ix => Sys2Proof.Machine.execCircuitDisable ix s
  | .circuitEmpty ix => Sys2Proof.Machine.execCircuitEmpty ix s
  | .circuitRetrainTimeout ix => Sys2Proof.Machine.execCircuitRetrainTimeout ix s
  | .mirrorCfgWrite m acc v => Sys2Proof.Machine.execMirrorCfgWrite m acc v s
  | .spillCfgWrite q acc v => Sys2Proof.Machine.execSpillCfgWrite q acc v s
  | .shaperWrite p c peak acc v => Sys2Proof.Machine.execShaperWrite p c peak acc v s
  | .policerWrite q k peak acc v => Sys2Proof.Machine.execPolicerWrite q k peak acc v s
  | .laneFenceWrite acc v => Sys2Proof.Machine.execLaneFenceWrite acc v s
  | .chunkReceive p => Sys2Proof.Machine.execChunkReceive p s
  | .resultReceive p => Sys2Proof.Machine.execResultReceive p s
  | .resultAckReceive p => Sys2Proof.Machine.execResultAckReceive p s
  | .replayReqReceive p => Sys2Proof.Machine.execReplayReqReceive p s
  | .abortReceive p => Sys2Proof.Machine.execAbortReceive p s
  | .bridleNoticeReceive p => Sys2Proof.Machine.execBridleNoticeReceive p s
  | .quadrantPartialArrive b seq c damaged => Sys2Proof.Machine.execQuadrantPartialArrive b seq c damaged s
  | .reductionFinish b seq wrong => Sys2Proof.Machine.execReductionFinish b seq wrong s
  | .stragglerTimerExpire b pos => Sys2Proof.Machine.execStragglerTimerExpire b pos s
  | .abortTimerExpire b pos => Sys2Proof.Machine.execAbortTimerExpire b pos s
  | .bridlePendingTimer b => Sys2Proof.Machine.execBridlePendingTimer b s
  | .readyRepeatTimer b => Sys2Proof.Machine.execReadyRepeatTimer b s
  | .bridleCreate r dma => Sys2Proof.Machine.execBridleCreate r dma s
  | .bridleCloseDrain r => Sys2Proof.Machine.execBridleCloseDrain r s
  | .bridleCloseAbort r => Sys2Proof.Machine.execBridleCloseAbort r s
  | .bridleCloseComplete b => Sys2Proof.Machine.execBridleCloseComplete b s
  | .recipeLoad r => Sys2Proof.Machine.execRecipeLoad r s
  | .recipeClear r => Sys2Proof.Machine.execRecipeClear r s
  | .memWriteReceive p e => Sys2Proof.Machine.execMemWriteReceive p e s
  | .memReadReceive p e => Sys2Proof.Machine.execMemReadReceive p e s
  | .memReadRespReceive p => Sys2Proof.Machine.execMemReadRespReceive p s
  | .memWriteAckReceive p => Sys2Proof.Machine.execMemWriteAckReceive p s
  | .unmatchedResponseReceive p => Sys2Proof.Machine.execUnmatchedResponseReceive p s
  | .atomicReqReceive a => Sys2Proof.Machine.execAtomicReqReceive a s
  | .atomicExecute requester seq e => Sys2Proof.Machine.execAtomicExecute requester seq e s
  | .copyReqReceive p => Sys2Proof.Machine.execCopyReqReceive p s
  | .copyDoneReceive p => Sys2Proof.Machine.execCopyDoneReceive p s
  | .copyEngineTurn c e dma => Sys2Proof.Machine.execCopyEngineTurn c e dma s
  | .copyRetryTimeout c id => Sys2Proof.Machine.execCopyRetryTimeout c id s
  | .dirReqReceive p e => Sys2Proof.Machine.execDirReqReceive p e s
  | .patrolScrub l e => Sys2Proof.Machine.execPatrolScrub l e s
  | .rowRepairComplete l => Sys2Proof.Machine.execRowRepairComplete l s
  | .hbmRefresh k temp => Sys2Proof.Machine.execHbmRefresh k temp s
  | .gondolaCfgWrite acc v => Sys2Proof.Machine.execGondolaCfgWrite acc v s
  | .gondolaWinWrite w acc v => Sys2Proof.Machine.execGondolaWinWrite w acc v s
  | .octetEnable o => Sys2Proof.Machine.execOctetEnable o s
  | .octetDisable o => Sys2Proof.Machine.execOctetDisable o s
  | .octetShapeChange o acc v => Sys2Proof.Machine.execOctetShapeChange o acc v s
  | .trainingComplete p => Sys2Proof.Machine.execTrainingComplete p s
  | .trainingTimeout p => Sys2Proof.Machine.execTrainingTimeout p s
  | .retrainTimeout p => Sys2Proof.Machine.execRetrainTimeout p s
  | .noOsluxPeer p => Sys2Proof.Machine.execNoOsluxPeer p s
  | .linkLost p c => Sys2Proof.Machine.execLinkLost p c s
  | .lightReturn p => Sys2Proof.Machine.execLightReturn p s
  | .lossHoldExpire p => Sys2Proof.Machine.execLossHoldExpire p s
  | .downRetryTimer p => Sys2Proof.Machine.execDownRetryTimer p s
  | .fullTrain p => Sys2Proof.Machine.execFullTrain p s
  | .fastRetrain p => Sys2Proof.Machine.execFastRetrain p s
  | .rejoin p => Sys2Proof.Machine.execRejoin p s
  | .laneFail p l => Sys2Proof.Machine.execLaneFail p l s
  | .laneRejoin p l => Sys2Proof.Machine.execLaneRejoin p l s
  | .linkStateReceive p => Sys2Proof.Machine.execLinkStateReceive p s
  | .linkStateTimer p => Sys2Proof.Machine.execLinkStateTimer p s
  | .nakReceive p ack => Sys2Proof.Machine.execNakReceive p ack s
  | .ackControlBlock p => Sys2Proof.Machine.execAckControlBlock p s
  | .floorGroupDrop k g => Sys2Proof.Machine.execFloorGroupDrop k g s
  | .floorGroupRejoin k g => Sys2Proof.Machine.execFloorGroupRejoin k g s
  | .ringUnlock r => Sys2Proof.Machine.execRingUnlock r s
  | .ringRelock r => Sys2Proof.Machine.execRingRelock r s
  | .hubPathLost q => Sys2Proof.Machine.execHubPathLost q s
  | .hubPathRestored q => Sys2Proof.Machine.execHubPathRestored q s
  | .emitterDead e => Sys2Proof.Machine.execEmitterDead e s
  | .handoverStepDone e => Sys2Proof.Machine.execHandoverStepDone e s
  | .spareFailed e => Sys2Proof.Machine.execSpareFailed e s
  | .emitNoSpareRepeat e => Sys2Proof.Machine.execEmitNoSpareRepeat e s
  | .saveOctet o guard => Sys2Proof.Machine.execSaveOctet o guard s
  | .saveFloor k guard => Sys2Proof.Machine.execSaveFloor k guard s
  | .loadOctet o => Sys2Proof.Machine.execLoadOctet o s
  | .loadFloor k => Sys2Proof.Machine.execLoadFloor k s
  | .recommissionOctet o guard patternSeen recs => Sys2Proof.Machine.execRecommissionOctet o guard patternSeen recs s
  | .recommissionFloor k guard recs => Sys2Proof.Machine.execRecommissionFloor k guard recs s
  | .calCommandDone storeOk => Sys2Proof.Machine.execCalCommandDone storeOk s
  | .sqDoorbell r v => Sys2Proof.Machine.execSqDoorbell r v s
  | .cqDoorbell r v => Sys2Proof.Machine.execCqDoorbell r v s
  | .badDoorbell off size => Sys2Proof.Machine.execBadDoorbell off size s
  | .ringEnable r v => Sys2Proof.Machine.execRingEnable r v s
  | .ringDisable r => Sys2Proof.Machine.execRingDisable r s
  | .ringStopComplete r => Sys2Proof.Machine.execRingStopComplete r s
  | .descriptorFetch r d => Sys2Proof.Machine.execDescriptorFetch r d s
  | .longOperationStep k dma flashOk => Sys2Proof.Machine.execLongOperationStep k dma flashOk s
  | .nop r => Sys2Proof.Machine.execNop r s
  | .cancel r => Sys2Proof.Machine.execCancel r s
  | .stageWrite r => Sys2Proof.Machine.execStageWrite r s
  | .stageCommit r => Sys2Proof.Machine.execStageCommit r s
  | .stageDiscard r => Sys2Proof.Machine.execStageDiscard r s
  | .excWrite r => Sys2Proof.Machine.execExcWrite r s
  | .excRemove r => Sys2Proof.Machine.execExcRemove r s
  | .excRead r => Sys2Proof.Machine.execExcRead r s
  | .excDump r => Sys2Proof.Machine.execExcDump r s
  | .excRehash r => Sys2Proof.Machine.execExcRehash r s
  | .mcastWrite r dma => Sys2Proof.Machine.execMcastWrite r dma s
  | .mcastRead r => Sys2Proof.Machine.execMcastRead r s
  | .copy r => Sys2Proof.Machine.execCopy r s
  | .hostToGondola r => Sys2Proof.Machine.execHostToGondola r s
  | .gondolaToHost r => Sys2Proof.Machine.execGondolaToHost r s
  | .dirCmd d => Sys2Proof.Machine.execDirCmd d s
  | .dirRehash r => Sys2Proof.Machine.execDirRehash r s
  | .hbmWipe r => Sys2Proof.Machine.execHbmWipe r s
  | .counterSnapshot r => Sys2Proof.Machine.execCounterSnapshot r s
  | .fwStage r => Sys2Proof.Machine.execFwStage r s
  | .fwCommit r => Sys2Proof.Machine.execFwCommit r s
  | .fwCommitRestart r => Sys2Proof.Machine.execFwCommitRestart r s
  | .fwDiscard r => Sys2Proof.Machine.execFwDiscard r s
  | .recordBuf r => Sys2Proof.Machine.execRecordBuf r s
  | .recordFlushTimer r => Sys2Proof.Machine.execRecordFlushTimer r s
  | .coalTimerExpire r => Sys2Proof.Machine.execCoalTimerExpire r s
  | .msixUnmask v => Sys2Proof.Machine.execMsixUnmask v s
  | .flr => Sys2Proof.Machine.execFlr s
  | .perstAssert => Sys2Proof.Machine.execPerstAssert s
  | .perstDeassert => Sys2Proof.Machine.execPerstDeassert s
  | .pcieLinkLost => Sys2Proof.Machine.execPcieLinkLost s
  | .d3hotEnter => Sys2Proof.Machine.execD3hotEnter s
  | .d0Return => Sys2Proof.Machine.execD0Return s
  | .managementTick t => Sys2Proof.Machine.execManagementTick t s
  | .recordResendTimer => Sys2Proof.Machine.execRecordResendTimer s
  | .heartbeatTimer => Sys2Proof.Machine.execHeartbeatTimer s
  | .gliukStart => Sys2Proof.Machine.execGliukStart s
  | .bootLimitExpire => Sys2Proof.Machine.execBootLimitExpire s
  | .stageTableLoad => Sys2Proof.Machine.execStageTableLoad s
  | .mgmtRestart guard => Sys2Proof.Machine.execMgmtRestart guard s
  | .gliukRestartRequest => Sys2Proof.Machine.execGliukRestartRequest s
  | .wdogKick => Sys2Proof.Machine.execWdogKick s
  | .wdogHalfExpire => Sys2Proof.Machine.execWdogHalfExpire s
  | .wdogExpire => Sys2Proof.Machine.execWdogExpire s
  | .icSourceEvent src => Sys2Proof.Machine.execIcSourceEvent src s
  | .icTrigger who src => Sys2Proof.Machine.execIcTrigger who src s
  | .icClaim c => Sys2Proof.Machine.execIcClaim c s
  | .icComplete c src => Sys2Proof.Machine.execIcComplete c src s
  | .icRouteModeWrite v => Sys2Proof.Machine.execIcRouteModeWrite v s
  | .mgmtEthFrameReceive e udp => Sys2Proof.Machine.execMgmtEthFrameReceive e udp s
  | .tetherReceive c msg => Sys2Proof.Machine.execTetherReceive c msg s
  | .tetherMessageProcess => Sys2Proof.Machine.execTetherMessageProcess s
  | .hello => Sys2Proof.Machine.execHello s
  | .cmd => Sys2Proof.Machine.execCmd s
  | .regAccess => Sys2Proof.Machine.execRegAccess s
  | .recordAck => Sys2Proof.Machine.execRecordAck s
  | .relayOut => Sys2Proof.Machine.execRelayOut s
  | .attestReq => Sys2Proof.Machine.execAttestReq s
  | .announceRelay p => Sys2Proof.Machine.execAnnounceRelay p s
  | .announceTimer => Sys2Proof.Machine.execAnnounceTimer s
  | .txnTimeout key txn => Sys2Proof.Machine.execTxnTimeout key txn s
  | .timeSet acc v => Sys2Proof.Machine.execTimeSet acc v s
  | .timeStep acc v => Sys2Proof.Machine.execTimeStep acc v s
  | .timeFreq acc v => Sys2Proof.Machine.execTimeFreq acc v s
  | .tuNowRead acc => Sys2Proof.Machine.execTuNowRead acc s
  | .ptpReceive p => Sys2Proof.Machine.execPtpReceive p s
  | .ptpSourceLost => Sys2Proof.Machine.execPtpSourceLost s
  | .historyWrite => Sys2Proof.Machine.execHistoryWrite s
  | .historyRequest acc v => Sys2Proof.Machine.execHistoryRequest acc v s
  | .errInjectArm acc v => Sys2Proof.Machine.execErrInjectArm acc v s
  | .livenessProbe q answered => Sys2Proof.Machine.execLivenessProbe q answered s
  | .pipelineStall q => Sys2Proof.Machine.execPipelineStall q s
  | .macClockLoss q => Sys2Proof.Machine.execMacClockLoss q s
  | .refclkLoss => Sys2Proof.Machine.execRefclkLoss s
  | .timeBaseDiverge => Sys2Proof.Machine.execTimeBaseDiverge s
  | .thermalTrip => Sys2Proof.Machine.execThermalTrip s
  | .sweepPassComplete k failed => Sys2Proof.Machine.execSweepPassComplete k failed s
  | .sweepVectorRepeat k sect tj r => Sys2Proof.Machine.execSweepVectorRepeat k sect tj r s
  | .laneHang k => Sys2Proof.Machine.execLaneHang k s
  | .sweepOverdue k => Sys2Proof.Machine.execSweepOverdue k s
  | .withdraw => Sys2Proof.Machine.execWithdraw s
  | .withdrawReturn => Sys2Proof.Machine.execWithdrawReturn s
  | .withdrawNoticeRepeat => Sys2Proof.Machine.execWithdrawNoticeRepeat s
  | .withdrawEmpty => Sys2Proof.Machine.execWithdrawEmpty s
  | .attest => Sys2Proof.Machine.execAttest s
  | .extend => Sys2Proof.Machine.execExtend s
  | .keyInstall => Sys2Proof.Machine.execKeyInstall s
  | .provision guard => Sys2Proof.Machine.execProvision guard s
  | .operate guard => Sys2Proof.Machine.execOperate guard s
  | .return guard => Sys2Proof.Machine.execReturn guard s
  | .ownerRotate => Sys2Proof.Machine.execOwnerRotate s
  | .svnRaise => Sys2Proof.Machine.execSvnRaise s
  | .keyRead => Sys2Proof.Machine.execKeyRead s
  | .powerOnReset c => Sys2Proof.Machine.execPowerOnReset c s
  | .porRelease otpOk => Sys2Proof.Machine.execPorRelease otpOk s
  | .chipReset c => Sys2Proof.Machine.execChipReset c s
  | .dataPlaneReset => Sys2Proof.Machine.execDataPlaneReset s
  | .quadrantReset q => Sys2Proof.Machine.execQuadrantReset q s
  | .portReset o => Sys2Proof.Machine.execPortReset o s
  | .resetWipeComplete => Sys2Proof.Machine.execResetWipeComplete s
  | .octetSleep o => Sys2Proof.Machine.execOctetSleep o s
  | .octetWake o => Sys2Proof.Machine.execOctetWake o s
  | .quadrantPark q => Sys2Proof.Machine.execQuadrantPark q s
  | .quadrantUnpark q => Sys2Proof.Machine.execQuadrantUnpark q s
  | .parkComplete q => Sys2Proof.Machine.execParkComplete q s
  | .i3cRead off => Sys2Proof.Machine.execI3cRead off s
  | .i3cWindowRefresh tjDie tStack power => Sys2Proof.Machine.execI3cWindowRefresh tjDie tStack power s
  | .powerRemoval => Sys2Proof.Machine.execPowerRemoval s
  | .pcieLinkReturn => Sys2Proof.Machine.execPcieLinkReturn s
  | .mgmtEthLinkChange e up => Sys2Proof.Machine.execMgmtEthLinkChange e up s
  | .bootVerificationComplete img => Sys2Proof.Machine.execBootVerificationComplete img s
  | .unparkComplete q => Sys2Proof.Machine.execUnparkComplete q s
  | .vcoreOutOfRange q cdie => Sys2Proof.Machine.execVcoreOutOfRange q cdie s
  | .testAccessOperation op => Sys2Proof.Machine.execTestAccessOperation op s
  | .ptpMessageSend p m => Sys2Proof.Machine.execPtpMessageSend p m s
  | .ppsPulse rise => Sys2Proof.Machine.execPpsPulse rise s

end Sys2Proof.Machine
end

