-- ==== Sys2Proof/Machine/Tick.lean ====
section
/-! DEFINITION. What one slot of 1.5625 ns does while no command waits (log entry 6). -/

namespace Sys2Proof.Machine

/-- What the servo adds to the rate while it slews an offset away: SLEW_10PPB × 10 ppb with the sign that reduces it (R307). -/
def Hw.slewRate (h : Hw) : Int :=
  match h.tim.slew with
  | some o => if h.gliuk then (h.fld .tuCfg Fld.tuCfg_slew10ppb : Int) * 10000 * o.sign else 0
  | none => 0

/-- Fabric time one slot later: (25 / 16) ns × (1 + ADJ × 10^−12), and the offset that the servo slews away (R306, R307). (DESIGN CHOICE log entry 6.) -/
def fabricSlot (h : Hw) : Hw :=
  let adj := (h.reg .tuFreq).setWidth 32 |>.toInt
  let r := h.slewRate
  let f : Int := (h.tim.frac : Int) + 25 * (1000000000000 + adj + r)
  let h : Hw := { h with tim := { h.tim with fabric := (h.tim.fabric + (f / servoUnit).toNat) % fabricMod, frac := (f % servoUnit).toNat } }
  match h.tim.slew with
  | some o => if r = 0 then h else h.servoOffset (o - 25 * r)
  | none => h

/-- The running starvation timers count one slot (R116). (DESIGN CHOICE log entry 6, DEDUCED log entry 58.) -/
def Hw.starveTick (h : Hw) : Hw :=
  let queues := (h.buf.held.flatMap fun x => x.copies.map fun c => (c.port, x.cls)).dedup
  (queues.filter fun k => h.starving k.1 k.2).foldl (fun h k =>
    let s := h.sched k.1
    h.setSched k.1 { s with starve := s.starve.set k.2 (s.starve.getD k.2 0 + 1) }) h

/-- One slot of 1.5625 ns passes: the four data-plane time bases, the local count, fabric time and the starvation timers advance
(R28, R116, R303). While POR_L is held nothing counts. (DESIGN CHOICE log entry 6.) -/
def slotPasses (s : State) : State :=
  s.onLive fun h =>
    let h := (fabricSlot h).starveTick
    { h with tim := { h.tim with slot := h.tim.slot.map fun n => (n + 1) % 2 ^ 64, local_ := h.tim.local_ + 1 } }

end Sys2Proof.Machine
end

