-- ==== Sys2Proof/Safety.lean ====
section
/-! DEFINITION. The terms that statements use: a safe run of the block, and what a command leaves unchanged. -/

namespace Sys2Proof

/-- A run of `k` steps that meets no fault and no refusal. -/
def Safe (k : Nat) (s : Machine.State) : Prop := ∃ t, Host.Core.run core k s = .next t

end Sys2Proof

namespace Sys2Proof.Machine

/-- The parts of the volatile state beside the registers. -/
inductive Part where
  | fwd | buf | egr | coll | gon | lgt | hst | mgt | tim | err | pwr | out | free
deriving DecidableEq, Repr

/-- The part reads the same in both states. -/
def Part.same (p : Part) (h h' : Hw) : Prop :=
  match p with
  | .fwd => h'.fwd = h.fwd
  | .buf => h'.buf = h.buf
  | .egr => h'.egr = h.egr
  | .coll => h'.coll = h.coll
  | .gon => h'.gon = h.gon
  | .lgt => h'.lgt = h.lgt
  | .hst => h'.hst = h.hst
  | .mgt => h'.mgt = h.mgt
  | .tim => h'.tim = h.tim
  | .err => h'.err = h.err
  | .pwr => h'.pwr = h.pwr
  | .out => h'.out = h.out
  | .free => h'.freeCtr = h.freeCtr

/-- Outside the parts `ps` and the registers of `P`, `h'` is `h`. -/
structure Only (ps : List Part) (P : Reg → Prop) (h h' : Hw) : Prop where
  regs : ∀ r, ¬ P r → h'.reg r = h.reg r
  parts : ∀ p, p ∉ ps → p.same h h'

/-- Outside the parts `ps` and the registers of `P` of the volatile state, `t` is `s`: the non-volatile stores, the exported memory and
the waiting commands stand. -/
structure OnlyHw (ps : List Part) (P : Reg → Prop) (s t : State) : Prop where
  nv : t.nv = s.nv
  read : ∀ a, t.mem.read a = s.mem.read a
  poison : t.mem.poison = s.mem.poison
  pending : t.pending = s.pending
  hw : Only ps P s.hw t.hw

/-- No register. -/
def noRegs (_ : Reg) : Prop := False

/-- The counters of events (R309): the fixed counters and the counters an event can be selected for. -/
def Reg.isCnt : Reg → Bool
  | .cntVal _ _ => true
  | _ => false

/-- The source registers of the interrupt controller (R283). -/
def Reg.isIcSrc : Reg → Bool
  | .icSrc _ => true
  | .icBank _ _ => true
  | _ => false

/-- The registers that an event of any kind may note itself in: counters and interrupt sources. -/
def Reg.isNote (r : Reg) : Prop := r.isCnt = true ∨ r.isIcSrc = true

/-- The registers a re-route writes: EPOCH_STATUS, and those in which events are noted (R83). -/
def Reg.isEpoch (r : Reg) : Prop := r = .epochStatus ∨ r.isNote

/-- The parts that a frame or a record of the chip's own can change: frames, schedulers, records and the interrupt controller, and the
count of free values. -/
def sendParts : List Part := [.buf, .egr, .free, .err, .mgt]

/-- The parts that a re-route and the loss of a port's service can change: those of `sendParts`, the Bridles that abort, and the keys
that a STAGE_COMMIT gathers. -/
def pathParts : List Part := .fwd :: .coll :: sendParts

/-- The status registers of ring pairs. -/
def Reg.isRing : Reg → Bool
  | .ringStatus _ => true
  | _ => false

/-- The parts that a record or a completion for the host can change. -/
def hostParts : List Part := [.hst, .out]

/-- The registers that a record or a completion for the host writes: the status of its ring pair, and counters. -/
def Reg.isHostNote (r : Reg) : Prop := r.isRing = true ∨ r.isCnt = true

/-- The parts that a change of a link's state can change: those of `pathParts`, records and messages for the host, and links. -/
def linkParts : List Part := .lgt :: .hst :: .out :: pathParts

/-- The registers that show links, ports and circuits. -/
def Reg.isPort : Reg → Bool
  | .portLink _ | .portFwd _ | .schedPort _ | .circuitCtl _ | .linkCtl _ | .hostIrqSts => true
  | _ => false

/-- The registers that a change of a link's state writes. -/
def Reg.isLink (r : Reg) : Prop := r.isPort = true ∨ r.isRing = true ∨ r.isEpoch

/-- The parts that a collective frame or a completion can change beside a unit's own: frames, records, host messages. -/
def doneParts : List Part := .hst :: .out :: sendParts

/-- The registers in which a frame or a completion may be noted: counters, interrupt sources, and the status of ring pairs. -/
def Reg.isDone (r : Reg) : Prop := r.isNote ∨ r.isRing = true

/-- A frame that names `member` and came in on port `p` is from `src`: the parent, on its port, or a valid member on its own (R139). -/
def FromSender (b : Bridle) (p member : Nat) : Toward → Prop
  | .parent => b.parentEn = true ∧ b.parentPort = p ∧ member = b.parentMember
  | .member m => ¬(b.parentEn = true ∧ b.parentPort = p) ∧ member = m ∧ m < b.members.length ∧ (b.mem m).valid = true ∧ (b.mem m).port = p

/-- Frame `x` is the oldest collective frame of opcode `op` on port `p`; it comes from `src` for Bridle `b`, and checks 1 to 4 of R139 let it
through. No test error is armed. -/
structure CollFrame (s : State) (p : Port) (op : Nat) (x : Taken) (b : Bridle) (src : Toward) : Prop where
  oldest : (s.hw.takeFrame p [op]).1 = some x
  group : (s.hw.coll.bridles.find? fun y => y.group.toNat == x.hdr.opData.toNat / 2 ^ 48 && s.hw.bridleIn (portDie p) y) = some b
  good : s.hw.collBad (portDie p) b x.hdr = []
  gen : x.hdr.gen = b.gen
  active : b.state ≠ .aborted
  waits : b.state = .pending → op = 0x65 ∧ src = .parent
  sender : FromSender b p x.hdr.member src
  window : b.pos.length = b.win
  calm : s.hw.bit .errInject Fld.errInject_arm = false

/-- Bridle `b` can send toward `dst` now (R99, R135). -/
structure CanSend (h : Hw) (b : Bridle) (dst : Toward) : Prop where
  node : h.nodeValid = true
  home : h.mayOriginate b.home = true
  port : h.quadOk (portDie (b.port dst)) = true

/-- A frame of opcode `op` numbered `id` or later waits to leave on port `n` alone. -/
def Sends (h : Hw) (id n op : Nat) : Prop :=
  ∃ y d, y ∈ h.buf.held ∧ id ≤ y.id ∧ y.hdr = some d ∧ d.opcode.toNat = op ∧ y.copies.map (·.port) = [n]

/-- Descriptor `d` of ring `r` with opcode `op` is the one that the command engine runs now, in a chip that is ready and not in FATAL (R264,
R268). -/
structure Runs (s : State) (r : Ring) (op : Nat) (d : Desc) : Prop where
  next : s.hw.unbegun r = some d
  opcode : d.opcode = op
  turn : s.hw.mayTurn r = true
  alive : s.hw.fatalChip = false
  ready : s.hw.dpReady = true

/-- Descriptor `d` has completed with `status` and `result` (R257, R262): it is gone, and a pair that takes completions gets its entry, or
holds it while the chip may start no request (R252, R275). -/
structure Completed (h h' : Hw) (d : Desc) (status result : Nat) : Prop where
  gone : ∀ x ∈ h'.hst.started, x.ix ≠ d.ix
  entry : h.ringState d.ring ≠ 0 → h.ringState d.ring ≠ 3 → h.hst.mayRequest = true →
    ∃ a e, Out.hostWrite d.ring a e ∈ h'.out ∧ e.take 4 = bytesLE 4 d.tag ∧ (e.drop 6).take 1 = bytesLE 1 status ∧ e.drop 8 = bytesLE 8 result
  held : h.ringState d.ring ≠ 0 → h.ringState d.ring ≠ 3 → h.hst.mayRequest = false →
    bytesLE 4 d.tag ++ bytesLE 1 status ++ bytesLE 8 result ∈ (h'.ring d.ring).heldCq

/-- Byte `a` of the memory after bytes `l` were written at `off` in memory `m`. -/
def written (m : Mem) (off : Nat) (l : List Byte) (a : Nat) : Byte :=
  if off ≤ a ∧ a < off + l.length then l.getD (a - off) 0 else m.read a

/-- P-die `q` can send a frame of the chip's own to `node`, which an exception entry with good parity puts on port `n`, which is not venting
(R62, R68, R88, R99). -/
structure Routes (h : Hw) (q : Nat) (node : Node) (n : Nat) : Prop where
  valid : h.nodeValid = true
  live : h.mayOriginate q = true
  entry : ∃ e, h.excFind q node = some e ∧ e.kind = 0 ∧ e.target = n
  good : h.tblBad q ⟨.exc, node.toNat⟩ = false
  port : h.portStart n = true
  stays : h.ventState n = 0

/-- No part of the units of memory that a write of `n` bytes at `off` covers in part is in error (R215). -/
def CleanEdges (s : State) (off n : Nat) : Prop := ∀ u ∈ partUnits off n, u ∉ s.mem.poison ∧ ∀ x ∈ s.hw.gon.planted, x.1 ≠ u

/-- The registers in which the memory's errors are noted (R215, R329), beside those of `isDone`. -/
def Reg.isHbm (r : Reg) : Prop := r.isDone ∨ (∃ k, r = .hbmStatus k) ∨ ∃ d, r = .errCount d

/-- The root of trust takes a command: POR_L is released, no command runs, and no change of state is unfinished (R353, R358). -/
structure RotIdle (s : State) : Prop where
  power : s.hw.pwr.porHeld = false
  idle : s.hw.bit .secStatus Fld.secStatus_busy = false
  settled : s.nv.transPending = false

/-- The root of trust's status and the nonce of owner tokens, which the end of a command writes (R354, R358). -/
def Reg.isSec (r : Reg) : Prop := r = .secStatus ∨ r = .lcNonce

/-- A command of the root of trust has ended with RESULT `n` (R358). -/
def SecDone (h : Hw) (n : Nat) : Prop := h.fld .secStatus Fld.secStatus_result = n ∧ h.bit .secStatus Fld.secStatus_done = true

/-- A change of state towards `target` has begun (R351, R352): the chip is in reset, its START fuse stands without DONE, the key store and
the memory are empty, and the rest of OTP stands. -/
structure ChangeBegun (s t : State) (target : Nat) : Prop where
  otp : t.nv.otp = { s.nv.otp with lc := { s.nv.otp.lc with start := target } }
  keys : t.nv.keys = []
  mem : t.mem = ⟨[], []⟩
  down : t.hw.dpReady = false
  wipe : t.hw.pwr.lcWipe = true
  pending : t.pending = s.pending

/-- The retry layer of port `p` hands a received frame to the parser as it came: no codeword of it is damaged, its preamble is intact, and it
is the one expected, or stands outside the sequence (R228, R230, R231). -/
structure Handed (h : Hw) (p : Port) (rx : RxFrame) : Prop where
  codewords : rx.codewordOk = true
  preamble : h.oslux p = true → rx.preamble.checkOk = true
  order : h.retryOn p = true → rx.preamble.ctrl = true ∨ rx.preamble.lseq = (h.link p).rxNext

/-- Neither policing nor learning can stop a Vaeth frame with header `d` on port `p` (R71, R119). -/
structure PassesIn (h : Hw) (p : Port) (d : VHdr) : Prop where
  police : d.tc.toNat < 3 ∨ h.bit (.policeMap p d.tc.toNat) Fld.policeMap_en = false
  learn : (d.tc ≠ 3 ∧ d.tc ≠ 4) ∨ d.src = linkLocal ∨ h.bit (.portFwd p) Fld.portFwd_learnEn = false ∨ h.bypass p = true

/-- A word of OCTET_CFG[o] changes SHAPE or MODE. -/
def Reshapes (h : Hw) (o : Octet) (new : W64) : Prop :=
  Fld.octetCfg_shape.get new ≠ h.fld (.octetCfg o) Fld.octetCfg_shape ∨ Fld.octetCfg_mode.get new ≠ h.fld (.octetCfg o) Fld.octetCfg_mode

/-- A change of SHAPE or MODE is allowed (R226). -/
structure MayReshape (h : Hw) (o : Octet) (new : W64) : Prop where
  off : h.fld (.octetCfg o) Fld.octetCfg_enable = 0
  dark : ∀ n ∈ h.octetPorts o, h.linkState n = 0
  agrees : Fld.octetCfg_shape.get new = 3 ↔ Fld.octetCfg_mode.get new = 1

end Sys2Proof.Machine
end

