-- ==== Sys2Proof/Certificates/Slice0/Obligations.lean ====
section
/-! DEFINITION. The statements for the provers. -/

open Sys2Proof Sys2Proof.Machine

/-- While every quadrant can be reached, LEVEL_TABLE_WRITE and SPAR_WRITE complete: the word that the access aims at stands, with its PARITY computed, in all four replicas; no other register changes but EPOCH_STATUS and the counters and interrupt sources of a re-route, and nothing else but frames, records and the marks of bad entries. -/
def Obligations.LevelAndSparWritesReplicate : Prop :=
  (∀ (l : Level) (q : Quad) (i : BitVec 16) (acc : Acc) (v : W64) (s : State),
    i.toNat < levelSize l → s.hw.quadReach q = true → (∀ k, k < 4 → s.hw.err.hubLost.get k = false) →
    ∃ t, exec (.levelTableWrite l q i acc v) s = .next t ∧
      (∀ k, k < 4 → t.hw.reg (levelReg l k i.toNat) = withParity (s.hw.writeWord (levelReg l q i.toNat) acc v)) ∧
      OnlyHw pathParts (fun r => r.isEpoch ∨ ∃ k, k < 4 ∧ r = levelReg l k i.toNat) s t) ∧
  (∀ (q : Quad) (spar : BitVec 12) (w : Fin 32) (acc : Acc) (v : W64) (s : State),
    s.hw.quadReach q = true → (∀ k, k < 4 → s.hw.err.hubLost.get k = false) →
    ∃ t, exec (.sparWrite q spar w acc v) s = .next t ∧
      (∀ k, k < 4 → t.hw.reg (.sparTbl k (32 * spar.toNat + w)) =
        withParity (s.hw.writeWord (.sparTbl q (32 * spar.toNat + w)) acc v)) ∧
      OnlyHw pathParts (fun r => r.isEpoch ∨ ∃ k, k < 4 ∧ r = .sparTbl k (32 * spar.toNat + w)) s t)

/-- PIN_SEED_WRITE completes with the written word in FWD_SEED and, outside a STAGE_COMMIT, with EPOCH one higher if the write changed PIN_SEED and as before if it did not. MIRROR_CFG_WRITE completes with the written word in its register and the session's count back at 0, and changes nothing else. -/
def Obligations.SeedAndMirrorWrites : Prop :=
  (∀ (acc : Acc) (v : W64) (s : State), s.hw.pwr.porHeld = false → s.hw.fwd.gathered = none →
    ∃ t, exec (.pinSeedWrite acc v) s = .next t ∧ t.hw.reg .fwdSeed = s.hw.writeWord .fwdSeed acc v ∧
      t.hw.fld .epochStatus Fld.epochStatus_epoch =
        (if t.hw.fld .fwdSeed Fld.fwdSeed_pinSeed = s.hw.fld .fwdSeed Fld.fwdSeed_pinSeed then
          s.hw.fld .epochStatus Fld.epochStatus_epoch else (s.hw.fld .epochStatus Fld.epochStatus_epoch + 1) % 2 ^ 32) ∧
      OnlyHw pathParts (fun r => r = .fwdSeed ∨ r.isEpoch) s t) ∧
  (∀ (m : Fin 16) (acc : Acc) (v : W64) (s : State), s.hw.pwr.porHeld = false →
    ∃ t, exec (.mirrorCfgWrite m acc v) s = .next t ∧ t.hw.reg (.mirrorCfg m) = s.hw.writeWord (.mirrorCfg m) acc v ∧
      aget m.val t.hw.fwd.mirror = none ∧ OnlyHw [.fwd] (fun r => r = .mirrorCfg m) s t)

/-- SHAPER_WRITE of a port's shaper completes with the written word in its register, both buckets full to the burst sizes of its words (16 KiB where they say less), and OVERBOOK set just when the CIRs of the port's eight shapers sum to more than 90 % of its line rate; POLICER_WRITE likewise without OVERBOOK. Only the written register, SCHED_PORT of a shaper's port, and buckets change. -/
def Obligations.ShaperAndPolicerWritesFill : Prop :=
  (∀ (p : Port) (c : Cls) (peak : Bool) (acc : Acc) (v : W64) (s : State),
    s.hw.portStart p = true → s.hw.quadReach (portDie p) = true →
    ∃ t, exec (.shaperWrite p c peak acc v) s = .next t ∧
      t.hw.reg (.shaper p c (if peak then 1 else 0)) = s.hw.writeWord (.shaper p c (if peak then 1 else 0)) acc v ∧
      (t.hw.shaperNow p c).c = ((max (t.hw.fld (.shaper p c 0) Fld.shaper_burst) 16 * 1024 * 80 : Nat) : Int) ∧
      (t.hw.shaperNow p c).p = ((max (t.hw.fld (.shaper p c 1) Fld.shaper_burst) 16 * 1024 * 80 : Nat) : Int) ∧
      t.hw.bit (.schedPort p) Fld.schedPort_overbook =
        decide (9 * t.hw.lineRate p < 10 * ((List.range 8).map fun k => t.hw.fld (.shaper p k 0) Fld.shaper_rate).sum) ∧
      OnlyHw [.egr] (fun r => r = .shaper p c (if peak then 1 else 0) ∨ r = .schedPort p) s t) ∧
  (∀ (q : Quad) (k : Port) (peak : Bool) (acc : Acc) (v : W64) (s : State), s.hw.quadReach q = true →
    ∃ t, exec (.policerWrite q k peak acc v) s = .next t ∧
      t.hw.reg (.policer q k (if peak then 1 else 0)) = s.hw.writeWord (.policer q k (if peak then 1 else 0)) acc v ∧
      aget (.policer q k) t.hw.egr.buckets = none ∧
      OnlyHw [.egr] (fun r => r = .policer q k (if peak then 1 else 0)) s t)

/-- A write that changes SPILL_GIB while SPILL_EN is 1 or spilled bytes remain leaves SPILL_CFG unchanged and sets BUF_STATUS.CFG_ERR; a write with its fields in range that leaves SPILL_GIB as it was completes with the written word. No other register changes, and nothing else. -/
def Obligations.SpillCfgWriteIsGuarded : Prop :=
  ∀ (q : Quad) (acc : Acc) (v : W64) (s : State), s.hw.quadReach q = true →
    (Fld.spillCfg_spillGib.get (s.hw.writeWord (.spillCfg q) acc v) ≠ s.hw.fld (.spillCfg q) Fld.spillCfg_spillGib →
      (s.hw.bit (.spillCfg q) Fld.spillCfg_spillEn = true ∨ s.hw.spillUsed q ≠ 0) →
      ∃ t, exec (.spillCfgWrite q acc v) s = .next t ∧ t.hw.reg (.spillCfg q) = s.hw.reg (.spillCfg q) ∧
        t.hw.bit (.bufStatus q) Fld.bufStatus_cfgErr = true ∧ OnlyHw [] (fun r => r = .bufStatus q) s t) ∧
    (Fld.spillCfg_spillGib.get (s.hw.writeWord (.spillCfg q) acc v) = s.hw.fld (.spillCfg q) Fld.spillCfg_spillGib →
      (∀ k, k < 4 → s.hw.fld (.spillCfg k) Fld.spillCfg_spillGib ≤ 24 ∧
        s.hw.fld .gondolaCfg Fld.gondolaCfg_exportGib + 4 * s.hw.fld (.spillCfg k) Fld.spillCfg_spillGib ≤ 368) →
      1 ≤ Fld.spillCfg_spillBwPct.get (s.hw.writeWord (.spillCfg q) acc v) →
      Fld.spillCfg_spillBwPct.get (s.hw.writeWord (.spillCfg q) acc v) ≤ 100 →
      ∃ t, exec (.spillCfgWrite q acc v) s = .next t ∧ t.hw.reg (.spillCfg q) = s.hw.writeWord (.spillCfg q) acc v ∧
        OnlyHw [] (fun r => r = .spillCfg q) s t)

/-- On a port that is not a bypass port, PORT_VENT completes with VENT_REQ 1 and, from service, VENT_STATE 1; PORT_UNVENT with 0 and 0; on a bypass port neither changes anything. VENT_COMPLETE, once no frame toward a venting port remains, leads to VENT_STATE 2 with the vent event of the P-die latched for the host. A VENT_NOTICE sets PEER_VENT of its port, or with SCOPE 1 of every port that faces the chip, and clears it when its STATE says returning; one addressed to the node of the chip is a report and leaves an error record. The frame is no longer waiting. Nothing changes but links, ports, frames, records and messages. -/
def Obligations.VentingMovesThePort : Prop :=
  (∀ (p : Port) (s : State), s.hw.portStart p = true → s.hw.quadReach (portDie p) = true → s.hw.bypass p = false →
    (s.hw.ventState p = 0 →
      ∃ t, exec (.portVent p) s = .next t ∧ t.hw.fld (.portFwd p) Fld.portFwd_ventReq = 1 ∧ t.hw.ventState p = 1 ∧
        OnlyHw linkParts Reg.isLink s t) ∧
    (s.hw.ventState p ≠ 0 →
      ∃ t, exec (.portVent p) s = .next t ∧ t.hw.fld (.portFwd p) Fld.portFwd_ventReq = 1 ∧ t.hw.ventState p = s.hw.ventState p ∧
        OnlyHw [] (fun r => r = .portFwd p) s t) ∧
    (s.hw.ventState p ≠ 0 →
      ∃ t, exec (.portUnvent p) s = .next t ∧ t.hw.fld (.portFwd p) Fld.portFwd_ventReq = 0 ∧ t.hw.ventState p = 0 ∧
        OnlyHw linkParts Reg.isLink s t) ∧
    (s.hw.ventState p = 0 →
      ∃ t, exec (.portUnvent p) s = .next t ∧ t.hw.fld (.portFwd p) Fld.portFwd_ventReq = 0 ∧ t.hw.ventState p = 0 ∧
        OnlyHw [] (fun r => r = .portFwd p) s t)) ∧
  (∀ (p : Port) (s : State), s.hw.bypass p = true → exec (.portVent p) s = .next s ∧ exec (.portUnvent p) s = .next s) ∧
  (∀ (p : Port) (s : State), s.hw.portStart p = true → s.hw.ventState p = 1 →
    (∀ x ∈ s.hw.buf.held, ∀ c ∈ x.copies, c.port ≠ p.val) →
    ∃ t, exec (.ventComplete p) s = .next t ∧ t.hw.ventState p = 2 ∧
      (t.hw.reg .hostIrqSts).getLsbD (1 + portDie p) = true ∧ OnlyHw linkParts Reg.isLink s t) ∧
  (∀ (p : Port) (x : Taken) (s : State), (s.hw.takeFrame p [0x72]).1 = some x →
    (x.hdr.dst = linkLocal → bits x.hdr.opData.toNat 60 2 ≠ 3 →
      ∃ t, exec (.ventNoticeReceive p) s = .next t ∧
        (∀ m, m ∈ (if bits x.hdr.opData.toNat 62 2 = 1 then s.hw.facing p else [p.val]) →
          t.hw.bit (.portFwd m) Fld.portFwd_peerVent = decide (bits x.hdr.opData.toNat 60 2 ≠ 2)) ∧
        t.hw.buf.taken = s.hw.buf.taken.filter (fun y => y.id != x.id) ∧ OnlyHw linkParts Reg.isLink s t) ∧
    (x.hdr.dst ≠ linkLocal → (s.hw.err.quadQ.get (portDie p)).length < 4096 →
      ∃ t, exec (.ventNoticeReceive p) s = .next t ∧ t.hw.buf.taken = s.hw.buf.taken.filter (fun y => y.id != x.id) ∧
        (∃ r ∈ t.hw.err.quadQ.get (portDie p), r.die = portDie p ∧ r.unit = p) ∧
        OnlyHw doneParts Reg.isDone s t))

/-- NOTICE_REPORT_RECEIVE of a waiting BP_NOTICE, DISCARD_NOTICE or PATH_EPOCH takes the frame out and, while the agent's queue has room, leaves a record of its die and port in the queue; its code is the model's free value (log entry 12), for the spec names none. Routing tables and links stand; so do they when VENT_NOTICE is such a report (VentingMovesThePort). -/
def Obligations.NoticeReportIsRecorded : Prop :=
  ∀ (p : Port) (x : Taken) (s : State), (s.hw.takeFrame p [0x70, 0x71, 0x73]).1 = some x →
    (s.hw.err.quadQ.get (portDie p)).length < 4096 →
    ∃ t, exec (.noticeReportReceive p) s = .next t ∧
      t.hw.buf.taken = s.hw.buf.taken.filter (fun y => y.id != x.id) ∧
      (∃ r ∈ t.hw.err.quadQ.get (portDie p), r.die = portDie p ∧ r.unit = p) ∧
      OnlyHw (.hst :: .out :: sendParts) (fun r => r.isRing = true ∨ r.isNote) s t

/-- CIRCUIT_MAP_WRITE completes with the map word and its PARITY while the circuit is OFF, EMPTY or DOWN; CIRCUIT_ENABLE takes OFF to RETRAINING on a port that no circuit holds, CIRCUIT_VENT takes LIVE to VENTING with a re-route and DOWN to VENTING, CIRCUIT_EMPTY takes VENTING to EMPTY once no frame toward the port remains, CIRCUIT_RETRAIN takes EMPTY or DOWN to RETRAINING, CIRCUIT_DISABLE takes EMPTY or DOWN to OFF, and CIRCUIT_RETRAIN_TIMEOUT leads to DOWN. A command or a map write that its state does not allow changes nothing but CMD_ERR. -/
def Obligations.CircuitCommandsMoveTheState : Prop :=
  (∀ (i : Fin 256) (acc : Acc) (v : W64) (s : State), s.hw.pwr.porHeld = false →
    s.hw.circuitState i = 0 ∨ s.hw.circuitState i = 3 ∨ s.hw.circuitState i = 5 →
    ∃ t, exec (.circuitMapWrite i acc v) s = .next t ∧
      t.hw.reg (.circuitMap i) = withParity (s.hw.writeWord (.circuitMap i) acc v) ∧
      OnlyHw linkParts (fun r => r = .circuitMap i ∨ r.isLink) s t) ∧
  (∀ (i : Fin 256) (s : State), s.hw.pwr.porHeld = false → s.hw.circuitState i = 0 → s.hw.bypass (s.hw.circuitPort i) = false →
    ∃ t, exec (.circuitEnable i) s = .next t ∧ t.hw.circuitState i = 4 ∧ OnlyHw linkParts Reg.isLink s t) ∧
  (∀ (i : Fin 256) (s : State), s.hw.pwr.porHeld = false → s.hw.circuitState i = 1 →
    ∃ t, exec (.circuitVent i) s = .next t ∧ t.hw.circuitState i = 2 ∧
      (s.hw.fwd.gathered = none →
        t.hw.fld .epochStatus Fld.epochStatus_epoch = (s.hw.fld .epochStatus Fld.epochStatus_epoch + 1) % 2 ^ 32) ∧
      OnlyHw pathParts (fun r => r = .circuitCtl i ∨ r.isEpoch) s t) ∧
  (∀ (i : Fin 256) (s : State), s.hw.pwr.porHeld = false → s.hw.circuitState i = 5 →
    ∃ t, exec (.circuitVent i) s = .next t ∧ t.hw.circuitState i = 2 ∧ OnlyHw [] (fun r => r = .circuitCtl i) s t) ∧
  (∀ (i : Fin 256) (s : State), s.hw.pwr.porHeld = false → s.hw.circuitState i = 3 ∨ s.hw.circuitState i = 5 →
    (∃ t, exec (.circuitRetrain i) s = .next t ∧ t.hw.circuitState i = 4 ∧ OnlyHw linkParts Reg.isLink s t) ∧
    (∃ t, exec (.circuitDisable i) s = .next t ∧ t.hw.circuitState i = 0 ∧ OnlyHw linkParts Reg.isLink s t)) ∧
  (∀ (i : Fin 256) (s : State), s.hw.circuitState i = 2 →
    (∀ x ∈ s.hw.buf.held, ∀ c ∈ x.copies, c.port ≠ s.hw.circuitPort i) →
    ∃ t, exec (.circuitEmpty i) s = .next t ∧ t.hw.circuitState i = 3 ∧ (t.hw.reg .hostIrqSts).getLsbD 5 = true ∧
      OnlyHw linkParts Reg.isLink s t) ∧
  (∀ (i : Fin 256) (s : State), s.hw.circuitState i = 4 → s.hw.linkUp (s.hw.circuitPort i) = false →
    s.hw.linkState (s.hw.circuitPort i) = 0 ∨ s.hw.linkState (s.hw.circuitPort i) = 1 ∨
      100 * slotsUs ≤ s.hw.linkAge (s.hw.circuitPort i) →
    ∃ t, exec (.circuitRetrainTimeout i) s = .next t ∧ t.hw.circuitState i = 5 ∧ (t.hw.reg .hostIrqSts).getLsbD 5 = true ∧
      OnlyHw linkParts Reg.isLink s t) ∧
  (∀ (i : Fin 256) (acc : Acc) (v : W64) (c : Instr) (s : State), s.hw.pwr.porHeld = false →
    (c = .circuitMapWrite i acc v ∧ (s.hw.circuitState i = 1 ∨ s.hw.circuitState i = 2 ∨ s.hw.circuitState i = 4)) ∨
      (c = .circuitEnable i ∧ (s.hw.circuitState i ≠ 0 ∨ s.hw.bypass (s.hw.circuitPort i) = true)) ∨
      (c = .circuitVent i ∧ s.hw.circuitState i ≠ 1 ∧ s.hw.circuitState i ≠ 5) ∨
      ((c = .circuitRetrain i ∨ c = .circuitDisable i) ∧ s.hw.circuitState i ≠ 3 ∧ s.hw.circuitState i ≠ 5) →
    ∃ t, exec c s = .next t ∧ t.hw.bit (.circuitCtl i) Fld.circuitCtl_cmdErr = true ∧ OnlyHw [] (fun r => r = .circuitCtl i) s t)

/-- OCTET_ENABLE of an octet that is awake completes with ENABLE set and every DARK port of it in RETRAINING when each of its lanes has a valid stored record and in TRAINING otherwise; OCTET_DISABLE clears ENABLE and leaves every port of the octet DARK. OCTET_SHAPE_CHANGE, a write of OCTET_CFG: with a field out of range, or a change of SHAPE or MODE that R226 forbids, it only sets CFG_ERR. Otherwise the written word stands; a change of SHAPE or MODE returns the octet's PORT_FWD registers to their Reset values, a written ENABLE of 1 takes the DARK ports out of DARK, and one of 0 where it read 1 takes every port to DARK. -/
def Obligations.OctetCommandsDarkenAndLight : Prop :=
  (∀ (o : Octet) (s : State), s.hw.quadReach (o / 32) = true → s.hw.fatalChip = false → s.hw.fatalQ (o / 32) = false →
    s.hw.asleep o = false → s.hw.parked (o / 32) = false →
    ∃ t, exec (.octetEnable o) s = .next t ∧ t.hw.fld (.octetCfg o) Fld.octetCfg_enable = 1 ∧
      (∀ n ∈ s.hw.octetPorts o, s.hw.linkState n = 0 → t.hw.linkState n = if s.hw.calReady s.nv n then 2 else 1) ∧
      (∀ n, s.hw.linkState n ≠ 0 → t.hw.linkState n = s.hw.linkState n) ∧
      t.nv = s.nv ∧ t.mem = s.mem ∧ t.pending = s.pending) ∧
  (∀ (o : Octet) (s : State), s.hw.quadReach (o / 32) = true →
    ∃ t, exec (.octetDisable o) s = .next t ∧ t.hw.fld (.octetCfg o) Fld.octetCfg_enable = 0 ∧
      (∀ n ∈ s.hw.octetPorts o, t.hw.linkState n = 0) ∧ (∀ n, n / 8 ≠ o.val → t.hw.linkState n = s.hw.linkState n) ∧
      t.nv = s.nv ∧ t.mem = s.mem ∧ t.pending = s.pending) ∧
  (∀ (o : Octet) (acc : Acc) (v new : W64) (s : State), s.hw.quadReach (o / 32) = true → new = s.hw.writeWord (.octetCfg o) acc v →
    ((Fld.octetCfg_laneUcwMax.get new = 0 ∨ Fld.octetCfg_lossHoldUs.get new < 150 ∨ (Reshapes s.hw o new ∧ ¬MayReshape s.hw o new)) →
      ∃ t, exec (.octetShapeChange o acc v) s = .next t ∧ t.hw.reg (.octetCfg o) = s.hw.reg (.octetCfg o) ∧
        t.hw.bit (.octetStatus o) Fld.octetStatus_cfgErr = true ∧ OnlyHw [] (fun r => r = .octetStatus o) s t) ∧
    (Fld.octetCfg_laneUcwMax.get new ≠ 0 → 150 ≤ Fld.octetCfg_lossHoldUs.get new → (Reshapes s.hw o new → MayReshape s.hw o new) →
      (Fld.octetCfg_enable.get new = 0 → s.hw.fld (.octetCfg o) Fld.octetCfg_enable = 0 →
        ∃ t, exec (.octetShapeChange o acc v) s = .next t ∧ t.hw.reg (.octetCfg o) = new ∧
          (Reshapes s.hw o new → (∀ n, n / 8 = o.val → t.hw.reg (.portFwd n) = Reg.reset (.portFwd n)) ∧
            OnlyHw pathParts (fun r => r = .octetCfg o ∨ (∃ n, n / 8 = o.val ∧ r = .portFwd n) ∨ r.isEpoch) s t) ∧
          (¬Reshapes s.hw o new → OnlyHw [] (fun r => r = .octetCfg o) s t)) ∧
      (Fld.octetCfg_enable.get new = 0 → s.hw.fld (.octetCfg o) Fld.octetCfg_enable = 1 →
        ∃ t, exec (.octetShapeChange o acc v) s = .next t ∧ t.hw.reg (.octetCfg o) = new ∧
          (∀ n ∈ s.hw.octetPorts o, t.hw.linkState n = 0) ∧ t.nv = s.nv ∧ t.mem = s.mem ∧ t.pending = s.pending) ∧
      (Fld.octetCfg_enable.get new = 1 → acc ≠ .hi → s.hw.fatalChip = false → s.hw.fatalQ (o / 32) = false →
        s.hw.asleep o = false → s.hw.parked (o / 32) = false →
        ∃ t, exec (.octetShapeChange o acc v) s = .next t ∧ t.hw.reg (.octetCfg o) = new ∧
          (∀ n ∈ t.hw.octetPorts o, t.hw.linkState n ≠ 0) ∧ t.nv = s.nv ∧ t.mem = s.mem ∧ t.pending = s.pending)))

/-- TRAINING_COMPLETE within the bound, on lanes enough for the port, completes: a port whose peer is capable enters UP with every lane in TX_MASK and those not kept out in RX_MASK, and another has FEC lock and waits for LINK_STATE. TRAINING_TIMEOUT of a full training that passes 50 ms leads to DOWN, RETRAIN_TIMEOUT of a fast retrain without FEC lock for 100 µs to full TRAINING, and NO_OSLUX_PEER 1 ms after FEC lock without an Oslux 400 peer to DOWN. Only links, ports, frames, records and messages change. -/
def Obligations.TrainingEnds : Prop :=
  (∀ (p : Port) (s : State), s.hw.linkLive p = true → s.hw.lanesSuffice p = true →
    (s.hw.linkState p = 1 ∧ s.hw.linkAge p ≤ 50 * slotsMs) ∨ (s.hw.linkState p = 2 ∧ s.hw.linkAge p ≤ 100 * slotsUs) →
    (s.hw.capable p = true →
      ∃ t, exec (.trainingComplete p) s = .next t ∧ t.hw.linkState p = 3 ∧
        t.hw.fld (.portLink p) Fld.portLink_txMask = 2 ^ s.hw.portLanes p - 1 ∧
        t.hw.fld (.portLink p) Fld.portLink_rxMask = s.hw.goodLanes p ∧ OnlyHw linkParts Reg.isLink s t) ∧
    (s.hw.capable p = false →
      ∃ t, exec (.trainingComplete p) s = .next t ∧ t.hw.linkState p = s.hw.linkState p ∧
        (t.hw.link p).lockAt = some (s.hw.slot (portDie p)) ∧ OnlyHw linkParts Reg.isLink s t)) ∧
  (∀ (p : Port) (s : State), s.hw.linkLive p = true → s.hw.linkState p = 1 → 50 * slotsMs ≤ s.hw.linkAge p →
    ∃ t, exec (.trainingTimeout p) s = .next t ∧ t.hw.linkState p = 5 ∧ OnlyHw linkParts Reg.isLink s t) ∧
  (∀ (p : Port) (s : State), s.hw.linkLive p = true → s.hw.linkState p = 2 → (s.hw.link p).lockAt = none →
    100 * slotsUs ≤ s.hw.linkAge p →
    ∃ t, exec (.retrainTimeout p) s = .next t ∧ t.hw.linkState p = 1 ∧ OnlyHw linkParts Reg.isLink s t) ∧
  (∀ (p : Port) (k : Nat) (s : State), s.hw.linkLive p = true → s.hw.oslux p = true → s.hw.linkState p = 1 ∨ s.hw.linkState p = 2 →
    s.hw.capable p = false → (s.hw.link p).lockAt = some k → k + slotsMs ≤ s.hw.slot (portDie p) →
    ∃ t, exec (.noOsluxPeer p) s = .next t ∧ t.hw.linkState p = 5 ∧ OnlyHw linkParts Reg.isLink s t)

/-- LINK_LOST takes an UP port to LOST with RETRY_HELD as the port's retry is enabled. LIGHT_RETURN takes LOST to RETRAINING, or to TRAINING where a lane has no valid stored record, and notes the light in DOWN. LOSS_HOLD_EXPIRE takes LOST to DOWN with its retry state cleared once LOSS_HOLD_US have passed, and DOWN_RETRY_TIMER takes an enabled DOWN port with light to TRAINING when none was tried for 100 ms. Only links, ports, frames, records and messages change. -/
def Obligations.LinkLossAndReturn : Prop :=
  (∀ (p : Port) (c : LossCause) (s : State), s.hw.linkLive p = true → s.hw.linkUp p = true →
    ∃ t, exec (.linkLost p c) s = .next t ∧ t.hw.linkState p = 4 ∧
      t.hw.bit (.portLink p) Fld.portLink_retryHeld = s.hw.retryOn p ∧ OnlyHw linkParts Reg.isLink s t) ∧
  (∀ (p : Port) (s : State), s.hw.linkLive p = true → s.hw.linkState p = 4 →
    ∃ t, exec (.lightReturn p) s = .next t ∧ t.hw.linkState p = (if s.hw.calReady s.nv p then 2 else 1) ∧
      OnlyHw linkParts Reg.isLink s t) ∧
  (∀ (p : Port) (s : State), s.hw.linkLive p = true → s.hw.linkState p = 5 →
    ∃ t, exec (.lightReturn p) s = .next t ∧ (t.hw.link p).light = true ∧ OnlyHw [.lgt] noRegs s t) ∧
  (∀ (p : Port) (s : State), s.hw.linkLive p = true → s.hw.linkState p = 4 →
    slotsUs * s.hw.fld (.octetCfg (p / 8)) Fld.octetCfg_lossHoldUs ≤ s.hw.linkAge p →
    ∃ t, exec (.lossHoldExpire p) s = .next t ∧ t.hw.linkState p = 5 ∧
      t.hw.bit (.portLink p) Fld.portLink_retryHeld = false ∧ (t.hw.link p).held = [] ∧ OnlyHw linkParts Reg.isLink s t) ∧
  (∀ (p : Port) (s : State), s.hw.linkLive p = true → s.hw.linkState p = 5 → (s.hw.link p).light = true →
    s.hw.bit (.octetCfg (p / 8)) Fld.octetCfg_enable = true →
    (∀ k, (s.hw.link p).lastTry = some k → k + 100 * slotsMs ≤ s.hw.slot (portDie p)) →
    ∃ t, exec (.downRetryTimer p) s = .next t ∧ t.hw.linkState p = 1 ∧
      (t.hw.link p).lastTry = some (s.hw.slot (portDie p)) ∧ OnlyHw linkParts Reg.isLink s t)

/-- Outside DARK, FULL_TRAIN leads to TRAINING, FAST_RETRAIN to RETRAINING where every lane of the port has a valid stored record and to TRAINING otherwise, and REJOIN keeps no lane out any longer; in DARK each of the three only sets CMD_ERR. -/
def Obligations.LinkCommandsTrain : Prop :=
  ∀ (p : Port) (s : State), s.hw.portStart p = true → s.hw.quadReach (portDie p) = true →
    (s.hw.linkState p ≠ 0 →
      (∃ t, exec (.fullTrain p) s = .next t ∧ t.hw.linkState p = 1 ∧ OnlyHw linkParts Reg.isLink s t) ∧
      (∃ t, exec (.fastRetrain p) s = .next t ∧ t.hw.linkState p = (if s.hw.calReady s.nv p then 2 else 1) ∧
        OnlyHw linkParts Reg.isLink s t) ∧
      (∃ t, exec (.rejoin p) s = .next t ∧ (t.hw.link p).stuck = 0 ∧ (t.hw.link p).fails = [] ∧ OnlyHw [.lgt] noRegs s t)) ∧
    (s.hw.linkState p = 0 → ∀ c, c = Instr.fullTrain p ∨ c = Instr.fastRetrain p ∨ c = Instr.rejoin p →
      ∃ t, exec c s = .next t ∧ t.hw.bit (.linkCtl p) Fld.linkCtl_cmdErr = true ∧ OnlyHw [] (fun r => r = .linkCtl p) s t)

/-- LANE_FAIL of a receive lane of an UP port completes: on an Oslux 400 port of several lanes with NARROW_EN = 1 its bit of RX_MASK is cleared and the port stays UP while a lane remains; the last lane, a single lane, and any lane with NARROW_EN = 0 or in 200G mode take the port to LOST. LANE_REJOIN sets the bit of a lane that has been out for 1 ms and is not kept out. LINK_STATE_TIMER sends one LINK_STATE frame outside the retry sequence once 100 µs have passed. -/
def Obligations.LanesNarrowAndRejoin : Prop :=
  (∀ (p : Port) (l : Fin 4) (s : State), s.hw.linkLive p = true → s.hw.linkUp p = true →
    Nat.testBit (s.hw.fld (.portLink p) Fld.portLink_rxMask) l = true →
    (s.hw.oslux p = true → s.hw.portLanes p ≠ 1 → s.hw.bit (.octetCfg (p / 8)) Fld.octetCfg_narrowEn = true →
      s.hw.fld (.portLink p) Fld.portLink_rxMask ≠ 2 ^ l.val →
      ∃ t, exec (.laneFail p l) s = .next t ∧ t.hw.linkState p = 3 ∧
        t.hw.fld (.portLink p) Fld.portLink_rxMask = s.hw.fld (.portLink p) Fld.portLink_rxMask - 2 ^ l.val ∧
        OnlyHw linkParts Reg.isLink s t) ∧
    (s.hw.oslux p = false ∨ s.hw.portLanes p = 1 ∨ s.hw.bit (.octetCfg (p / 8)) Fld.octetCfg_narrowEn = false ∨
        s.hw.fld (.portLink p) Fld.portLink_rxMask = 2 ^ l.val →
      ∃ t, exec (.laneFail p l) s = .next t ∧ t.hw.linkState p = 4 ∧ OnlyHw linkParts Reg.isLink s t)) ∧
  (∀ (p : Port) (l : Fin 4) (s : State), s.hw.linkLive p = true → s.hw.linkUp p = true → s.hw.oslux p = true →
    l.val < s.hw.portLanes p → Nat.testBit (s.hw.fld (.portLink p) Fld.portLink_rxMask) l = false →
    (s.hw.link p).stuck.getLsbD l = false → (∀ k, aget l.val (s.hw.link p).outAt = some k → k + slotsMs ≤ s.hw.slot (portDie p)) →
    ∃ t, exec (.laneRejoin p l) s = .next t ∧ t.hw.linkState p = 3 ∧
      t.hw.fld (.portLink p) Fld.portLink_rxMask = s.hw.fld (.portLink p) Fld.portLink_rxMask + 2 ^ l.val ∧
      OnlyHw linkParts Reg.isLink s t) ∧
  (∀ (p : Port) (s : State), s.hw.linkLive p = true → s.hw.linkUp p = true → s.hw.oslux p = true →
    (s.hw.link p).lsAt + 100 * slotsUs ≤ s.hw.slot (portDie p) →
    ∃ t l pre f, exec (.linkStateTimer p) s = .next t ∧ t.hw.out = l ++ .frame p (some pre) f :: s.hw.out ∧
      (Preamble.ofWord pre).ctrl = true ∧ f.hdr.opcode = 0x74 ∧ (t.hw.link p).lsAt = s.hw.slot (portDie p) ∧
      OnlyHw linkParts Reg.isDone s t)

/-- LINK_STATE_RECEIVE on an Oslux 400 port notes the peer's node, port and EXPECT_LSEQ and its CAPS bit 0 in PEER_OSLUX, and on a 200G port leaves the link as it is; either way the frame waits no longer. NAK_RECEIVE on an UP port that retries and still holds the frame ACK + 1 replays from it, and ACK_CONTROL_BLOCK sends the last LSEQ received in order, with the NAK where one is due. -/
def Obligations.LinkStateAndRetry : Prop :=
  (∀ (p : Port) (x : Taken) (s : State), (s.hw.takeFrame p [0x74]).1 = some x →
    ∃ t, exec (.linkStateReceive p) s = .next t ∧ OnlyHw linkParts Reg.isLink s t ∧
      (∀ y ∈ t.hw.buf.taken, y.id ≠ x.id) ∧
      (s.hw.oslux p = true →
        (t.hw.link p).peer = some (x.hdr.src, bits x.hdr.opData.toNat 0 10, BitVec.ofNat 16 (bits x.hdr.opData.toNat 26 16)) ∧
        t.hw.fld (.portLink p) Fld.portLink_peerOslux = bits x.hdr.opData.toNat 56 1) ∧
      (s.hw.oslux p = false → t.hw.reg (.portLink p) = s.hw.reg (.portLink p) ∧ t.hw.lgt = s.hw.lgt ∧
        t.hw.buf.taken = s.hw.buf.taken.filter fun y => y.id != x.id)) ∧
  (∀ (p : Port) (ack : BitVec 16) (f : RetryFrame) (s : State), s.hw.linkLive p = true → s.hw.linkUp p = true → s.hw.retryOn p = true →
    f ∈ (s.hw.link p).held → f.lseq = ack + 1 →
    ∃ t, exec (.nakReceive p ack) s = .next t ∧ (t.hw.link p).replayFrom = some (ack + 1) ∧
      (∀ g ∈ (t.hw.link p).held, g ∈ (s.hw.link p).held) ∧ OnlyHw [.lgt] noRegs s t) ∧
  (∀ (p : Port) (s : State), s.hw.linkLive p = true → s.hw.linkUp p = true → s.hw.retryOn p = true →
    ∃ t, exec (.ackControlBlock p) s = .next t ∧
      t.hw.out = .control p ((s.hw.link p).rxNext - 1) (s.hw.nakDue p) :: s.hw.out ∧
      (s.hw.nakDue p = true → t.hw.nakDue p = false) ∧ OnlyHw [.lgt, .out] noRegs s t)

/-- FLOOR_GROUP_DROP of a group in use clears its bit of UP_MASK, and FLOOR_GROUP_REJOIN sets it again once its rings hold lock and no parked quadrant keeps the path narrow; the last lane of a hub path cuts its quadrant off. RING_UNLOCK of a floor ring in use drops its group and RING_RELOCK lets it rejoin; RING_UNLOCK of the ring of a single-lane port in use takes the port to LOST, and RING_RELOCK of a lane's ring is counted. HUB_PATH_LOST cuts the quadrant off and takes both of its hub paths out of use, and HUB_PATH_RESTORED, while both have a locked lane, gives it the exception entries and multicast groups of a quadrant that stayed reachable. -/
def Obligations.FloorAndHubPaths : Prop :=
  (∀ (k : FloorPath) (g : Fin 16) (s : State), g.val < pathWidth k → Nat.testBit (s.hw.fld (.floorPath k) Fld.floorPath_upMask) g = true →
    (∃ t, exec (.floorGroupDrop k g) s = .next t ∧
      t.hw.fld (.floorPath k) Fld.floorPath_upMask = s.hw.fld (.floorPath k) Fld.floorPath_upMask - 2 ^ g.val ∧
      (∀ q, hubOf k = some q → s.hw.fld (.floorPath k) Fld.floorPath_upMask = 2 ^ g.val → t.hw.err.hubLost.get q = true) ∧
      OnlyHw sendParts (fun r => r = .floorPath k ∨ r.isNote) s t) ∧
    (s.hw.pwr.porHeld = false → (k.val, g.val) ∉ s.hw.lgt.floorOut →
      ∃ t, exec (.ringUnlock (.floor k g)) s = .next t ∧ (k.val, g.val) ∈ t.hw.lgt.floorOut ∧
        t.hw.fld (.floorPath k) Fld.floorPath_upMask = s.hw.fld (.floorPath k) Fld.floorPath_upMask - 2 ^ g.val ∧
        OnlyHw (.lgt :: sendParts) (fun r => r = .floorPath k ∨ r.isNote) s t)) ∧
  (∀ (k : FloorPath) (g : Fin 16) (s : State), g.val < pathWidth k → Nat.testBit (s.hw.fld (.floorPath k) Fld.floorPath_upMask) g = false →
    (k.val, g.val) ∉ s.hw.lgt.floorOut → s.hw.dpReady = true → s.hw.pathNarrow k = false →
    ∃ t, exec (.floorGroupRejoin k g) s = .next t ∧
      t.hw.fld (.floorPath k) Fld.floorPath_upMask = s.hw.fld (.floorPath k) Fld.floorPath_upMask + 2 ^ g.val ∧
      t.nv = s.nv ∧ t.mem = s.mem ∧ t.pending = s.pending ∧
      ((∀ q, hubOf k = some q → s.hw.err.hubLost.get q = false) → OnlyHw [] (fun r => r = .floorPath k) s t)) ∧
  (∀ (p : Port) (s : State), s.hw.pwr.porHeld = false → s.hw.portLanes p = 1 → s.hw.linkLive p = true → s.hw.linkUp p = true →
    Nat.testBit (s.hw.fld (.portLink p) Fld.portLink_rxMask) 0 = true →
    ∃ t, exec (.ringUnlock (.lane p)) s = .next t ∧ t.hw.linkState p = 4 ∧ OnlyHw linkParts Reg.isLink s t) ∧
  (∀ (s : State), s.hw.pwr.porHeld = false →
    (∀ (k : FloorPath) (g : Fin 16), ∃ t, exec (.ringRelock (.floor k g)) s = .next t ∧ (k.val, g.val) ∉ t.hw.lgt.floorOut ∧
      OnlyHw [.lgt] (fun r => r.isCnt = true) s t) ∧
    (∀ p : Port, ∃ t, exec (.ringRelock (.lane p)) s = .next t ∧ OnlyHw [] (fun r => r.isCnt = true) s t)) ∧
  (∀ (q : Quad) (s : State), s.hw.pwr.porHeld = false → s.hw.err.hubLost.get q = false →
    ∃ t, exec (.hubPathLost q) s = .next t ∧ t.hw.err.hubLost.get q = true ∧ t.hw.quadReach q = false ∧
      t.hw.fld (.floorPath (12 + 2 * q)) Fld.floorPath_upMask = 0 ∧ t.hw.fld (.floorPath (13 + 2 * q)) Fld.floorPath_upMask = 0 ∧
      OnlyHw sendParts (fun r => r = .floorPath (12 + 2 * q) ∨ r = .floorPath (13 + 2 * q) ∨ r.isNote) s t) ∧
  (∀ (q k : Quad) (s : State), s.hw.pwr.porHeld = false → s.hw.err.hubLost.get q = true → s.hw.err.hubLost.get k = false →
    (∀ j, j < k.val → s.hw.err.hubLost.get j = true) → s.hw.hubLanes (12 + 2 * q) ≠ 0 → s.hw.hubLanes (13 + 2 * q) ≠ 0 →
    ∃ t, exec (.hubPathRestored q) s = .next t ∧ t.hw.err.hubLost.get q = false ∧
      t.hw.fwd.exc.get q = s.hw.fwd.exc.get k ∧ t.hw.fwd.mcast.get q = s.hw.fwd.mcast.get k ∧
      t.nv = s.nv ∧ t.mem = s.mem ∧ t.pending = s.pending)

/-- EMITTER_DEAD of a lit primary leaves it DEAD with its bit of EMIT_MAP set; its spare SERVES where it stood IDLE and unretired, or was in a hand-over with it. EMITTER_DEAD of a serving spare leaves it DEAD and retired, and one of a spare in its hand-over leaves it DEAD and retired and the primary WARNED. While Gliuk runs, HANDOVER_STEP_DONE takes the spare from LIGHTING to LOCKING to COMBINING, and at the end the failing emitter is RETIRED with its bit set and the spare SERVES; SPARE_FAILED leaves the spare DEAD and retired and the primary WARNED, and the hand-over is gone. While Gliuk does not run, both wait. EMIT_NO_SPARE_REPEAT of a WARNED emitter at or below SPARE_PERMIL without an IDLE spare queues its record again, at most once a second, while its queue has room. -/
def Obligations.EmittersFailAndHandOver : Prop :=
  (∀ (e : Emitter) (o : Nat) (s : State), octetOf e = some o → s.hw.emitState e = 1 ∨ s.hw.emitState e = 2 ∨ s.hw.emitState e = 3 →
    ∃ t, exec (.emitterDead e) s = .next t ∧ t.hw.emitState e = 5 ∧ t.nv.isRetired e = true ∧
      (s.hw.handoverOf e = none → s.hw.emitState (spareOf o) = 6 → s.nv.isRetired (spareOf o) = false → t.hw.emitState (spareOf o) = 10) ∧
      (∀ sp, s.hw.handoverOf e = some (e.val, sp) → sp ≠ e.val → t.hw.emitState sp = 10) ∧
      t.mem = s.mem ∧ t.pending = s.pending) ∧
  (∀ (e : Emitter) (s : State), octetOf e = none → s.hw.emitState e = 10 →
    ∃ t, exec (.emitterDead e) s = .next t ∧ t.hw.emitState e = 5 ∧ t.nv.isRetired e = true ∧ t.mem = s.mem ∧ t.pending = s.pending) ∧
  (∀ (e : Emitter) (f : Nat) (s : State), octetOf e = none → s.hw.emitState e = 7 ∨ s.hw.emitState e = 8 ∨ s.hw.emitState e = 9 →
    s.hw.handoverOf e = some (f, e.val) → f ≠ e.val → f < 144 →
    ∃ t, exec (.emitterDead e) s = .next t ∧ t.hw.emitState e = 5 ∧ t.hw.emitState f = 2 ∧ t.nv.isRetired e = true ∧
      (f, e.val) ∉ t.hw.lgt.handover ∧ t.mem = s.mem ∧ t.pending = s.pending) ∧
  (∀ (e : Emitter) (f sp : Nat) (s : State), s.hw.handoverOf e = some (f, sp) → f ≠ sp → f < 144 → sp < 144 → s.hw.gliuk = true →
    (s.hw.emitState sp = 7 ∨ s.hw.emitState sp = 8 →
      ∃ t, exec (.handoverStepDone e) s = .next t ∧ t.hw.emitState sp = s.hw.emitState sp + 1 ∧
        t.hw.emitState f = s.hw.emitState f ∧ t.mem = s.mem ∧ t.pending = s.pending) ∧
    (s.hw.emitState sp = 9 →
      ∃ t, exec (.handoverStepDone e) s = .next t ∧ t.hw.emitState sp = 10 ∧ t.hw.emitState f = 4 ∧ t.nv.isRetired f = true ∧
        (f, sp) ∉ t.hw.lgt.handover ∧ t.mem = s.mem ∧ t.pending = s.pending) ∧
    (∃ t, exec (.spareFailed e) s = .next t ∧ t.hw.emitState sp = 5 ∧ t.hw.emitState f = 2 ∧ t.nv.isRetired sp = true ∧
      (f, sp) ∉ t.hw.lgt.handover ∧ t.mem = s.mem ∧ t.pending = s.pending)) ∧
  (∀ (e : Emitter) (s : State), s.hw.gliuk = false →
    (∃ t, exec (.handoverStepDone e) s = .next t ∧ t.hw = s.hw) ∧ ∃ t, exec (.spareFailed e) s = .next t ∧ t.hw = s.hw) ∧
  (∀ (e : Emitter) (o : Nat) (s : State), octetOf e = some o → s.hw.gliuk = true → s.hw.emitState e = 2 →
    s.hw.emitLevel e ≤ s.hw.fld .emitCfg Fld.emitCfg_sparePermil → s.hw.emitState (spareOf o) ≠ 6 →
    (∀ k, aget e.val s.hw.lgt.noSpareAt = some k → k + slotsSec ≤ s.hw.tim.local_) →
    (s.hw.err.quadQ.get (e / 36)).length < 4096 →
    ∃ t r, exec (.emitNoSpareRepeat e) s = .next t ∧ t.hw.err.quadQ.get (e / 36) = s.hw.err.quadQ.get (e / 36) ++ [r] ∧
      r.code = 0x0212 ∧ r.unit = e.val ∧ aget e.val t.hw.lgt.noSpareAt = some s.hw.tim.local_ ∧
      OnlyHw (.lgt :: sendParts) Reg.isNote s t)

/-- While no command runs, a store-writing command with GUARD other than 0xCA1B ends at once with BAD_GUARD and DONE; with the right guard SAVE_OCTET, SAVE_FLOOR and RECOMMISSION_FLOOR begin (BUSY reads 1), RECOMMISSION_OCTET begins while every port of the octet is DARK, LOAD_OCTET while no port of the octet is IN_SERVICE, and LOAD_FLOOR always; each leaves the store as it was. CAL_COMMAND_DONE ends the running command: BUSY reads 0, DONE 1, every record that the command holds stands in the store when the store works, and RESULT reads OK unless the command failed. -/
def Obligations.CalibrationCommands : Prop :=
  (∀ (c : Instr) (g : BitVec 16) (s : State), s.hw.pwr.porHeld = false → s.hw.bit .calStatus Fld.calStatus_busy = false → g ≠ 0xca1b →
    (∃ o, c = .saveOctet o g) ∨ (∃ k, c = .saveFloor k g) ∨ (∃ o b l, c = .recommissionOctet o g b l) ∨ (∃ k l, c = .recommissionFloor k g l) →
    ∃ t, exec c s = .next t ∧ t.hw.fld .calStatus Fld.calStatus_result = 5 ∧ t.hw.bit .calStatus Fld.calStatus_done = true ∧
      OnlyHw [.hst, .out] (fun r => r = .calStatus ∨ r = .hostIrqSts) s t) ∧
  (∀ (c : Instr) (s : State), s.hw.pwr.porHeld = false → s.hw.bit .calStatus Fld.calStatus_busy = false →
    (∃ o, c = .saveOctet o 0xca1b) ∨ (∃ k, c = .saveFloor k 0xca1b) ∨ (∃ k l, c = .recommissionFloor k 0xca1b l) ∨ (∃ k, c = .loadFloor k) ∨
      (∃ o b l, c = .recommissionOctet o 0xca1b b l ∧ ∀ n ∈ s.hw.octetPorts o, s.hw.linkState n = 0) ∨
      (∃ o, c = .loadOctet o ∧ ∀ n ∈ s.hw.octetPorts o, s.hw.inService n = false) →
    ∃ t, exec c s = .next t ∧ t.hw.bit .calStatus Fld.calStatus_busy = true ∧ t.hw.lgt.cal.isSome = true ∧
      t.nv = s.nv ∧ t.mem = s.mem ∧ t.pending = s.pending) ∧
  (∀ (cmd target : Nat) (s : State), s.hw.lgt.cal = some (cmd, target) →
    ∃ t, exec (.calCommandDone true) s = .next t ∧ t.hw.bit .calStatus Fld.calStatus_busy = false ∧
      t.hw.bit .calStatus Fld.calStatus_done = true ∧ t.hw.lgt.cal = none ∧
      t.hw.fld .calStatus Fld.calStatus_result = s.hw.lgt.calResult % 8 ∧
      ((s.hw.lgt.calWrites.map (·.1)).Nodup → ∀ w ∈ s.hw.lgt.calWrites,
        (cmd % 2 ≠ 0 → t.nv.calOf w.1 = w.2) ∧ (cmd % 2 = 0 → t.nv.calFloorOf w.1 = w.2.1)) ∧
      t.nv.otp = s.nv.otp ∧ t.nv.keys = s.nv.keys ∧ t.nv.laneFence = s.nv.laneFence ∧ t.mem = s.mem ∧ t.pending = s.pending)

/-- A step with a command at the front of the queue is that command's effect on the state with the rest of the queue; on an empty queue outside a power-on reset the four data-plane time bases and the local count advance by one slot, and, while the servo slews nothing away, nothing changes but time and the starvation timers. That the idle step is a slot of time is the model's choice (log entry 6). -/
def Obligations.StepRunsFrontCommand : Prop :=
  (∀ (c : Instr) (rest : List Instr) (s : State),
    step { s with pending := c :: rest } = exec c { s with pending := rest }) ∧
  (∀ s : State, s.pending = [] → s.hw.pwr.porHeld = false →
    ∃ t, step s = .next t ∧ (∀ q, t.hw.slot q = (s.hw.slot q + 1) % 2 ^ 64) ∧ t.hw.tim.local_ = s.hw.tim.local_ + 1 ∧
      t.nv = s.nv ∧ t.mem = s.mem ∧ t.pending = [] ∧ (s.hw.tim.slew = none → OnlyHw [.tim, .egr] noRegs s t))

/-- The check of a header is the CRC-16 over its first 30 bytes in wire order: from 0xFFFF, bit by bit from the most significant bit of each byte, the register shifts left and takes 0x1021 where the bit shifted out differs from the message bit, with no final XOR. A sealed header shows it in its last two bytes, the high byte first, and over the bytes of "123456789" the same computation gives 0x29B1. -/
def Obligations.HeaderCheckIsCrc16 : Prop :=
  (∀ h : VHdr, h.checkOf = (h.bytes.take 30).foldl (fun c b => (List.range 8).foldl (fun (c : BitVec 16) i =>
      if c.getLsbD 15 != b.getLsbD (7 - i) then (c <<< 1) ^^^ 0x1021 else c <<< 1) c) 0xffff) ∧
  (∀ h : VHdr, h.seal.bytes.drop 30 = [h.checkOf.extractLsb' 8 8, h.checkOf.extractLsb' 0 8] ∧ h.seal.bytes.take 30 = h.bytes.take 30) ∧
  crc16 [0x31, 0x32, 0x33, 0x34, 0x35, 0x36, 0x37, 0x38, 0x39] = 0x29b1

/-- Writing any header as its 32 bytes, with whatever follows, and reading a header from them gives every field back, reserved fields among them; and reading any 32 bytes as a header and writing it gives those bytes. So no bit of the layout of R43 is dropped or counted twice. -/
def Obligations.HeaderBytesRoundTrip : Prop :=
  (∀ (h : VHdr) (l : List Byte), VHdr.ofBytes (h.bytes ++ l) = h) ∧
  (∀ l : List Byte, l.length = 32 → (VHdr.ofBytes l).bytes = l)

/-- From every state whose exported memory lists strictly rising addresses and no zero byte, every step that answers a next state leaves it so, whatever the command: two memories that read the same are then the same data. -/
def Obligations.MemoryStaysCanonical : Prop :=
  ∀ s t : State, s.mem.wf = true → step s = .next t → t.mem.wf = true

/-- State.reset lists no byte of exported memory and no poisoned unit, its queue is empty, and every byte reads 0. -/
def Obligations.ResetMemoryIsCanonical : Prop :=
  State.reset.mem.wf = true ∧ State.reset.pending = [] ∧ State.reset.mem.poison = [] ∧ ∀ a, State.reset.mem.read a = 0

/-- Whatever the command, a reset of any kind and a write of LANE_FENCE among them, a next state has every lane fenced that was fenced before, unless the command is the removal of power (POWER_REMOVAL, or POWER_ON_RESET with the loss of power as its cause). -/
def Obligations.FencesHoldUntilPowerGoes : Prop :=
  ∀ (c : Instr) (s t : State) (k : Nat), c ≠ .powerRemoval → c ≠ .powerOnReset .power → exec c s = .next t →
    s.nv.laneFence.getLsbD k = true → t.nv.laneFence.getLsbD k = true

/-- FRAME_RECEIVE completes on a port that takes frames and hands this one to the parser, in either mode. With room in the landing zone and no test error armed: a frame below 64 bytes leaves an error record of reason 1 and no frame; an LLDP frame goes to the management cores; a Vaeth frame of any class that passes the parse checks, that policing and learning let through, waits for its unit where the chip consumes it; and one of TC0 to TC2 that the chip does not consume, for which the exception table names a port that takes new frames, is held with one copy toward that port. Every frame already held stays. Without room, a frame only counts. -/
def Obligations.ReceivedFrames : Prop :=
  ∀ (p : Port) (rx : RxFrame) (s : State), s.hw.takesFrames p rx.preamble.ctrl = true → Handed s.hw p rx →
    s.hw.bit .errInject Fld.errInject_arm = false →
    (s.hw.landingRoom p (s.hw.rxClass (portDie p) rx.frame (s.hw.isVaeth (portDie p) rx.frame)) rx.frame.len = false →
      ∃ t, exec (.frameReceive p rx none) s = .next t ∧ t.hw.buf = s.hw.buf ∧ t.hw.mgt = s.hw.mgt ∧
        OnlyHw [.lgt, .free, .tim, .err, .hst, .out] (fun r => r.isCnt = true ∨ r.isRing = true ∨ r = .withdrawCtl) s t) ∧
    (s.hw.landingRoom p (s.hw.rxClass (portDie p) rx.frame (s.hw.isVaeth (portDie p) rx.frame)) rx.frame.len = true →
      (rx.frame.len < 64 → (s.hw.err.quadQ.get (portDie p)).length < 4096 →
        ∃ t, exec (.frameReceive p rx none) s = .next t ∧ t.hw.buf = s.hw.buf ∧
          (∃ r ∈ t.hw.err.quadQ.get (portDie p), r.code = 0x0101 ∧ r.die = portDie p ∧ r.unit = p ∧ r.d0 = 1) ∧
          OnlyHw [.lgt, .free, .tim, .err, .mgt, .hst, .out] (fun r => r.isNote ∨ r.isRing = true ∨ r = .withdrawCtl) s t) ∧
      (64 ≤ rx.frame.len → rx.frame.len ≤ s.hw.dieFld (portDie p) .vaethCfg Fld.vaethCfg_maxFrame → rx.frame.fcsOk = true →
        (s.hw.isVaeth (portDie p) rx.frame = false → s.hw.classify (portDie p) rx.frame = .lldp →
          ∃ t, exec (.frameReceive p rx none) s = .next t ∧ t.hw.buf = s.hw.buf ∧
            t.hw.mgt.cpuFrames = s.hw.mgt.cpuFrames ++ [(p.val, rx.frame)] ∧
            OnlyHw [.lgt, .free, .tim, .err, .mgt, .hst, .out] (fun r => r.isNote ∨ r.isRing = true ∨ r = .withdrawCtl) s t) ∧
        (s.hw.isVaeth (portDie p) rx.frame = true → s.hw.headerReason (portDie p) p rx.frame rx.frame.hdr = none →
          (s.hw.consumes (portDie p) p rx.frame.hdr = true → PassesIn s.hw p rx.frame.hdr →
            ∃ t x, exec (.frameReceive p rx none) s = .next t ∧ t.hw.buf.taken = s.hw.buf.taken ++ [x] ∧ x.port = p.val ∧
              x.frame = rx.frame ∧ x.hdr = rx.frame.hdr ∧ t.hw.buf.held = s.hw.buf.held ∧
              OnlyHw [.fwd, .buf, .lgt, .free, .tim, .err, .mgt, .hst, .out] (fun r => r.isNote ∨ r.isRing = true ∨ r = .withdrawCtl) s t) ∧
          (∀ e, s.hw.consumes (portDie p) p rx.frame.hdr = false → rx.frame.hdr.tc.toNat < 3 →
            s.hw.excFind (portDie p) rx.frame.hdr.dst = some e →
            s.hw.tblBad (portDie p) ⟨.exc, rx.frame.hdr.dst.toNat⟩ = false → e.kind = 0 → s.hw.portStart e.target = true →
            s.hw.ventState e.target = 0 →
            ∃ t x, exec (.frameReceive p rx none) s = .next t ∧ x ∈ t.hw.buf.held ∧ x.frame = rx.frame ∧ x.inPort = some p.val ∧
              x.die = portDie p ∧ x.copies.map (·.port) = [e.target] ∧ t.hw.buf.taken = s.hw.buf.taken ∧
              (∀ y ∈ s.hw.buf.held, y.id < s.hw.buf.nextId → y ∈ t.hw.buf.held) ∧
              OnlyHw [.fwd, .buf, .egr, .lgt, .free, .tim, .err, .mgt, .hst, .out]
                (fun r => r.isNote ∨ r.isRing = true ∨ r = .withdrawCtl) s t))))

/-- LEARN_INSERT takes the oldest request of its P-die and completes: for a node that has no entry in any replica, a learned entry toward the port stands in all four while the port has room and R69 finds a place, and the tables stand as they were while it does not. LEARN_AGE_EXPIRE of a learned entry completes: one that was not hit for LEARN_AGE seconds goes from all four replicas, which raises EPOCH by one; another loses its HIT and nothing else. -/
def Obligations.LearningInsertsAndAges : Prop :=
  (∀ (q : Quad) (src : Node) (p : Nat) (rest : List (Node × Nat)) (s : State),
    s.hw.fwd.learnQ.get q = (src, p) :: rest → (∀ k, k < 4 → s.hw.excFind k src = none) →
    (∀ o, s.hw.learnCount p < s.hw.fld (.portFwd p) Fld.portFwd_learnLimit → s.hw.excPlace src = some o →
      ∃ t e, exec (.learnInsert q) s = .next t ∧ e.node = src ∧ e.static = false ∧ e.kind = 0 ∧ e.target = p ∧ e.ovf = o ∧
        (∀ k, k < 4 → t.hw.fwd.exc.get k = s.hw.fwd.exc.get k ++ [e]) ∧ t.hw.fwd.learnQ.get q = rest ∧
        OnlyHw [.fwd] noRegs s t) ∧
    (s.hw.fld (.portFwd p) Fld.portFwd_learnLimit ≤ s.hw.learnCount p ∨ s.hw.excPlace src = none →
      ∃ t, exec (.learnInsert q) s = .next t ∧ (∀ k, k < 4 → t.hw.fwd.exc.get k = s.hw.fwd.exc.get k) ∧ t.hw.fwd.learnQ.get q = rest ∧
        OnlyHw [.fwd] (fun r => r.isCnt = true) s t)) ∧
  (∀ (node : Node) (e : ExcEnt) (s : State), s.hw.excFind (s.hw.epochDie.getD 0) node = some e → e.static = false →
    s.hw.fld .fwdCfg Fld.fwdCfg_learnAge ≠ 0 →
    (e.lastHit + s.hw.fld .fwdCfg Fld.fwdCfg_learnAge * slotsSec ≤ s.hw.slot (s.hw.epochDie.getD 0) → s.hw.fwd.gathered = none →
      ∃ t, exec (.learnAgeExpire node) s = .next t ∧ (∀ k, k < 4 → ∀ x ∈ t.hw.fwd.exc.get k, x.node ≠ node) ∧
        (∀ k, k < 4 → ∀ x ∈ s.hw.fwd.exc.get k, x.node ≠ node → x ∈ t.hw.fwd.exc.get k) ∧
        t.hw.fld .epochStatus Fld.epochStatus_epoch = (s.hw.fld .epochStatus Fld.epochStatus_epoch + 1) % 2 ^ 32 ∧
        OnlyHw pathParts Reg.isEpoch s t) ∧
    (s.hw.slot (s.hw.epochDie.getD 0) < e.lastHit + s.hw.fld .fwdCfg Fld.fwdCfg_learnAge * slotsSec →
      ∃ t, exec (.learnAgeExpire node) s = .next t ∧
        (∀ k, k < 4 → t.hw.fwd.exc.get k = (s.hw.fwd.exc.get k).map fun x => if x.node = node then { x with hit := false } else x) ∧
        OnlyHw [.fwd] noRegs s t))

/-- FRAME_ADMIT of a frame of any class that waits in its landing zone or block, next in order and not past its age, completes: a unicast frame that came in joins its queue, in SRAM or in spill as R103 says, while that queue is not full; a multicast frame, and a frame of the chip's own, leaves its waiting place for all its queues while R98 admits it. AGE_DISCARD of a frame past its age leaves no copy of it in a landing zone, a queue or spill, and takes out a consumed frame that waits past its age. SPILL_READBACK moves the queue's first spilled frame into SRAM while the buffer admits it and bandwidth is left, a corrected error noted, and discards it where a line cannot be corrected. STARVATION_TIMER_EXPIRE promotes a backlogged class whose timer has reached STARVE_US. Each leaves routing, links and Bridles as they are. -/
def Obligations.FramesWaitAndAge : Prop :=
  (∀ (id : Nat) (x : Held) (s : State), s.hw.heldAt id = some x → s.hw.quadOk x.die = true → s.hw.landingFirst x = true →
    s.hw.aged x = false → s.hw.bit .errInject Fld.errInject_arm = false → id < s.hw.buf.nextId →
    (∀ c, x.inPort.isSome = true → x.route.multi = false → x.copies = [c] → c.spot = .landing → s.hw.fullFor x c.port = false →
      ∃ t y, exec (.frameAdmit ⟨id, false⟩) s = .next t ∧ y ∈ t.hw.buf.held ∧ y.id = id ∧ y.frame = x.frame ∧
        y.copies = [{ c with spot := if s.hw.wantsSpill x c.port then .spill else .queue, join := s.hw.buf.nextJoin }] ∧
        OnlyHw sendParts Reg.isNote s t) ∧
    (x.inPort = none ∨ x.route.multi = true → (∃ c ∈ x.copies, c.spot = .landing) → s.hw.admits x.die x.cls x.len = true →
      ∃ t y, exec (.frameAdmit ⟨id, false⟩) s = .next t ∧ y ∈ t.hw.buf.held ∧ y.id = id ∧ y.frame = x.frame ∧
        y.copies.map (·.port) = x.copies.map (·.port) ∧ (∀ k ∈ y.copies, k.spot ≠ .landing) ∧ OnlyHw sendParts Reg.isNote s t)) ∧
  (∀ (id : Nat) (x : Held) (s : State), s.hw.heldAt id = some x → s.hw.aged x = true → (∃ c ∈ x.copies, c.spot.agePoint.isSome = true) →
    id < s.hw.buf.nextId →
    ∃ t, exec (.ageDiscard id) s = .next t ∧ (∀ y ∈ t.hw.buf.held, y.id = id → ∀ c ∈ y.copies, c.spot.agePoint = none) ∧
      OnlyHw (.hst :: .out :: sendParts) (fun r => r.isNote ∨ r.isRing = true) s t) ∧
  (∀ (id : Nat) (x : Taken) (s : State), s.hw.heldAt id = none → (s.hw.buf.taken.find? fun y => y.id == id) = some x →
    s.hw.takenAged x = true →
    ∃ t, exec (.ageDiscard id) s = .next t ∧ t.hw.buf.taken = s.hw.buf.taken.filter (fun y => y.id != id) ∧
      OnlyHw (.hst :: .out :: sendParts) (fun r => r.isNote ∨ r.isRing = true) s t) ∧
  (∀ (q : Quad) (p : Port) (c : Cls) (l : HbmLine) (e : HbmErr) (x : Held) (k : Copy) (s : State),
    firstJoin (s.hw.copiesTo p fun y d => y.die == q.val && y.cls == c.val && d.spot == .spill) = some (x, k) → s.hw.quadOk q = true →
    s.hw.admits q c x.len = true → s.hw.buf.spillNow.get q + x.len ≤ s.hw.spillBudget q → s.hw.bit .errInject Fld.errInject_arm = false →
    (e ≠ .uncorrectable → ∃ t y, exec (.spillReadback q p ⟨c, l, e⟩) s = .next t ∧ y ∈ t.hw.buf.held ∧ y.id = x.id ∧ y.frame = x.frame ∧
      (∀ d ∈ y.copies, d.port = p.val → d.spot = .queue) ∧ (e = .none → OnlyHw [.buf] noRegs s t) ∧
      OnlyHw (.gon :: sendParts) Reg.isHbm s t) ∧
    (e = .uncorrectable → ∃ t, exec (.spillReadback q p ⟨c, l, e⟩) s = .next t ∧
      (∀ y ∈ t.hw.buf.held, y.id = x.id → ∀ d ∈ y.copies, d.spot ≠ .spill) ∧ OnlyHw (.gon :: .hst :: .out :: sendParts) Reg.isHbm s t)) ∧
  (∀ (p : Port) (c : Cls) (s : State), 2 ≤ c.val → s.hw.backlogged p c = true → s.hw.starveLimit p c ≠ 0 →
    s.hw.starveLimit p c ≤ (s.hw.sched p).starve.getD c 0 → c.val < (s.hw.sched p).promoted.length →
    ∃ t, exec (.starvationTimerExpire p c) s = .next t ∧ (t.hw.sched p).promoted.getD c false = true ∧ OnlyHw [.egr] noRegs s t)

/-- With no test error armed: EGRESS_SCHEDULE completes by moving the frame that the three levels pick out of its queue, to staging when its P-die is the egress die and otherwise onto the floor path with all its cells to cross. FLOOR_CELL_RECEIVE completes: with a bad CRC it only counts a retry; a good cell that is not the frame's last leaves one cell less; the last cell takes the frame to staging, leaves it on the wire where its transmission has begun, and is a loss where the port is down. TRANSMIT_START completes by sending the next held frame of a replay again, or by putting the oldest frame that may start on the wire; TRANSMIT_END completes by sending the frame on the wire out whole, with the preamble it began with, and taking its copy out. None touches routing, links' states or Bridles. -/
def Obligations.SchedulerAndWire : Prop :=
  (∀ (p : Port) (t : Nat) (pk : Option Pick) (x : Held) (c : Copy) (d : Drr) (s : State), s.hw.portStart p = true → s.hw.linkUp p = true →
    s.hw.quadOk (portDie p) = true → (s.hw.refillShapers p).schedPick p = some (t, pk) →
    (s.hw.refillShapers p).drrPick p t 16 ((s.hw.sched p).drr.getD t ⟨4, List.replicate 5 0⟩) = (some (x, c), d) →
    s.hw.bit .errInject Fld.errInject_arm = false →
    ∃ u y, exec (.egressSchedule p) s = .next u ∧ y ∈ u.hw.buf.held ∧ y.id = x.id ∧ y.frame = x.frame ∧
      y.copies.map (·.port) = x.copies.map (·.port) ∧
      (∀ k ∈ y.copies, k.port = p.val → (x.die = portDie p → k.spot = .staging ∧ k.left = 0) ∧
        (x.die ≠ portDie p → k.spot = .floor ∧ k.left = cellsOf x.len)) ∧
      OnlyHw [.buf, .egr] (fun r => r.isCnt = true) s u) ∧
  (∀ (a b : Quad) (x : Held) (c : Copy) (s : State), s.hw.quadOk a = true → s.hw.quadOk b = true → s.hw.pathUp a b = true →
    firstJoin (s.hw.buf.held.flatMap fun y => (y.copies.filter fun k =>
      y.die == a.val && portDie k.port == b.val && (k.spot == .floor || k.spot == .wire) && k.left != 0).map fun k => (y, k)) = some (x, c) →
    s.hw.bit .errInject Fld.errInject_arm = false →
    (∃ t, exec (.floorCellReceive a b true) s = .next t ∧ OnlyHw [] (fun r => r.isCnt = true) s t) ∧
    (1 < c.left → ∃ t y, exec (.floorCellReceive a b false) s = .next t ∧ y ∈ t.hw.buf.held ∧ y.id = x.id ∧ y.frame = x.frame ∧
      y.copies = (x.copies.map fun k => if k.port = c.port then { k with left := k.left - 1 } else k) ∧ OnlyHw [.buf] noRegs s t) ∧
    (c.left = 1 → c.spot = .wire ∨ s.hw.linkUp c.port = true → ∃ t y, exec (.floorCellReceive a b false) s = .next t ∧
      y ∈ t.hw.buf.held ∧ y.id = x.id ∧ y.frame = x.frame ∧
      (∀ k ∈ y.copies, k.port = c.port → k.left = 0 ∧ (c.spot = .floor → k.spot = .staging)) ∧ OnlyHw [.buf] noRegs s t) ∧
    (c.left = 1 → c.spot = .floor → s.hw.linkUp c.port = false → ∃ t, exec (.floorCellReceive a b false) s = .next t ∧
      (∀ y ∈ t.hw.buf.held, y.id = x.id → ∀ k ∈ y.copies, k.port ≠ c.port) ∧
      OnlyHw [.buf, .egr, .hst, .out] (fun r => r.isCnt = true ∨ r.isRing = true) s t)) ∧
  (∀ (p : Port) (s : State), s.hw.portStart p = true → s.hw.linkUp p = true → s.hw.quadOk (portDie p) = true →
    (s.hw.copiesTo p fun _ k => k.spot == .wire) = [] → s.hw.bit .errInject Fld.errInject_arm = false →
    (∀ f, ((s.hw.link p).replayFrom.bind fun k => (s.hw.link p).held.find? fun g => g.lseq == k) = some f →
      ∃ t, exec (.transmitStart p) s = .next t ∧ t.hw.out = .frame p.val (s.hw.preamble p f.lseq false) f.frame :: s.hw.out ∧
        OnlyHw [.lgt, .out] (fun r => r.isCnt = true) s t) ∧
    (∀ x c, ((s.hw.link p).replayFrom.bind fun k => (s.hw.link p).held.find? fun g => g.lseq == k) = none →
      firstJoin (s.hw.copiesTo p Held.mayStart) = some (x, c) →
      ∃ t y, exec (.transmitStart p) s = .next t ∧ y ∈ t.hw.buf.held ∧ y.id = x.id ∧ y.frame = x.frame ∧
        y.copies = (x.copies.map fun k => if k.port = p.val then { k with spot := .wire, bad := false } else k) ∧
        (t.hw.link p).wirePre = s.hw.preamble p (s.hw.link p).txSeq false ∧
        OnlyHw [.buf, .lgt, .tim, .free] (fun r => r.isCnt = true) s t)) ∧
  (∀ (p : Port) (x : Held) (c : Copy) (s : State), (s.hw.copiesTo p fun _ k => k.spot == .wire && k.left == 0).head? = some (x, c) →
    ∃ t l, exec (.transmitEnd p) s = .next t ∧ t.hw.out = l ++ .frame p.val (s.hw.link p).wirePre (x.onWire p c.bad) :: s.hw.out ∧
      (∀ y ∈ t.hw.buf.held, y.id = x.id → ∀ k ∈ y.copies, k.port ≠ p.val) ∧
      OnlyHw [.fwd, .buf, .egr, .hst, .out] (fun r => r.isCnt = true ∨ r.isRing = true) s t)

/-- A write of an aligned word to one of four plain fields of the frame format leaves the written word there and changes no other register; a write to an address without a register changes nothing. A read of PORT_HWM returns its word and clears what clears on a read. In a block of a quadrant whose hub path is lost a write is discarded and a read returns all bits set to 1. An access of a size or alignment that R7 does not allow reads 0 and writes nothing, and a REG_ACCESS to a denied block does nothing. Over a PCIe link that is up, a BAR2 write is the doorbell of its ring page, any other BAR2 write is discarded and counted in BAD_DOORBELLS, and a BAR2 read gives 0; a BAR4 write changes nothing and a BAR4 read gives the counter of its group where COUNTER_GRANT has its bit, else 0; a configuration read gets Request Retry Status while it is due, and else the identity and Bus Master Enable. Where those fields lie is the layout of PCI Express (PRESUMED, log entry 63). -/
def Obligations.RegisterAccess : Prop :=
  (∀ (who : Agent) (addr : BitVec 26) (acc : Acc) (v : W64) (r : Reg) (s : State), s.hw.pwr.porHeld = false →
    accDenied who addr.toNat = false → accAligned addr.toNat acc = true → regAt addr.toNat = some r →
    s.hw.blockLost addr.toNat = false → dpBlock addr.toNat = false →
    r = .fabricPrefixHi ∨ r = .fabricPrefixLo ∨ r = .vaethSa ∨ r = .vaethDa →
    ¬(0x180000 ≤ addr.toNat ∧ addr.toNat < 0x188000) →
    ∃ t, exec (.registerWrite who ⟨.bar0, addr⟩ acc v) s = .next t ∧ t.hw.reg r = s.hw.writeWord r acc v ∧ OnlyHw [.fwd] (fun x => x = r) s t) ∧
  (∀ (who : Agent) (addr : BitVec 26) (acc : Acc) (v : W64) (s : State), regAt addr.toNat = none →
    ¬(0x180000 ≤ addr.toNat ∧ addr.toNat < 0x188000) → exec (.registerWrite who ⟨.bar0, addr⟩ acc v) s = .next s) ∧
  (∀ (who : Agent) (addr : BitVec 26) (acc : Acc) (p : Port) (s : State), s.hw.pwr.porHeld = false → accDenied who addr.toNat = false →
    accAligned addr.toNat acc = true → regAt addr.toNat = some (.portHwm p) → s.hw.blockLost addr.toNat = false → s.hw.dpReady = true →
    s.hw.portStart p = true → ¬(0x180000 ≤ addr.toNat ∧ addr.toNat < 0x188100) →
    ∃ t, exec (.rcRegisterRead who ⟨.bar0, addr⟩ acc) s = .next t ∧ t.hw.out = .readData (readHalf acc (s.hw.reg (.portHwm p))) :: s.hw.out ∧
      t.hw.reg (.portHwm p) = s.hw.reg (.portHwm p) &&& ~~~(Reg.portHwm p).rcMask ∧ OnlyHw [.out] (fun x => x = .portHwm p) s t) ∧
  (∀ (who : Agent) (addr : BitVec 26) (acc : Acc) (v : W64) (s : State), s.hw.pwr.porHeld = false → accDenied who addr.toNat = false →
    accAligned addr.toNat acc = true → s.hw.dpReady = true → s.hw.blockLost addr.toNat = true →
    exec (.registerWrite who ⟨.bar0, addr⟩ acc v) s = .next s ∧
    ∃ t, exec (.rcRegisterRead who ⟨.bar0, addr⟩ acc) s = .next t ∧ t.hw.out = .readData (readHalf acc 0xffffffffffffffff) :: s.hw.out ∧
      OnlyHw [.out] noRegs s t) ∧
  (∀ (bar4 : Bool) (addr : BitVec 26) (size : Nat) (s : State), s.hw.pwr.porHeld = false →
    ¬((size = 4 ∨ size = 8) ∧ addr.toNat % size = 0) →
    exec (.badSizeAccess bar4 true addr size) s = .next s ∧
    ∃ t, exec (.badSizeAccess bar4 false addr size) s = .next t ∧ t.hw.out = .readData 0 :: s.hw.out ∧ OnlyHw [.out] noRegs s t) ∧
  (∀ (addr : BitVec 26) (acc : Acc) (v : W64) (s : State), accDenied .regAccess addr.toNat = true →
    exec (.registerWrite .regAccess ⟨.bar0, addr⟩ acc v) s = .next s ∧ exec (.rcRegisterRead .regAccess ⟨.bar0, addr⟩ acc) s = .next s) ∧
  (∀ (r : Ring) (addr : BitVec 26) (acc : Acc) (v : W64) (s : State), s.hw.pwr.porHeld = false → s.hw.hst.pcieUp = true →
    addr.toNat / 4096 = r.val →
    (addr.toNat % 4096 = 0 → exec (.registerWrite .host ⟨.bar2, addr⟩ .full v) s = exec (.sqDoorbell r v) s) ∧
    (addr.toNat % 4096 = 8 → exec (.registerWrite .host ⟨.bar2, addr⟩ .full v) s = exec (.cqDoorbell r v) s) ∧
    (acc ≠ .full ∨ (addr.toNat % 4096 ≠ 0 ∧ addr.toNat % 4096 ≠ 8) →
      ∃ t, exec (.registerWrite .host ⟨.bar2, addr⟩ acc v) s = .next t ∧ t.hw.fld .hqStatus Fld.hqStatus_badDoorbells =
        min (s.hw.fld .hqStatus Fld.hqStatus_badDoorbells + 1) (2 ^ Fld.hqStatus_badDoorbells.width - 1) ∧
        OnlyHw [] (fun x => x = .hqStatus) s t) ∧
    ∃ t, exec (.rcRegisterRead .host ⟨.bar2, addr⟩ acc) s = .next t ∧ t.hw.out = .readData 0 :: s.hw.out ∧ OnlyHw [.out] noRegs s t) ∧
  (∀ (d : Fin 9) (g : Fin 8) (k : Fin 64) (addr : BitVec 26) (acc : Acc) (v : W64) (s : State), s.hw.pwr.porHeld = false →
    s.hw.hst.pcieUp = true → s.hw.dpReady = true → s.hw.blockLost (Reg.addr (.cntVal d (64 * g + k))) = false →
    addr.toNat = (8 * d + g) * 4096 + 8 * k →
    exec (.registerWrite .host ⟨.bar4, addr⟩ acc v) s = .next s ∧
    ∃ t, exec (.rcRegisterRead .host ⟨.bar4, addr⟩ .full) s = .next t ∧ OnlyHw [.out] noRegs s t ∧
      t.hw.out = .readData (if (s.hw.reg (.counterGrant ((8 * d + g) / 64))).getLsbD ((8 * d + g) % 64)
        then s.hw.reg (.cntVal d (64 * g + k)) &&& 0xffffffffffff else 0) :: s.hw.out) ∧
  (∀ (addr : BitVec 26) (s : State), s.hw.pwr.porHeld = false → s.hw.hst.pcieUp = true →
    (s.hw.rrsNow = true →
      ∃ t, exec (.rcRegisterRead .host ⟨.config, addr⟩ .lo) s = .next t ∧ t.hw.out = .retryStatus :: s.hw.out ∧ OnlyHw [.out] noRegs s t) ∧
    (s.hw.rrsNow = false →
      ∃ t w, exec (.rcRegisterRead .host ⟨.config, addr⟩ .full) s = .next t ∧ t.hw.out = .readData w :: s.hw.out ∧ OnlyHw [.out] noRegs s t ∧
        (addr.toNat = 0 → w.toNat % 2 ^ 32 = 0x10241f6d ∧ (w.getLsbD 34 = s.hw.hst.busMaster))))

/-- Outside a power-on reset, in a block that can be reached, a REGISTER_WRITE to the address of MIRROR_CFG, CIRCUIT_MAP, FWD_SEED, GONDOLA_CFG, GONDOLA_WIN, TU_SET_HI, TU_STEP, TU_FREQ, HIST_CTL, ERR_INJECT or LANE_FENCE does what the command of that register does. -/
def Obligations.RegisterWriteIsTheCommand : Prop :=
  ∀ (who : Agent) (addr : BitVec 26) (acc : Acc) (v : W64) (r : Reg) (c : Instr) (s : State), s.hw.pwr.porHeld = false →
    accDenied who addr.toNat = false → accAligned addr.toNat acc = true → regAt addr.toNat = some r → s.hw.blockLost addr.toNat = false →
    s.hw.dpReady = true → ¬(0x180000 ≤ addr.toNat ∧ addr.toNat < 0x188000) →
    (r = .laneFence ∧ c = .laneFenceWrite acc v) ∨ (r = .fwdSeed ∧ c = .pinSeedWrite acc v) ∨ (r = .gondolaCfg ∧ c = .gondolaCfgWrite acc v) ∨
      (r = .tuSetHi ∧ c = .timeSet acc v) ∨ (r = .tuStep ∧ c = .timeStep acc v) ∨ (r = .tuFreq ∧ c = .timeFreq acc v) ∨
      (r = .histCtl ∧ c = .historyRequest acc v) ∨ (r = .errInject ∧ c = .errInjectArm acc v) ∨
      (∃ m : Fin 16, r = .mirrorCfg m ∧ c = .mirrorCfgWrite m acc v) ∨ (∃ m : Fin 16, r = .gondolaWin m ∧ c = .gondolaWinWrite m acc v) ∨
      (∃ i : Fin 256, r = .circuitMap i ∧ c = .circuitMapWrite i acc v) →
    exec (.registerWrite who ⟨.bar0, addr⟩ acc v) s = exec c s

/-- After a write of either word of any of the eight shapers of a port, the reserved classes TC0 and TC1 among them, OVERBOOK reads 1 just when the CIRs of the eight shapers as they then stand sum to more than nine tenths of the port's line rate; on a port of one lane at 400 Gb/s that is more than 3,600 units of 100 Mb/s. -/
def Obligations.OverbookFollowsTheRates : Prop :=
  ∀ (p : Port) (c : Cls) (peak : Bool) (acc : Acc) (v : W64) (s : State), s.hw.portStart p = true → s.hw.quadReach (portDie p) = true →
    ∃ t, exec (.shaperWrite p c peak acc v) s = .next t ∧
      (t.hw.bit (.schedPort p) Fld.schedPort_overbook = true ↔
        9 * t.hw.lineRate p < 10 * ((List.range 8).map fun k => t.hw.fld (.shaper p k 0) Fld.shaper_rate).sum) ∧
      (t.hw.oslux p = true → t.hw.portLanes p = 1 → t.hw.txLanes p ≤ 1 →
        (t.hw.bit (.schedPort p) Fld.schedPort_overbook = true ↔
          3600 < ((List.range 8).map fun k => t.hw.fld (.shaper p k 0) Fld.shaper_rate).sum))

/-- A write of CIRCUIT_MAP[i], by its command or by a register write, while the circuit is LIVE (1), VENTING (2) or RETRAINING (4) leaves the whole register as it was and sets CMD_ERR; no other register changes. -/
def Obligations.CircuitMapIsLockedWhileInUse : Prop :=
  ∀ (i : Fin 256) (acc : Acc) (v : W64) (s : State), s.hw.pwr.porHeld = false →
    s.hw.circuitState i = 1 ∨ s.hw.circuitState i = 2 ∨ s.hw.circuitState i = 4 →
    ∀ c, c = Instr.circuitMapWrite i acc v ∨ (∃ (who : Agent) (addr : BitVec 26), c = .registerWrite who ⟨.bar0, addr⟩ acc v ∧
        accDenied who addr.toNat = false ∧ accAligned addr.toNat acc = true ∧ regAt addr.toNat = some (.circuitMap i) ∧
        dpBlock addr.toNat = false ∧ ¬(0x180000 ≤ addr.toNat ∧ addr.toNat < 0x188000)) →
      ∃ t, exec c s = .next t ∧ t.hw.reg (.circuitMap i) = s.hw.reg (.circuitMap i) ∧
        t.hw.bit (.circuitCtl i) Fld.circuitCtl_cmdErr = true ∧ OnlyHw [] (fun r => r = .circuitCtl i) s t

/-- CORE_RATE_SAMPLE leaves the sample in CORE_RATE with SAMPLED 1 and RATE_LOW as the rates fall below 920; at rates of 500 or more nothing is FATAL. TABLE_PARITY_REPAIR of a level entry rewrites it from the first quadrant whose replica is good, and takes an entry without a good replica out of all four. DEPTH_SAMPLE leaves in VOQ_STAT the depth of every queue of the P-die. Each takes one sample in its interval, 10 µs and 1 µs of the quadrant's time base, and a second one in the same interval changes nothing. LANE_FENCE_WRITE fences the unfused lanes it names, and nothing of OTP, the stores or memory changes but LANE_FENCE. -/
def Obligations.TablesAndRatesFollowTheAgent : Prop :=
  (∀ (q : Quad) (p c : BitVec 12) (tj : Byte) (s : State), s.hw.pwr.porHeld = false → s.hw.qdBusy q = false → s.hw.railsLow q = false →
    500 ≤ p.toNat → 500 ≤ c.toNat → s.hw.slot q / 6400 ≠ s.hw.err.rateNo.get q →
    ∃ t, exec (.coreRateSample q p c tj) s = .next t ∧ t.hw.fld (.coreRate q) Fld.coreRate_pRate = p.toNat ∧
      t.hw.fld (.coreRate q) Fld.coreRate_cRate = c.toNat ∧ t.hw.fld (.coreRate q) Fld.coreRate_tjMax = tj.toNat ∧
      t.hw.bit (.coreRate q) Fld.coreRate_sampled = true ∧
      t.hw.bit (.coreRate q) Fld.coreRate_rateLow = decide (p.toNat < 920 ∨ c.toNat < 920) ∧
      OnlyHw [.tim, .free, .err, .mgt] (fun r => r = .coreRate q ∨ r.isNote) s t) ∧
  (∀ (q : Quad) (p c : BitVec 12) (tj : Byte) (s : State), s.hw.slot q / 6400 = s.hw.err.rateNo.get q →
    exec (.coreRateSample q p c tj) s = .next s) ∧
  (∀ (q : Quad) (l : Level) (i : Nat) (s : State), s.hw.tblBad q ⟨.level l, i⟩ = true →
    (∀ k : Quad, s.hw.tblBad k ⟨.level l, i⟩ = false → (∀ j, j < k.val → s.hw.tblBad j ⟨.level l, i⟩ = true) →
      ∃ t, exec (.tableParityRepair q ⟨.level l, i⟩) s = .next t ∧ t.hw.tblBad q ⟨.level l, i⟩ = false ∧
        t.hw.reg (levelReg l q i) = s.hw.reg (levelReg l k i) ∧ OnlyHw [.fwd] (fun r => r = levelReg l q i) s t) ∧
    ((∀ k, k < 4 → s.hw.tblBad k ⟨.level l, i⟩ = true) →
      ∃ t, exec (.tableParityRepair q ⟨.level l, i⟩) s = .next t ∧ (∀ k, k < 4 → t.hw.reg (levelReg l k i) = 0) ∧
        (∀ k, t.hw.tblBad k ⟨.level l, i⟩ = false) ∧
        OnlyHw pathParts (fun r => (∃ k, k < 4 ∧ r = levelReg l k i) ∨ r.isEpoch) s t)) ∧
  (∀ (q : Quad) (s : State), s.hw.slot q / 640 = s.hw.buf.sampledAt.get q → exec (.depthSample q) s = .next s) ∧
  (∀ (q : Quad) (s : State), s.hw.quadOk q = true → s.hw.slot q / 640 ≠ s.hw.buf.sampledAt.get q →
    ∃ t, exec (.depthSample q) s = .next t ∧ t.hw.buf.samples.get q = s.hw.buf.samples.get q + 1 ∧ t.hw.buf.held = s.hw.buf.held ∧
      (∀ n k, k < 8 → t.hw.fld (.voqStat q (8 * n + k)) Fld.voqStat_depth = units4k (s.hw.depth q n k) % 2 ^ 24) ∧
      OnlyHw [.buf] (fun r => (∃ v, r = .voqStat q v) ∨ ∃ n, r = .portHwm n) s t) ∧
  (∀ (acc : Acc) (v : W64) (s : State), s.hw.pwr.porHeld = false →
    ∃ t, exec (.laneFenceWrite acc v) s = .next t ∧
      t.nv = { s.nv with laneFence := s.nv.laneFence ||| (accWord acc 0 v &&& accMask acc &&& ~~~s.nv.otp.laneFused) } ∧
      OnlyHw (.coll :: sendParts) Reg.isNote { s with nv := t.nv } t)

/-- A set, a step, a refused jump, a change of frequency and the entry into or the end of holdover leave the four data-plane time bases and the local count as they were; and what a slot of time does to those counts and to the starvation timers does not depend on fabric time, its fraction or TU_FREQ. -/
def Obligations.FabricTimeMovesNoTimer : Prop :=
  (∀ (c : Instr) (s : State), (∃ a v, c = .timeSet a v) ∨ (∃ a v, c = .timeStep a v) ∨ (∃ a v, c = .timeFreq a v) ∨ c = .ptpSourceLost ∨
      (∃ p, c = .ptpReceive p) →
    ∃ t, exec c s = .next t ∧ t.hw.tim.slot = s.hw.tim.slot ∧ t.hw.tim.local_ = s.hw.tim.local_) ∧
  (∀ (f g : Nat) (v : W64) (s : State),
    let s' := s.onHw fun h => { h with tim := { h.tim with fabric := f, frac := g } }.setReg .tuFreq v
    (slotPasses s').hw.tim.slot = (slotPasses s).hw.tim.slot ∧ (slotPasses s').hw.tim.local_ = (slotPasses s).hw.tim.local_ ∧
      (slotPasses s').hw.egr = (slotPasses s).hw.egr)

/-- A write whose ADJ lies within 5 × 10^8 units of 10^−12 stands in TU_FREQ and moves fabric time by nothing; any other leaves TU_FREQ and sets CFG_ERR. Each slot of 25/16 ns then adds exactly (25/16) × (1 + ADJ × 10^−12) ns to fabric time with its fraction, modulo the range of its seconds, while the servo slews no refused offset away. -/
def Obligations.FrequencyIsBoundedAndExact : Prop :=
  (∀ (acc : Acc) (v : W64) (s : State), s.hw.pwr.porHeld = false →
    let w := s.hw.writeWord .tuFreq acc v
    (((w.setWidth 32).toInt).natAbs ≤ 500000000 →
      ∃ t, exec (.timeFreq acc v) s = .next t ∧ t.hw.reg .tuFreq = w ∧ OnlyHw [] (fun r => r = .tuFreq) s t) ∧
    (500000000 < ((w.setWidth 32).toInt).natAbs →
      ∃ t, exec (.timeFreq acc v) s = .next t ∧ t.hw.reg .tuFreq = s.hw.reg .tuFreq ∧
        t.hw.bit .tuStatus Fld.tuStatus_cfgErr = true ∧ OnlyHw [] (fun r => r = .tuStatus) s t)) ∧
  (∀ s : State, s.hw.pwr.porHeld = false → (((s.hw.reg .tuFreq).setWidth 32).toInt).natAbs ≤ 500000000 → s.hw.tim.slew = none →
    ((slotPasses s).hw.tim.fabric : Int) * 16000000000000 + (slotPasses s).hw.tim.frac =
      ((s.hw.tim.fabric : Int) * 16000000000000 + s.hw.tim.frac +
        25 * (1000000000000 + ((s.hw.reg .tuFreq).setWidth 32).toInt)) % (2 ^ 48 * 1000000000 * 16000000000000))

/-- A TIME_SET with nanoseconds below 10^9, and a TIME_STEP, move fabric time to the asked instant when no absolute set has been accepted yet, when FORCE is given, or when the distance is at most JUMP_NS; else fabric time stands and JUMP_REFUSED is set. A TIME_SET of 10^9 nanoseconds or more sets CFG_ERR alone, and a write of the high half alone does nothing. While the servo holds no refused offset a change of time changes nothing but fabric time and TU_STATUS. TU_NOW_READ returns nanoseconds and low seconds and latches the high seconds, and PPS_PULSE moves the pin while it is enabled, and does not raise it while it is not. -/
def Obligations.TimeCommands : Prop :=
  (∀ (acc : Acc) (v : W64) (s : State), s.hw.pwr.porHeld = false → acc ≠ .hi → s.hw.fld .tuSetNs Fld.tuSetNs_ns ≤ 999999999 →
    let sec := s.hw.fld .tuSetNs Fld.tuSetNs_secLo + v.toNat % 65536 * 2 ^ 32
    let at_ := sec * 1000000000 + s.hw.fld .tuSetNs Fld.tuSetNs_ns
    let dist := ((at_ : Int) - (s.hw.tim.fabric : Int)).natAbs
    ((s.hw.bit .tuStatus Fld.tuStatus_setOnce = false ∨ v.getLsbD 16 = true ∨ dist ≤ s.hw.fld .tuCfg Fld.tuCfg_jumpNs) →
      ∃ t, exec (.timeSet acc v) s = .next t ∧ t.hw.tim.fabric = at_ % (2 ^ 48 * 1000000000) ∧
        t.hw.bit .tuStatus Fld.tuStatus_setOnce = true ∧
        OnlyHw [.tim, .mgt, .hst, .out] (fun r => r = .tuStatus ∨ r = .hostIrqSts ∨ r.isNote) s t ∧
        (s.hw.tim.slew = none → OnlyHw [.tim] (fun r => r = .tuStatus) s t)) ∧
    (s.hw.bit .tuStatus Fld.tuStatus_setOnce = true → v.getLsbD 16 = false → s.hw.fld .tuCfg Fld.tuCfg_jumpNs < dist →
      ∃ t, exec (.timeSet acc v) s = .next t ∧ t.hw.tim = s.hw.tim ∧ t.hw.bit .tuStatus Fld.tuStatus_jumpRefused = true ∧
        OnlyHw [.free, .err, .mgt, .hst, .out] (fun r => r = .tuStatus ∨ r = .hostIrqSts ∨ r.isNote) s t)) ∧
  (∀ (acc : Acc) (v : W64) (s : State), s.hw.pwr.porHeld = false → acc ≠ .hi → 999999999 < s.hw.fld .tuSetNs Fld.tuSetNs_ns →
    ∃ t, exec (.timeSet acc v) s = .next t ∧ t.hw.bit .tuStatus Fld.tuStatus_cfgErr = true ∧ OnlyHw [] (fun r => r = .tuStatus) s t) ∧
  (∀ (v : W64) (s : State), exec (.timeSet .hi v) s = .next s) ∧
  (∀ (acc : Acc) (v : W64) (s : State), s.hw.pwr.porHeld = false → s.hw.tim.fabric < 2 ^ 48 * 1000000000 →
    let w := accWord acc 0 v &&& accMask acc
    ((s.hw.bit .tuStatus Fld.tuStatus_setOnce = false ∨ w.getLsbD 48 = true ∨
        ((w.setWidth 48).toInt).natAbs ≤ s.hw.fld .tuCfg Fld.tuCfg_jumpNs) →
      ∃ t, exec (.timeStep acc v) s = .next t ∧
        (t.hw.tim.fabric : Int) = ((s.hw.tim.fabric : Int) + (w.setWidth 48).toInt) % (2 ^ 48 * 1000000000) ∧
        OnlyHw [.tim, .mgt, .hst, .out] (fun r => r = .tuStatus ∨ r = .hostIrqSts ∨ r.isNote) s t ∧
        (s.hw.tim.slew = none → OnlyHw [.tim] noRegs s t)) ∧
    (s.hw.bit .tuStatus Fld.tuStatus_setOnce = true → w.getLsbD 48 = false →
        s.hw.fld .tuCfg Fld.tuCfg_jumpNs < ((w.setWidth 48).toInt).natAbs →
      ∃ t, exec (.timeStep acc v) s = .next t ∧ t.hw.tim = s.hw.tim ∧ t.hw.bit .tuStatus Fld.tuStatus_jumpRefused = true ∧
        OnlyHw [.free, .err, .mgt, .hst, .out] (fun r => r = .tuStatus ∨ r = .hostIrqSts ∨ r.isNote) s t)) ∧
  (∀ (acc : Acc) (s : State), s.hw.pwr.porHeld = false →
    ∃ t, exec (.tuNowRead acc) s = .next t ∧ t.hw.out = .readData (readHalf acc s.hw.tuNow) :: s.hw.out ∧
      t.hw.fld .tuNowHi Fld.tuNowHi_secHi = s.hw.tim.fabric / 1000000000 / 2 ^ 32 % 2 ^ 16 ∧
      OnlyHw [.out] (fun r => r = .tuNowHi) s t) ∧
  (∀ (rise : Bool) (s : State), s.hw.pwr.porHeld = false →
    (rise = false ∨ s.hw.bit .tuCfg Fld.tuCfg_ppsEn = true →
      ∃ t, exec (.ppsPulse rise) s = .next t ∧ t.hw.tim.pps = rise ∧ OnlyHw [.tim] noRegs s t) ∧
    (rise = true → s.hw.bit .tuCfg Fld.tuCfg_ppsEn = false → exec (.ppsPulse rise) s = .next s))

/-- PTP_RECEIVE takes the oldest PTP frame of its port and does nothing where none waits; one of another DOMAIN, or while PTP does not run, changes nothing else. PTP_SOURCE_LOST while PTP runs sets HOLDOVER. PTP_MESSAGE_SEND on an enabled port in UP holds one frame of class TC1 toward it, of EtherType 0x88F7 or over IPv6, where the port has sent fewer than 128 event messages in the second, and, for a follow-up, the message it follows has its transmit stamp. HISTORY_WRITE while Gliuk runs, once in each second of the local count, ends every quadrant's history with an entry of the running sequence number that holds the second's records and the fixed counters of both dies, and starts the next second empty. HISTORY_REQUEST writes HIST_CTL, and Gliuk clears REQ when it has served it. ERR_INJECT_ARM of a pair that exists writes ERR_INJECT, and of one that does not changes nothing. -/
def Obligations.TimeProtocolAndHistory : Prop :=
  (∀ (p : Port) (s : State),
    (∀ x : Nat × Int × Frame, s.hw.tim.ptpIn.find? (fun y => y.1 == p.val) = some x →
      ∃ t, exec (.ptpReceive p) s = .next t ∧ t.hw.tim.ptpIn = s.hw.tim.ptpIn.erase x ∧
        OnlyHw [.tim, .free, .err, .mgt, .hst, .out] (fun r => r = .tuStatus ∨ r = .tuFreq ∨ r = .hostIrqSts ∨ r.isNote) s t ∧
        (s.hw.ptpRuns = false ∨ getBE ((x.2.2.ptp).getD []) 4 1 ≠ s.hw.fld .tuCfg Fld.tuCfg_domain → OnlyHw [.tim] noRegs s t)) ∧
    (s.hw.tim.ptpIn.find? (fun y => y.1 == p.val) = none → exec (.ptpReceive p) s = .next s)) ∧
  (∀ s : State,
    (s.hw.ptpRuns = true →
      ∃ t, exec .ptpSourceLost s = .next t ∧ t.hw.bit .tuStatus Fld.tuStatus_holdover = true ∧ t.hw.tim.slew = none ∧
        t.hw.tim.fabric = s.hw.tim.fabric ∧ OnlyHw [.tim, .mgt, .hst, .out] (fun r => r = .tuStatus ∨ r = .hostIrqSts ∨ r.isNote) s t) ∧
    (s.hw.ptpRuns = false → exec .ptpSourceLost s = .next s)) ∧
  (∀ (p : Port) (m : PtpMsg) (s : State), s.hw.ptpRuns = true → s.hw.portStart p = true → s.hw.linkUp p = true →
    (s.hw.reg (.tuPtpEn (p / 64))).getLsbD (p % 64) = true → s.hw.mayOriginate (portDie p) = true →
    ((ptpForm m).1 < 8 → s.hw.ptpEventRoom p = true) →
    (∀ typ, ptpFollows m = some typ → (s.hw.tim.ptpOut.find? fun x => x.1 == p.val && x.2.1 == typ).isSome = true) →
    ∃ t x, exec (.ptpMessageSend p m) s = .next t ∧ x ∈ t.hw.buf.held ∧ x.id = s.hw.buf.nextId ∧
      (x.frame.etype = 0x88f7 ∨ x.frame.etype = 0x86dd) ∧ x.cls = 1 ∧ x.hdr = none ∧ x.copies.map (·.port) = [p.val] ∧
      OnlyHw [.buf, .egr, .free, .tim] (fun r => r.isNote) s t) ∧
  (∀ s : State,
    (s.hw.gliuk = true → s.hw.tim.histSec ≠ some (s.hw.tim.local_ / 640000000) →
      ∃ t, exec .historyWrite s = .next t ∧ t.hw.tim.histSeq = s.hw.tim.histSeq + 1 ∧
        t.hw.tim.histSec = some (s.hw.tim.local_ / 640000000) ∧
        (∀ q, q < 4 → ∃ l e, t.hw.tim.hist.get q = l ++ [e] ∧ e.seq = s.hw.tim.histSeq ∧ e.quad = q ∧ e.recs = s.hw.err.secQ.get q ∧
          e.tjMax = s.hw.tim.tjSec.get q ∧ e.pCounters = s.hw.fixedCounters q ∧ e.cCounters = s.hw.fixedCounters (4 + q) ∧
          t.hw.err.secQ.get q = []) ∧
        OnlyHw [.tim, .err] noRegs s t) ∧
    (s.hw.gliuk = false ∨ s.hw.tim.histSec = some (s.hw.tim.local_ / 640000000) → exec .historyWrite s = .next s)) ∧
  (∀ (acc : Acc) (v : W64) (s : State), s.hw.pwr.porHeld = false →
    ∃ t, exec (.historyRequest acc v) s = .next t ∧
      t.hw.reg .histCtl = (if s.hw.gliuk then Fld.histCtl_req.put (s.hw.writeWord .histCtl acc v) 0 else s.hw.writeWord .histCtl acc v) ∧
      OnlyHw hostParts (fun r => r = .histCtl ∨ r.isHostNote) s t) ∧
  (∀ (acc : Acc) (v : W64) (s : State), s.hw.pwr.porHeld = false →
    let w := s.hw.writeWord .errInject acc v
    ((Fld.errInject_arm.get w = 0 ∨ pointOn (Fld.errInject_point.get w) (Fld.errInject_die.get w) = true) →
      ∃ t, exec (.errInjectArm acc v) s = .next t ∧ t.hw.reg .errInject = w ∧ OnlyHw [] (fun r => r = .errInject) s t) ∧
    (Fld.errInject_arm.get w = 1 → pointOn (Fld.errInject_point.get w) (Fld.errInject_die.get w) = false →
      exec (.errInjectArm acc v) s = .next s))

/-- One more event on a counter adds one to its value modulo 2^48 and sets OVF just when it wraps. A wrap of a programmable counter (256 to 510) whose next counter has CHAIN = 1 adds one to that next counter, which may wrap in turn; a fixed counter (0 to 255) and counter 511 carry nowhere; and an event itself never counts in a programmable counter above the first that is chained. -/
def Obligations.CountersWrapAndChain : Prop :=
  (∀ (d k fuel : Nat) (h : Hw),
    let h' := h.bump d (fuel + 1) k 1
    h'.fld (.cntVal d k) Fld.cntVal_value = (h.fld (.cntVal d k) Fld.cntVal_value + 1) % 2 ^ 48 ∧
    (h.fld (.cntVal d k) Fld.cntVal_value = 2 ^ 48 - 1 → h'.bit (.cntVal d k) Fld.cntVal_ovf = true ∧
      (256 ≤ k → k < 511 → h.bit (.cntSel d (k + 1)) Fld.cntSel_chain = true →
        ∀ r, r ≠ .cntVal d k → h'.reg r = (h.bump d fuel (k + 1) 1).reg r) ∧
      (k < 256 ∨ 511 ≤ k ∨ h.bit (.cntSel d (k + 1)) Fld.cntSel_chain = false → ∀ r, r ≠ .cntVal d k → h'.reg r = h.reg r)) ∧
    (h.fld (.cntVal d k) Fld.cntVal_value ≠ 2 ^ 48 - 1 →
      h'.bit (.cntVal d k) Fld.cntVal_ovf = h.bit (.cntVal d k) Fld.cntVal_ovf ∧ ∀ r, r ≠ .cntVal d k → h'.reg r = h.reg r)) ∧
  (∀ (d ev qual k : Nat) (h : Hw), 256 < k → h.bit (.cntSel d k) Fld.cntSel_chain = true →
    (∀ j, 256 ≤ j → j < k → h.fld (.cntVal d j) Fld.cntVal_value + 1 < 2 ^ 48) → (h.regs.map (·.1)).Nodup →
    (h.count d ev qual 1).reg (.cntVal d k) = h.reg (.cntVal d k))

/-- Outside a reset, on a quadrant and a chip not in FATAL, three liveness probes in a row that fail while the hub path works, an uncorrectable word of the queue descriptors or buffer pointers that an admission needs, a stalled pipeline or a rail out of range while the quadrant is neither parked nor tripped, and a lost MAC clock each put the quadrant into FATAL: its bit of FATAL_Q is set, every port of it is DARK, and it serves no more. A first and a second failed probe are only counted, an answered one starts the count anew and nothing else, and a probe over a lost hub path does nothing. Of a quadrant that is in FATAL or in reset a further cause changes nothing. -/
def Obligations.QuadrantFatal : Prop :=
  (∀ (q : Quad) (c : Instr) (s : State), s.hw.pwr.porHeld = false → s.hw.fatalChip = false → s.hw.fatalQ q = false → s.hw.qdBusy q = false →
    (c = .livenessProbe q false ∧ s.hw.err.hubLost.get q = false ∧ 2 ≤ s.hw.err.probes.get q) ∨
      (c = .pipelineStall q ∧ s.hw.railsLow q = false) ∨ c = .macClockLoss q ∨
      (∃ id x, c = .frameAdmit ⟨id, true⟩ ∧ s.hw.heldAt id = some x ∧ x.die = q.val) ∨
      (∃ d, c = .vcoreOutOfRange q d ∧ s.hw.railsLow q = false) →
    ∃ t, exec c s = .next t ∧ t.hw.fatalQ q = true ∧ t.hw.quadOk q = false ∧ t.hw.fatalChip = false ∧
      (∀ k, k < 4 → k ≠ q.val → t.hw.fatalQ k = s.hw.fatalQ k) ∧
      (∀ (o : Octet), o.val / 32 = q.val → ∀ n ∈ s.hw.octetPorts o, t.hw.linkState n = 0) ∧ t.nv = s.nv ∧ t.pending = s.pending) ∧
  (∀ (q : Quad) (s : State), s.hw.pwr.porHeld = false → s.hw.qdBusy q = false → s.hw.err.hubLost.get q = false →
    (∃ t, exec (.livenessProbe q true) s = .next t ∧ t.hw.err.probes.get q = 0 ∧ OnlyHw [.err] noRegs s t) ∧
    (s.hw.err.probes.get q < 2 →
      ∃ t, exec (.livenessProbe q false) s = .next t ∧ t.hw.err.probes.get q = s.hw.err.probes.get q + 1 ∧ OnlyHw [.err] noRegs s t)) ∧
  (∀ (q : Quad) (answered : Bool) (s : State), s.hw.err.hubLost.get q = true → exec (.livenessProbe q answered) s = .next s) ∧
  (∀ (q : Quad) (c : Instr) (s : State), s.hw.fatalChip = true ∨ s.hw.fatalQ q = true ∨ s.hw.qdBusy q = true →
    c = .pipelineStall q ∨ c = .macClockLoss q ∨ (∃ d, c = .vcoreOutOfRange q d) → exec c s = .next s)

/-- The loss of a reference clock, diverging time bases, an uncorrectable word of the hub memory that the command engine uses, and a thermal trip each put a chip that is not yet in FATAL there: FATAL_CHIP is set, no Bridle is left, every port is DARK, no quadrant serves, and no command that the engine has begun is left but record buffers; the trip also holds THERMTRIP_L and takes every core rail to 0.50 V. OTP, the stores and exported memory stand. A chip in FATAL takes no further one of the first three. -/
def Obligations.ChipFatal : Prop :=
  (∀ (c : Instr) (s : State), s.hw.pwr.porHeld = false → s.hw.fatalChip = false →
    c = .refclkLoss ∨ c = .timeBaseDiverge ∨ (∃ r, c = .descriptorFetch r .hubUe) ∨ (c = .thermalTrip ∧ s.hw.pwr.thermTrip = false) →
    ∃ t, exec c s = .next t ∧ t.hw.fatalChip = true ∧ t.hw.coll.bridles = [] ∧ (∀ q, t.hw.quadOk q = false) ∧
      (∀ (o : Octet), ∀ n ∈ s.hw.octetPorts o, t.hw.linkState n = 0) ∧ (∀ d ∈ t.hw.hst.started, d.begun = true → d.opcode = 0x070) ∧
      (c = .thermalTrip → t.hw.pwr.thermTrip = true ∧ t.hw.pwr.vP = Four.all 200 ∧ t.hw.pwr.vC = Four.all 200) ∧
      t.nv = s.nv ∧ t.mem = s.mem ∧ t.pending = s.pending) ∧
  (∀ (c : Instr) (s : State), s.hw.fatalChip = true → c = .refclkLoss ∨ c = .timeBaseDiverge ∨ (∃ r, c = .descriptorFetch r .hubUe) →
    exec c s = .next s)

/-- While Sweeps run on a lane, SWEEP_PASS_COMPLETE raises PASSES modulo its width and, where no vector failed, notes the time; a vector that mismatches twice, and an intermittent one that reaches INTERMIT_LIMIT, fences the lane; a first intermittent outcome below the limit is only remembered. LANE_HANG fences an enabled lane of a serving quadrant, and SWEEP_OVERDUE of a lane without a pass for 10 s marks it OVERDUE. Exported memory and waiting commands stand, and of the stores only the lane's own words and fence change. On a lane on which no Sweeps run the outcomes of a Sweep change nothing. -/
def Obligations.SweepOutcomes : Prop :=
  (∀ (k : RedLane) (failed : Bool) (s : State), s.sweeps k = true →
    ∃ t, exec (.sweepPassComplete k failed) s = .next t ∧
      Fld.laneSweep_passes.get (t.nv.sweep k) = (Fld.laneSweep_passes.get (s.nv.sweep k) + 1) % 2 ^ 16 ∧
      Fld.laneSweep_lastPassS.get (t.nv.sweep k) =
        (if failed then Fld.laneSweep_lastPassS.get (s.nv.sweep k) else s.hw.fabSec % 2 ^ 32) ∧
      (∀ j, j ≠ k.val → t.nv.sweep j = s.nv.sweep j) ∧ t.nv = { s.nv with laneSweep := t.nv.laneSweep } ∧
      OnlyHw [.err, .mgt] (fun r => r = .sweepStatus ∨ r.isNote) { s with nv := t.nv } t) ∧
  (∀ (k : RedLane) (sect : BitVec 10) (tj : Byte) (s : State), s.sweeps k = true →
    ∃ t, exec (.sweepVectorRepeat k sect tj .mismatch) s = .next t ∧ 
      t.nv = { s.nv with laneHist := t.nv.laneHist, laneFence := s.nv.laneFence ||| BitVec.ofNat 64 (2 ^ k.val) } ∧
      (∀ j, j ≠ k.val → aget j t.nv.laneHist = aget j s.nv.laneHist) ∧
      OnlyHw (.coll :: sendParts) (fun r => r = .sweepStatus ∨ r.isNote) { s with nv := t.nv } t) ∧
  (∀ (k : RedLane) (sect : BitVec 10) (tj : Byte) (s : State), s.sweeps k = true →
    ∃ t, exec (.sweepVectorRepeat k sect tj .matched) s = .next t ∧
      t.hw.err.intermit = s.hw.err.intermit ++ [(k.val, (s.hw.tim.local_ : Int))] ∧
      t.nv.laneFence = (if t.hw.laneFails k < s.hw.fld .sweepCfg Fld.sweepCfg_intermitLimit then s.nv.laneFence
        else s.nv.laneFence ||| BitVec.ofNat 64 (2 ^ k.val)) ∧
      t.nv = { s.nv with laneHist := t.nv.laneHist, laneFence := t.nv.laneFence } ∧
      (∀ j, j ≠ k.val → aget j t.nv.laneHist = aget j s.nv.laneHist) ∧
      OnlyHw (.coll :: sendParts) (fun r => r = .sweepStatus ∨ r.isNote) { s with nv := t.nv } t) ∧
  (∀ (k : RedLane) (s : State), s.nv.laneOff k = false → s.hw.quadOk (k / 16) = true → s.hw.railsLow (k / 16) = false →
    ∃ t, exec (.laneHang k) s = .next t ∧ t.nv = { s.nv with laneFence := s.nv.laneFence ||| BitVec.ofNat 64 (2 ^ k.val) } ∧
      OnlyHw (.coll :: sendParts) (fun r => r = .sweepStatus ∨ r.isNote) { s with nv := t.nv } t) ∧
  (∀ (k : RedLane) (n : Nat) (s : State), aget k.val s.hw.err.passAt = some n → s.sweeps k = true → s.nv.overdue k = false →
    n + 10 * slotsSec ≤ s.hw.tim.local_ →
    ∃ t, exec (.sweepOverdue k) s = .next t ∧ t.nv.overdue k = true ∧ t.nv = { s.nv with laneSweep := t.nv.laneSweep } ∧
      (∀ j, j ≠ k.val → t.nv.sweep j = s.nv.sweep j) ∧
      OnlyHw [.free, .err, .mgt] (fun r => r = .sweepStatus ∨ r.isNote) { s with nv := t.nv } t) ∧
  (∀ (k : RedLane) (c : Instr) (s : State), s.sweeps k = false →
    (∃ f, c = .sweepPassComplete k f) ∨ (∃ x tj r, c = .sweepVectorRepeat k x tj r) ∨ c = .sweepOverdue k → exec c s = .next s)

/-- WITHDRAW with REQ at 0 sets REQ and STATE 1, and with REQ at 1 changes nothing; WITHDRAW_RETURN with REQ at 1 clears both, and with REQ at 0 changes nothing. WITHDRAW_NOTICE_REPEAT acts once 100 µs have passed since the last notice, WITHDRAW_EMPTY leads to STATE 2 once no frame is left and QUIET_US have passed; in another STATE than 1 both change nothing. Routing tables, links, Bridles and memory stand. -/
def Obligations.Withdrawal : Prop :=
  (∀ s : State, s.hw.pwr.porHeld = false →
    (s.hw.bit .withdrawCtl Fld.withdrawCtl_req = false →
      ∃ t, exec .withdraw s = .next t ∧ t.hw.bit .withdrawCtl Fld.withdrawCtl_req = true ∧ t.hw.withdrawState = 1 ∧
        t.hw.err.noticeAt = s.hw.slot 0 ∧ OnlyHw sendParts (fun r => r = .withdrawCtl ∨ r.isNote) s t) ∧
    (s.hw.bit .withdrawCtl Fld.withdrawCtl_req = true → exec .withdraw s = .next s) ∧
    (s.hw.bit .withdrawCtl Fld.withdrawCtl_req = true →
      ∃ t, exec .withdrawReturn s = .next t ∧ t.hw.bit .withdrawCtl Fld.withdrawCtl_req = false ∧ t.hw.withdrawState = 0 ∧
        OnlyHw sendParts (fun r => r = .withdrawCtl ∨ r.isNote) s t) ∧
    (s.hw.bit .withdrawCtl Fld.withdrawCtl_req = false → exec .withdrawReturn s = .next s)) ∧
  (∀ s : State, s.hw.withdrawState ≠ 1 → exec .withdrawNoticeRepeat s = .next s ∧ exec .withdrawEmpty s = .next s) ∧
  (∀ s : State, s.hw.withdrawState = 1 → s.hw.err.noticeAt + 100 * slotsUs ≤ s.hw.slot 0 →
    ∃ t, exec .withdrawNoticeRepeat s = .next t ∧ t.hw.err.noticeAt = s.hw.slot 0 ∧ OnlyHw sendParts Reg.isNote s t) ∧
  (∀ s : State, s.hw.withdrawState = 1 → (∀ x ∈ s.hw.buf.held, x.remains = false) → s.hw.buf.taken = [] →
    s.hw.err.quietFrom + slotsUs * s.hw.fld .withdrawCtl Fld.withdrawCtl_quietUs ≤ s.hw.slot 0 →
    ∃ t, exec .withdrawEmpty s = .next t ∧ t.hw.withdrawState = 2 ∧ OnlyHw sendParts (fun r => r = .withdrawCtl ∨ r.isNote) s t)

/-- A second MANAGEMENT_TICK in the same 1 ms of the local count changes nothing. After one in a new millisecond no queued record can merge any more; while Gliuk runs and no in-band message can leave the queues are empty, and the record sequence has advanced at least by the records that had waited. Interrupt source 2 is pending. RECORD_RESEND_TIMER while Gliuk runs gives the records unacknowledged for 100 ms a new time and leaves the rest, and while Gliuk does not run it changes nothing; OTP, the stores and exported memory stand in both. -/
def Obligations.TickClosesRecords : Prop :=
  (∀ (i : TickIn) (s : State), s.hw.tim.local_ / 640000 = s.hw.err.tickNo → exec (.managementTick i) s = .next s) ∧
  (∀ (i : TickIn) (s : State), s.hw.pwr.porHeld = false → s.hw.tim.local_ / 640000 ≠ s.hw.err.tickNo →
    ∃ t, exec (.managementTick i) s = .next t ∧ t.mem = s.mem ∧ t.nv = s.nv ∧ t.pending = s.pending ∧
      (s.hw.gliuk = false → ∀ r, (∃ q, q < 4 ∧ r ∈ t.hw.err.quadQ.get q) ∨ r ∈ t.hw.err.hubQ → r.open_ = false) ∧
      (s.hw.gliuk = true → s.hw.inbandUp = false →
        (∀ q, q < 4 → t.hw.err.quadQ.get q = []) ∧ t.hw.err.hubQ = [] ∧
        s.hw.mgt.recSeq + (s.hw.err.quadQ.toList.flatMap id).length + s.hw.err.hubQ.length ≤ t.hw.mgt.recSeq) ∧
      (s.hw.fld .icCfg Fld.icCfg_routeMode = 0 → t.hw.bit (.icSrc 2) Fld.icSrc_pending = true)) ∧
  (∀ s : State, s.hw.gliuk = false → exec .recordResendTimer s = .next s) ∧
  (∀ s : State, s.hw.gliuk = true →
    ∃ t, exec .recordResendTimer s = .next t ∧
      t.hw.mgt.sent = (s.hw.mgt.sent.map fun x => if x.time + 100 * slotsMs ≤ s.hw.tim.local_ then { x with time := s.hw.tim.local_ } else x) ∧
      OnlyHw (.out :: sendParts) Reg.isNote s t)

/-- MGMT_RESTART with the right guard, a restart that Gliuk asks for, and a watchdog whose whole period has passed each end Gliuk, note the cause 2, 4 or 3, and count the restart; forwarding, Bridles, Gondola, links, OTP and memory stand. With another guard, and in recovery, MGMT_RESTART changes nothing; a command whose time or condition has not come changes nothing. That recovery refuses it is the model's reading (log entry 45). GLIUK_START of released cores sets GLIUK_RUN and clears IN_RESTART; BOOT_LIMIT_EXPIRE after BOOT_LIMIT_10MS leads to recovery; a kick starts the watchdog's period anew, and half a period without one raises source 3. -/
def Obligations.RestartAndBoot : Prop :=
  (∀ (c : Instr) (k : Nat) (s : State), (c = .mgmtRestart 0x5a17 ∧ k = 2 ∧ s.hw.pwr.porHeld = false ∧ s.hw.bit .hubState Fld.hubState_recovery = false) ∨
      (c = .gliukRestartRequest ∧ k = 4 ∧ s.hw.gliuk = true) ∨ (c = .wdogExpire ∧ k = 3 ∧ s.hw.wdogPast 2 = true) →
    ∃ t, exec c s = .next t ∧ t.hw.gliuk = false ∧ t.hw.fld .mgmtStatus Fld.mgmtStatus_lastCause = k ∧
      t.hw.bit .mgmtStatus Fld.mgmtStatus_inRestart = true ∧ t.hw.mgt.booting = true ∧
      t.hw.fwd = s.hw.fwd ∧ t.hw.coll = s.hw.coll ∧ t.hw.gon = s.hw.gon ∧ t.hw.lgt = s.hw.lgt ∧ t.hw.pwr = s.hw.pwr ∧
      t.nv = s.nv ∧ t.mem = s.mem ∧ t.pending = s.pending) ∧
  (∀ (g : BitVec 16) (s : State), g ≠ 0x5a17 ∨ s.hw.bit .hubState Fld.hubState_recovery = true → exec (.mgmtRestart g) s = .next s) ∧
  (∀ s : State,
    (s.hw.gliuk = false → exec .gliukRestartRequest s = .next s) ∧ (s.hw.wdogPast 2 = false → exec .wdogExpire s = .next s) ∧
    (s.hw.wdogPast 1 = false ∨ s.hw.mgt.wdogHalf = true → exec .wdogHalfExpire s = .next s) ∧
    (s.hw.mgt.bootFrom = none ∨ s.hw.gliuk = true → exec .gliukStart s = .next s ∧ exec .bootLimitExpire s = .next s)) ∧
  (∀ (n : Nat) (s : State), s.hw.mgt.bootFrom = some n → s.hw.gliuk = false →
    (∃ t, exec .gliukStart s = .next t ∧ t.hw.gliuk = true ∧ t.hw.bit .mgmtStatus Fld.mgmtStatus_inRestart = false ∧
      t.hw.mgt.bootFrom = none ∧ t.hw.mgt.wdogFrom = s.hw.tim.local_ ∧ t.nv = s.nv ∧ t.mem = s.mem ∧ t.pending = s.pending) ∧
    (n + 10 * slotsMs * s.hw.fld .mgmtCfg Fld.mgmtCfg_bootLimit10ms ≤ s.hw.tim.local_ →
      ∃ t, exec .bootLimitExpire s = .next t ∧ t.hw.bit .hubState Fld.hubState_recovery = true ∧ t.hw.mgt.bootFrom = none ∧
        OnlyHw [.mgt] (fun r => r = .hubState ∨ r = .mgmtStatus) s t)) ∧
  (∀ s : State, s.hw.pwr.porHeld = false →
    ∃ t, exec .wdogKick s = .next t ∧ t.hw.mgt.wdogFrom = s.hw.tim.local_ ∧ t.hw.mgt.wdogHalf = false ∧ OnlyHw [.mgt] noRegs s t) ∧
  (∀ s : State, s.hw.wdogPast 1 = true → s.hw.mgt.wdogHalf = false → s.hw.fld .icCfg Fld.icCfg_routeMode = 0 →
    ∃ t, exec .wdogHalfExpire s = .next t ∧ t.hw.mgt.wdogHalf = true ∧ t.hw.bit (.icSrc 3) Fld.icSrc_pending = true ∧
      OnlyHw [.mgt] (fun r => r = .icSrc 3) s t)

/-- In mode 0 an event of an assigned source, and a trigger of sources 1 to 1,022 by a core or the host, set PENDING and raise COUNT up to 255. A claim by a core that is enabled and not serving takes the offered source that is lowest: the core reads its number and count, PENDING and COUNT are 0, and the core serves it; a claim while it serves reads 0, and one that finds nothing reads 1023 where its line had risen since its last claim and 0 where not. A completion of the served source ends the service, and any other is counted. The routing mode changes only while no core serves. STAGE_TABLE_LOAD fills a free set and makes it current. -/
def Obligations.InterruptController : Prop :=
  (∀ (src : Fin 1024) (c : Instr) (s : State), s.hw.pwr.porHeld = false → s.hw.fld .icCfg Fld.icCfg_routeMode = 0 →
    (c = .icSourceEvent src ∧ icAssigned src = true) ∨
      (∃ who, c = .icTrigger who src ∧ who ≠ .regAccess ∧ 1 ≤ src.val ∧ src.val ≤ 1022) →
    ∃ t, exec c s = .next t ∧ t.hw.bit (.icSrc src) Fld.icSrc_pending = true ∧
      t.hw.fld (.icSrc src) Fld.icSrc_count = min (s.hw.fld (.icSrc src) Fld.icSrc_count + 1) 255 ∧
      OnlyHw [.mgt] (fun r => r = .icSrc src) s t) ∧
  (∀ (c : Core) (x : Nat) (r : Reg) (s : State), s.hw.pwr.porHeld = false → s.hw.icServing c = false →
    s.hw.bit (.icTarget c) Fld.icTarget_en = true → s.hw.icNext c = some (x, r) →
    ∃ t, exec (.icClaim c) s = .next t ∧
      t.hw.out = .readData (BitVec.ofNat 64 (x % 1024 + s.hw.fld r Fld.icSrc_count * 65536)) :: s.hw.out ∧
      t.hw.bit r Fld.icSrc_pending = false ∧ t.hw.fld r Fld.icSrc_count = 0 ∧ t.hw.icServing c = true ∧
      t.hw.fld (.icTarget c) Fld.icTarget_servingSrc = x % 1024 ∧ OnlyHw [.mgt, .out] (fun y => y = r ∨ y = .icTarget c) s t) ∧
  (∀ (src : Fin 1024) (s : State), (icAssigned src = false → exec (.icSourceEvent src) s = .next s) ∧
    (∀ who, who = .regAccess ∨ src.val = 0 ∨ src.val = 1023 → exec (.icTrigger who src) s = .next s)) ∧
  (∀ (c : Core) (s : State), s.hw.pwr.porHeld = false → s.hw.icServing c = false →
    s.hw.bit (.icTarget c) Fld.icTarget_en = false ∨ s.hw.icNext c = none →
    ∃ t, exec (.icClaim c) s = .next t ∧ t.hw.out = .readData (if s.hw.mgt.icRose.contains c.val then 1023 else 0) :: s.hw.out ∧
      OnlyHw [.mgt, .out] noRegs s t) ∧
  (∀ (c : Core) (s : State), s.hw.pwr.porHeld = false → s.hw.icServing c = true →
    ∃ t, exec (.icClaim c) s = .next t ∧ t.hw.out = .readData 0 :: s.hw.out ∧ OnlyHw [.out] noRegs s t) ∧
  (∀ (c : Core) (src : BitVec 10) (s : State), s.hw.pwr.porHeld = false →
    (s.hw.icServing c = true → s.hw.fld (.icTarget c) Fld.icTarget_servingSrc = src.toNat →
      ∃ t, exec (.icComplete c src) s = .next t ∧ t.hw.icServing c = false ∧ t.hw.bit (s.hw.icReg c src.toNat) Fld.icSrc_active = false ∧
        OnlyHw [.mgt] (fun r => r = .icTarget c ∨ r = s.hw.icReg c src.toNat) s t) ∧
    (s.hw.icServing c = false ∨ s.hw.fld (.icTarget c) Fld.icTarget_servingSrc ≠ src.toNat →
      ∃ t, exec (.icComplete c src) s = .next t ∧
        t.hw.fld .icCfg Fld.icCfg_badComplete = min (s.hw.fld .icCfg Fld.icCfg_badComplete + 1) (2 ^ 16 - 1) ∧
        OnlyHw [] (fun r => r = .icCfg) s t)) ∧
  (∀ (v : W64) (s : State), s.hw.pwr.porHeld = false →
    (Fld.icCfg_routeMode.get (s.hw.writeWord .icCfg .full v) = s.hw.fld .icCfg Fld.icCfg_routeMode ∨
        (∀ c, c < 4 → s.hw.icServing c = false) →
      ∃ t, exec (.icRouteModeWrite v) s = .next t ∧ t.hw.reg .icCfg = s.hw.writeWord .icCfg .full v ∧
        OnlyHw [.mgt] (fun r => r = .icCfg) s t) ∧
    (Fld.icCfg_routeMode.get (s.hw.writeWord .icCfg .full v) ≠ s.hw.fld .icCfg Fld.icCfg_routeMode →
      (∃ c, c < 4 ∧ s.hw.icServing c = true) →
      ∃ t, exec (.icRouteModeWrite v) s = .next t ∧ t.hw.fld .icCfg Fld.icCfg_routeMode = s.hw.fld .icCfg Fld.icCfg_routeMode ∧
        t.hw.bit .icCfg Fld.icCfg_cfgErr = true ∧ OnlyHw [] (fun r => r = .icCfg) s t)) ∧
  (∀ (k : Nat) (s : State), s.hw.gliuk = true → s.hw.bit (.collStatus 0) Fld.collStatus_stagePending = true → s.hw.stageFree = some k →
    k < s.hw.mgt.stageVer.length →
    ∃ t, exec .stageTableLoad s = .next t ∧ t.hw.mgt.stageCur = k ∧ t.hw.mgt.stageVer[k]? = some s.hw.mgt.imgVer ∧
      (∀ c, c < 4 → t.hw.bit (.collStatus c) Fld.collStatus_stagePending = false) ∧
      OnlyHw [.mgt] (fun r => ∃ c, c < 4 ∧ r = .collStatus c) s t)

/-- With room in the queue, a datagram on a management Ethernet port that is up joins it while Gliuk runs and UDP_EN is 1; the oldest in-band TETHER frame does while TETHER_EN is 1, and the oldest IPv6 frame with a Tether datagram while UDP_EN is 1. On the port an ICMPv6 echo request and a neighbor solicitation for the port's own address are answered, and any other frame only raises its source; with the queue full or UDP_EN 0 a datagram is dropped and counted in RX_DROPS, and on a port whose link is down nothing is received. The layout of the answers is that of the standards (PRESUMED, log entry 15). TETHER_MESSAGE_PROCESS takes the head: a well-formed HELLO under the key number 0xFE or a key slot that holds a key waits for its answer, and a message whose key slot holds no key is counted in AUTH_FAILS. TXN_TIMEOUT drops the transaction that is 10 ms old and counts it. MGMT_ETH_LINK_CHANGE shows in LINK_UP, up only on an enabled port. -/
def Obligations.TetherReceives : Prop :=
  (∀ (e : Fin 2) (msg : List Byte) (c : Instr) (s : State), c = .tetherReceive (.mgmtEth e) msg ∨ c = .mgmtEthFrameReceive e (.tether msg) →
    s.hw.bit (.mgmtEthCfg e) Fld.mgmtEthCfg_linkUp = true → s.hw.gliuk = true →
    s.hw.bit .mgmtCfg Fld.mgmtCfg_udpEn = true → s.hw.mgt.tetherQ.length + s.hw.mgt.joins.length < 256 →
    ∃ t, exec c s = .next t ∧ t.hw.mgt.tetherQ = s.hw.mgt.tetherQ ++ [⟨2, e, msg, s.hw.tim.local_⟩] ∧
      OnlyHw [.mgt] (fun r => r.isIcSrc = true) s t) ∧
  (∀ (p : Port) (msg : List Byte) (x : Taken) (s : State), (s.hw.takeFrame p [0x78]).1 = some x →
    s.hw.bit .mgmtCfg Fld.mgmtCfg_tetherEn = true → s.hw.mgt.tetherQ.length + s.hw.mgt.joins.length < 256 → x.hdr.dst ≠ linkLocal →
    ∃ t, exec (.tetherReceive (.inband p) msg) s = .next t ∧
      t.hw.mgt.tetherQ = s.hw.mgt.tetherQ ++ [⟨0, p, x.frame.payload, s.hw.tim.local_⟩] ∧
      t.hw.buf.taken = s.hw.buf.taken.filter (fun y => y.id != x.id) ∧
      OnlyHw [.mgt, .buf, .hst, .out] (fun r => r.isNote ∨ r.isRing = true) s t) ∧
  (∀ (p : Port) (msg : List Byte) (x : Nat × Frame) (s : State),
    s.hw.mgt.cpuFrames.find? (fun y => y.1 == p.val && s.hw.udpFrame (portDie p) y.2) = some x → s.hw.bit .mgmtCfg Fld.mgmtCfg_udpEn = true →
    s.hw.mgt.tetherQ.length + s.hw.mgt.joins.length < 256 →
    ∃ t, exec (.tetherReceive (.inbandIpv6 p) msg) s = .next t ∧
      t.hw.mgt.tetherQ = s.hw.mgt.tetherQ ++ [⟨1, p, slice x.2.body 48 (getBE x.2.body 44 2 - 8), s.hw.tim.local_⟩] ∧
      t.hw.mgt.cpuFrames = s.hw.mgt.cpuFrames.erase x ∧ OnlyHw [.mgt] (fun r => r.isIcSrc = true) s t) ∧
  (∀ (e : Fin 2) (s : State), s.hw.bit (.mgmtEthCfg e) Fld.mgmtEthCfg_linkUp = true → s.hw.gliuk = true →
    s.hw.fld .icCfg Fld.icCfg_routeMode = 0 →
    (∃ t, exec (.mgmtEthFrameReceive e .other) s = .next t ∧ t.hw.bit (.icSrc (74 + e)) Fld.icSrc_pending = true ∧
      OnlyHw [.mgt] (fun r => r = .icSrc (74 + e)) s t) ∧
    (∀ mac src dst body, dst.toNat = s.nv.mgmtIp6 e →
      ∃ t, exec (.mgmtEthFrameReceive e (.echo mac src dst body)) s = .next t ∧
        t.hw.out = .mgmtEth e (s.nv.icmp6 e 129 mac src.toNat body) :: s.hw.out ∧ OnlyHw [.mgt, .out] (fun r => r = .icSrc (74 + e)) s t) ∧
    (∀ mac src target, target.toNat = s.nv.mgmtIp6 e →
      ∃ t, exec (.mgmtEthFrameReceive e (.solicit mac src target)) s = .next t ∧
        t.hw.out = .mgmtEth e (s.nv.advert e mac src.toNat) :: s.hw.out ∧ OnlyHw [.mgt, .out] (fun r => r = .icSrc (74 + e)) s t)) ∧
  (∀ (e : Fin 2) (f : MgmtFrame) (s : State), s.hw.bit (.mgmtEthCfg e) Fld.mgmtEthCfg_linkUp = false →
    exec (.mgmtEthFrameReceive e f) s = .next s) ∧
  (∀ (e : Fin 2) (msg : List Byte) (s : State), s.hw.bit (.mgmtEthCfg e) Fld.mgmtEthCfg_linkUp = true → s.hw.gliuk = true →
    s.hw.bit .mgmtCfg Fld.mgmtCfg_udpEn = false ∨ 256 ≤ s.hw.mgt.tetherQ.length + s.hw.mgt.joins.length →
    ∃ t, exec (.mgmtEthFrameReceive e (.tether msg)) s = .next t ∧ t.hw.mgt.tetherQ = s.hw.mgt.tetherQ ∧
      t.hw.fld .tetherStatus Fld.tetherStatus_rxDrops = min (s.hw.fld .tetherStatus Fld.tetherStatus_rxDrops + 1) (2 ^ 16 - 1) ∧
      OnlyHw [.mgt] (fun r => r = .tetherStatus ∨ r.isIcSrc = true) s t) ∧
  (∀ (m : TMsg) (rest : List TMsg) (s : State), s.hw.gliuk = true → s.hw.mgt.tetherQ = m :: rest → tetherForm m.bytes = true →
    (getBE m.bytes 2 1 = 0xfe ∨ (getBE m.bytes 2 1 < 8 ∧ (aget (getBE m.bytes 2 1) s.nv.keys).isSome = true) → getBE m.bytes 1 1 = 1 → getBE m.bytes 28 2 = 0 → (m.bytes.getD 3 0).getLsbD 0 = false →
      ∃ t r, exec .tetherMessageProcess s = .next t ∧ t.hw.mgt.tetherQ = rest ∧ t.hw.mgt.reqs = s.hw.mgt.reqs ++ [r] ∧ r.typ = 1 ∧
        r.sender = BitVec.ofNat 24 (getBE m.bytes 24 3) ∧ OnlyHw [.mgt] noRegs s t) ∧
    (getBE m.bytes 2 1 < 8 → aget (getBE m.bytes 2 1) s.nv.keys = none →
      ∃ t, exec .tetherMessageProcess s = .next t ∧ t.hw.mgt.tetherQ = rest ∧ t.hw.mgt.reqs = s.hw.mgt.reqs ∧
        t.hw.fld .tetherStatus Fld.tetherStatus_authFails =
          min (s.hw.fld .tetherStatus Fld.tetherStatus_authFails + 1) (2 ^ 16 - 1) ∧
        OnlyHw [.mgt] (fun r => r = .tetherStatus) s t)) ∧
  (∀ (key : Byte) (txn : BitVec 16) (x : TTxn) (s : State), x ∈ s.hw.mgt.txns → x.key = key.toNat → x.txn = txn.toNat →
    x.time + 10 * slotsMs ≤ s.hw.tim.local_ →
    ∃ t, exec (.txnTimeout key txn) s = .next t ∧ x ∉ t.hw.mgt.txns ∧
      (∀ y ∈ s.hw.mgt.txns, y.key ≠ key.toNat ∨ y.txn ≠ txn.toNat → y ∈ t.hw.mgt.txns) ∧
      OnlyHw [.mgt] (fun r => r = .tetherStatus) s t) ∧
  (∀ (e : Fin 2) (up : Bool) (s : State), s.hw.pwr.porHeld = false →
    ∃ t, exec (.mgmtEthLinkChange e up) s = .next t ∧
      t.hw.bit (.mgmtEthCfg e) Fld.mgmtEthCfg_linkUp = (up && s.hw.bit (.mgmtEthCfg e) Fld.mgmtEthCfg_enable) ∧
      OnlyHw [] (fun r => r = .mgmtEthCfg e) s t)

/-- With Gliuk running in PROVISIONED or OPERATIONAL and a management Ethernet port up for Tether, a HELLO not answered within 10 ms brings an ANNOUNCE, a NOP in a CMD brings a CMD_RESP with its TAG and status 0 (BUSY in a chip FATAL), a REG_ACCESS of one read brings a REG_RESP with the word read, an ATTEST_REQ brings an ATTEST_RESP, and HEARTBEAT_TIMER sends a HEARTBEAT once HEARTBEAT_10MS × 10 ms have passed since the last one, and nothing before. RECORD_ACK releases every record up to its sequence; RELAY_OUT sends its inner message out of its port; ANNOUNCE_RELAY takes a joining neighbor's message; ANNOUNCE_TIMER of a chip without a node number sends an ANNOUNCE out of every port in UP, once per second; a chip with one, and one without Gliuk, sends none. -/
def Obligations.TetherServes : Prop :=
  (∀ (e : Fin 2) (s : State), s.hw.gliuk = true → s.nv.inService = true → s.hw.ethUp e = true →
    (∀ r h, s.hw.takeReq 0x01 = some (r, h) → (∀ n, aget r.sender s.hw.mgt.helloAt = some n → n + 10 * slotsMs ≤ s.hw.tim.local_) →
      ∃ t b, exec .hello s = .next t ∧ .tetherEth e b ∈ t.hw.out ∧ getBE b 1 1 = 0x02 ∧ t.hw.mgt.reqs = s.hw.mgt.reqs.erase r ∧
        OnlyHw (.out :: sendParts) Reg.isNote s t) ∧
    (∀ r h, s.hw.takeReq 0x10 = some (r, h) → getLE r.body 0 2 = 0x001 →
      ∃ t b, exec .cmd s = .next t ∧ .tetherEth e b ∈ t.hw.out ∧ getBE b 1 1 = 0x11 ∧ slice b 32 16 = cmdResp (getLE r.body 4 4) (if s.hw.fatalChip then 4 else 0) 0 [] ∧
        OnlyHw (.out :: sendParts) Reg.isNote s t) ∧
    (∀ r h, s.hw.takeReq 0x20 = some (r, h) → getBE r.body 0 1 = 1 → r.body.length = 24 → bits (getBE r.body 8 8) 63 1 = 0 →
      accDenied .regAccess (getBE r.body 8 8 % 2 ^ 26) = false → s.hw.dpReady = true →
      ∃ t b, exec .regAccess s = .next t ∧ .tetherEth e b ∈ t.hw.out ∧ getBE b 1 1 = 0x21 ∧
        slice b 32 24 = [1, 0, 0, 0, 0, 0, 0, 0] ++
          bytesBE 8 ({ s with hw := h }.busRead .regAccess (getBE r.body 8 8 % 2 ^ 26) .full).1.toNat ++ List.replicate 8 0 ∧
        t.nv = s.nv ∧ t.mem = s.mem ∧ t.pending = s.pending) ∧
    (∀ r h, s.hw.takeReq 0x50 = some (r, h) →
      ∃ t b, exec .attestReq s = .next t ∧ .tetherEth e b ∈ t.hw.out ∧ getBE b 1 1 = 0x51 ∧ t.nv = s.nv ∧ t.mem = s.mem ∧ t.pending = s.pending) ∧
    (s.hw.since s.hw.mgt.heartAt (10 * slotsMs * s.hw.fld .mgmtCfg Fld.mgmtCfg_heartbeat10ms) = true →
      ∃ t b, exec .heartbeatTimer s = .next t ∧ .tetherEth e b ∈ t.hw.out ∧ getBE b 1 1 = 0x60 ∧ t.hw.mgt.txSeq = s.hw.mgt.txSeq + 1 ∧
        t.hw.mgt.heartAt = some s.hw.tim.local_ ∧ OnlyHw (.out :: sendParts) Reg.isNote s t) ∧
    (s.hw.since s.hw.mgt.heartAt (10 * slotsMs * s.hw.fld .mgmtCfg Fld.mgmtCfg_heartbeat10ms) = false →
      exec .heartbeatTimer s = .next s)) ∧
  (∀ (r : TReq) (h : Hw) (s : State), s.hw.takeReq 0x31 = some (r, h) →
    ∃ t, exec .recordAck s = .next t ∧ t.hw.mgt.sent = s.hw.mgt.sent.filter (fun x => decide (getBE r.body 0 8 < x.seq)) ∧
      OnlyHw [.mgt] noRegs s t) ∧
  (∀ (r : TReq) (h : Hw) (s : State), s.hw.takeReq 0x41 = some (r, h) → s.hw.portStart (getBE r.body 0 2) = true →
    s.hw.linkUp (getBE r.body 0 2) = true → s.hw.mayOriginate (portDie (getBE r.body 0 2)) = true →
    ∃ t x, exec .relayOut s = .next t ∧ x ∈ t.hw.buf.held ∧ x.id = s.hw.buf.nextId ∧ x.copies.map (·.port) = [getBE r.body 0 2] ∧
      x.frame = s.hw.vframe { VHdr.make 0 0x78 linkLocal s.hw.srcNode with seq := tetherSeq (r.body.drop 2) } (r.body.drop 2) ∧
      OnlyHw [.buf, .egr, .mgt] Reg.isNote s t) ∧
  (∀ (p : Port) (j : Nat × List Byte) (s : State), s.hw.gliuk = true → s.hw.mgt.joins.find? (fun x => x.1 == p.val) = some j →
    ∃ t, exec (.announceRelay p) s = .next t ∧ t.hw.mgt.joins = s.hw.mgt.joins.erase j ∧
      OnlyHw (.out :: sendParts) (fun r => r = .tetherStatus ∨ r.isNote) s t) ∧
  (∀ (p : Port) (s : State), s.hw.gliuk = true → s.hw.nodeValid = false → s.nv.inService = true → s.hw.portStart p = true → s.hw.linkUp p = true →
    s.hw.mayOriginate (portDie p) = true → s.hw.since s.hw.mgt.joinAt slotsSec = true →
    ∃ t x, exec .announceTimer s = .next t ∧ x ∈ t.hw.buf.held ∧ s.hw.buf.nextId ≤ x.id ∧ x.copies.map (·.port) = [p.val] ∧
      t.hw.mgt.txSeq = s.hw.mgt.txSeq + 1 ∧ t.hw.mgt.joinAt = some s.hw.tim.local_ ∧ OnlyHw [.buf, .egr, .mgt] Reg.isNote s t) ∧
  (∀ s : State, s.hw.gliuk = false ∨ s.hw.nodeValid = true ∨ s.hw.since s.hw.mgt.joinAt slotsSec = false →
    exec .announceTimer s = .next s)

/-- A frame that passes checks 1 to 4 for its Bridle, is current and has a right FCS acts at its position. A CHUNK of the Bridle's length from a contributor not yet held opens a FREE position or joins an OPEN one of its ROFF, and the contributor is held there (a first transmission of an ORDERED member may, by the gap requests that follow it, reach the limit that aborts the Bridle). A RESULT from the parent puts a position in UP into HOLD with its payload. The last RESULT_ACK of a receiving member frees the position for the sequence W further on, an earlier one is noted. A REPLAY_REQ of a receiving member in HOLD brings a RESULT out of its port. ABORT aborts the Bridle with its reason and sequence and releases every position, whose EXPECT moves on by W where it was not FREE, and READY from the parent makes a PENDING Bridle READY. -/
def Obligations.CollectiveFramesMoveTheirPosition : Prop :=
  ∀ (p : Port) (x : Taken) (b : Bridle) (s : State),
  (∀ m, CollFrame s p 0x60 x b (.member m) → x.hdr.plen.toNat = 256 * b.chunkUnits → b.contributes x.hdr.seq (b.mem m) = true →
    b.classify x.hdr.seq = .current → x.frame.fcsOk = true → m ∉ (b.at (b.posOf x.hdr.seq)).got →
    ((b.at (b.posOf x.hdr.seq)).state = .free ∧ b.state ≠ .draining ∨
      (b.at (b.posOf x.hdr.seq)).state = .opened ∧ (b.at (b.posOf x.hdr.seq)).roff = x.hdr.roff) →
    ∃ t c, exec (.chunkReceive p) s = .next t ∧ t.hw.bridleAt b.ix = some c ∧
      ((c.at (b.posOf x.hdr.seq)).state = .opened ∧ (c.at (b.posOf x.hdr.seq)).roff = x.hdr.roff ∧ m ∈ (c.at (b.posOf x.hdr.seq)).got ∨
        (b.mem m).ordered = true ∧ x.hdr.status.toNat % 2 = 0 ∧ c.state = .aborted) ∧
      OnlyHw (.coll :: doneParts) Reg.isDone s t) ∧
  (CollFrame s p 0x61 x b .parent → b.classify x.hdr.seq = .current → x.frame.fcsOk = true →
    (b.at (b.posOf x.hdr.seq)).state = .up → b.receivers x.hdr.seq ≠ [] →
    ∃ t c, exec (.resultReceive p) s = .next t ∧ t.hw.bridleAt b.ix = some c ∧ (c.at (b.posOf x.hdr.seq)).state = .hold ∧
      (c.at (b.posOf x.hdr.seq)).data = x.frame.payload ∧ (c.at (b.posOf x.hdr.seq)).roff = x.hdr.roff ∧
      OnlyHw (.coll :: doneParts) Reg.isDone s t) ∧
  (∀ m, CollFrame s p 0x62 x b (.member m) → b.classify x.hdr.seq = .current → x.frame.fcsOk = true → x.hdr.low30 < 2 ^ 29 →
    (b.at (b.posOf x.hdr.seq)).state = .hold → m ∈ b.receivers x.hdr.seq →
    ∃ t c, exec (.resultAckReceive p) s = .next t ∧ t.hw.bridleAt b.ix = some c ∧
      ((∀ i ∈ b.receivers x.hdr.seq, i = m ∨ i ∈ (b.at (b.posOf x.hdr.seq)).acked) →
        (c.at (b.posOf x.hdr.seq)).state = .free ∧ (c.at (b.posOf x.hdr.seq)).expect = x.hdr.seq + BitVec.ofNat 32 b.win) ∧
      (¬ (∀ i ∈ b.receivers x.hdr.seq, i = m ∨ i ∈ (b.at (b.posOf x.hdr.seq)).acked) →
        (c.at (b.posOf x.hdr.seq)).state = .hold ∧ m ∈ (c.at (b.posOf x.hdr.seq)).acked) ∧
      OnlyHw (.coll :: doneParts) Reg.isDone s t) ∧
  (∀ m, CollFrame s p 0x63 x b (.member m) → b.classify x.hdr.seq = .current → x.frame.fcsOk = true → x.hdr.low30 < 2 ^ 29 →
    (b.at (b.posOf x.hdr.seq)).state = .hold → m ∈ b.receivers x.hdr.seq →
    (x.hdr.low30 / 2 ^ 27 % 4 = 3 ∨ (aget m (b.at (b.posOf x.hdr.seq)).tries).getD 0 < 3) → CanSend s.hw b (.member m) →
    ∃ t, exec (.replayReqReceive p) s = .next t ∧ Sends t.hw s.hw.buf.nextId p 0x61 ∧
      OnlyHw (.coll :: doneParts) Reg.isDone s t) ∧
  (∀ src, CollFrame s p 0x64 x b src → x.frame.fcsOk = true →
    ∃ t c, exec (.abortReceive p) s = .next t ∧ t.hw.bridleAt b.ix = some c ∧ c.state = .aborted ∧
      c.abortReason = x.hdr.low30 / 2 ^ 26 ∧ c.abortSeq = x.hdr.seq ∧ (∀ y ∈ c.pos, y.state = .free ∧ y.data = []) ∧
      (∀ k, k < b.pos.length →
        (c.at k).expect = (if (b.at k).state = .free then (b.at k).expect else (b.at k).expect + BitVec.ofNat 32 b.win)) ∧
      OnlyHw (.coll :: doneParts) Reg.isDone s t) ∧
  (CollFrame s p 0x65 x b .parent → x.frame.fcsOk = true → b.state = .pending → x.hdr.low30 < 2 ^ 28 →
    ∃ t c, exec (.bridleNoticeReceive p) s = .next t ∧ t.hw.bridleAt b.ix = some c ∧ c.state = .ready ∧ c.pos = b.pos ∧
      OnlyHw (.coll :: doneParts) Reg.isDone s t)

/-- A quadrant partial that arrives undamaged is home, a damaged one aborts the Bridle with BALLAST_ECC (reason 8), and none arrives over a floor path that is down. REDUCTION_FINISH of a complete position keeps the finished bytes, which for KIND 2 and 3 are the contribution carried, in HOLD where the chip is the top and in UP below a parent. A twin whose output has another digest aborts the Bridle with MISMATCH (reason 5). When due, the straggler timer of a position restarts, unless a request or a resend it makes aborts the Bridle, and for an OPEN position queues a STRAGGLER record; the abort timer aborts with TIMEOUT (reason 1) at the position's sequence; a PENDING Bridle tells its parent so again, and a READY one with silent members tells the first of them READY again. -/
def Obligations.PositionsFinishAndTimeOut : Prop :=
  ∀ (ix : BridleIx) (b : Bridle) (s : State), s.hw.bridleAt ix = some b → b.pos.length = b.win →
  s.hw.bit .errInject Fld.errInject_arm = false →
  (∀ (seq : BitVec 32) (c : Quad) (y : QCtx), b.state ≠ .aborted → (b.at (b.posOf seq)).expect = seq →
    (b.at (b.posOf seq)).state = .opened → (b.at (b.posOf seq)).onWay c = some y →
    s.hw.pathUp c (if y.twin then Nat.xor b.home 2 else b.home) = true →
    (∃ t d, exec (.quadrantPartialArrive ix seq c false) s = .next t ∧ t.hw.bridleAt ix = some d ∧
      { y with home := true } ∈ (d.at (b.posOf seq)).ctx ∧ (d.at (b.posOf seq)).state = .opened ∧ OnlyHw [.coll] noRegs s t) ∧
    (∃ t d, exec (.quadrantPartialArrive ix seq c true) s = .next t ∧ t.hw.bridleAt ix = some d ∧ d.state = .aborted ∧
      d.abortReason = 8 ∧ d.abortSeq = seq ∧ OnlyHw (.coll :: sendParts) Reg.isNote s t)) ∧
  (∀ (seq : BitVec 32) (c : Quad) (damaged : Bool),
    (∀ y, (b.at (b.posOf seq)).onWay c = some y → s.hw.pathUp c (if y.twin then Nat.xor b.home 2 else b.home) = false) →
    exec (.quadrantPartialArrive ix seq c damaged) s = .next s) ∧
  (∀ (seq : BitVec 32), b.state ≠ .aborted → (b.at (b.posOf seq)).expect = seq → b.complete (b.posOf seq) = true →
    (b.parentEn = false → b.receivers seq ≠ []) →
    ∃ t d, exec (.reductionFinish ix seq none) s = .next t ∧ t.hw.bridleAt ix = some d ∧
      (d.at (b.posOf seq)).state = (if b.parentEn then .up else .hold) ∧
      (d.at (b.posOf seq)).data = (s.hw.finishOutput b (b.posOf seq)).1.bytes ∧
      (2 ≤ b.kind → (d.at (b.posOf seq)).data = ((b.at (b.posOf seq)).ctx.filterMap (·.carried)).headD []) ∧
      OnlyHw (.coll :: sendParts) Reg.isNote s t) ∧
  (∀ (seq : BitVec 32) (twin : Bool) (l : List Byte), b.state ≠ .aborted → (b.at (b.posOf seq)).expect = seq →
    b.complete (b.posOf seq) = true → b.twin = true → b.kind < 2 →
    stageDigest l ≠ stageDigest (s.hw.finishOutput b (b.posOf seq)).1.bytes →
    ∃ t d, exec (.reductionFinish ix seq (some (twin, l))) s = .next t ∧ t.hw.bridleAt ix = some d ∧ d.state = .aborted ∧ d.abortReason = 5 ∧
      d.abortSeq = seq ∧ OnlyHw (.coll :: sendParts) Reg.isNote s t) ∧
  (∀ (k : Fin 256) (t0 : Nat), b.home < 4 → k.val < b.win → b.state ≠ .aborted → (b.at k).straggle = some t0 →
    t0 + slotsUs * b.straggleUs ≤ s.hw.slot b.home →
    ∃ t d, exec (.stragglerTimerExpire ix k) s = .next t ∧ t.hw.bridleAt ix = some d ∧
      (d.state = .aborted ∨ (d.at k).straggle = some (s.hw.slot b.home)) ∧
      ((b.at k).state = .opened → (s.hw.err.quadQ.get b.home).length < 4096 →
        ∃ r ∈ t.hw.err.quadQ.get b.home, r.code = 0x0301 ∧ r.die = 4 + b.home) ∧ OnlyHw (.coll :: sendParts) Reg.isNote s t) ∧
  (∀ (k : Fin 256), k.val < b.win → b.state ≠ .aborted → (b.at k).state ≠ .free →
    (b.at k).opened + slotsUs * b.abortUs ≤ s.hw.slot b.home →
    ∃ t d, exec (.abortTimerExpire ix k) s = .next t ∧ t.hw.bridleAt ix = some d ∧ d.state = .aborted ∧ d.abortReason = 1 ∧
      d.abortSeq = (b.at k).expect ∧ OnlyHw (.coll :: sendParts) Reg.isNote s t) ∧
  (b.state = .pending → b.since + slotsUs * b.straggleUs ≤ s.hw.slot b.home → CanSend s.hw b .parent →
    ∃ t d, exec (.bridlePendingTimer ix) s = .next t ∧ t.hw.bridleAt ix = some d ∧ d.state = .pending ∧
      d.since = s.hw.slot b.home ∧ Sends t.hw s.hw.buf.nextId b.parentPort 0x65 ∧ OnlyHw (.coll :: sendParts) Reg.isNote s t) ∧
  (∀ m rest, b.state = .ready → b.repeats < 3 → (b.ixs.filter fun i => !b.heard.contains i) = m :: rest →
    b.since + slotsUs * ((b.repeats + 1) * b.straggleUs) ≤ s.hw.slot b.home → CanSend s.hw b (.member m) →
    ∃ t d, exec (.readyRepeatTimer ix) s = .next t ∧ t.hw.bridleAt ix = some d ∧ d.state = .ready ∧ d.repeats = b.repeats + 1 ∧
      Sends t.hw s.hw.buf.nextId (b.mem m).port 0x65 ∧ OnlyHw (.coll :: sendParts) Reg.isNote s t)

/-- With every check of R131 met and every hub path up, BRIDLE_CREATE adds one Bridle with the group, generation, members, first sequence and state asked for, in the lowest free entry, and completes with OK and that entry. BRIDLE_CLOSE with the drain option makes an active Bridle DRAINING, with the abort option it aborts it, and its completion waits: BRIDLE_CLOSE_COMPLETE of an ABORTED Bridle, or of a DRAINING one whose positions are all FREE, frees the entry, records the generation and completes the close with OK while every hub path is up. RECIPE_LOAD of an allowed recipe into a slot that no Bridle names writes its four words, PARITY computed, in every replica; RECIPE_CLEAR writes zeros. -/
def Obligations.BridlesAreCreatedAndClosed : Prop :=
  ∀ (r : Ring) (d : Desc) (s : State),
  (∀ (l : List Byte) (a : BridleAsk) (low : Nat), Runs s r 0x030 d → s.hw.hst.mayRequest = true →
    a = bridleAskOf d.bytes (l.take (16 * a.count)) → 1 ≤ a.count → a.count ≤ 1024 → 16 * a.count ≤ l.length →
    s.hw.nodeValid = true → s.hw.coll.bridles.length < 16384 →
    (∀ b ∈ s.hw.coll.bridles, b.group ≠ BitVec.ofNat 16 (a.f 0 0 16)) →
    aget (BitVec.ofNat 16 (a.f 0 0 16)) s.hw.coll.lastGen ≠ some (BitVec.ofNat 8 (a.f 0 16 8)) → s.hw.bridleFields a = true →
    (∀ m ∈ a.list, s.hw.inService m.port = true) → (a.parentEn = true → s.hw.inService a.parentPort = true) →
    s.hw.poolPlace a.count = some low → (∀ c, c < 4 → (a.bridle 0 0 0 0).slots.get c ≤ s.hw.freeSlots s.nv.disabled c) →
    s.hw.someLost = false →
    ∃ t b, exec (.bridleCreate r (some l)) s = .next t ∧ t.hw.coll.bridles = s.hw.coll.bridles ++ [b] ∧ b.ix = s.hw.freeBridle ∧
      b.group = BitVec.ofNat 16 (a.f 0 0 16) ∧ b.gen = BitVec.ofNat 8 (a.f 0 16 8) ∧ b.members = a.list ∧ b.firstSeq = a.firstSeq ∧
      b.state = (if a.parentEn then .pending else .ready) ∧ (∀ y ∈ b.pos, y.state = .free) ∧
      Completed s.hw t.hw d 0 (b.ix + b.memberBase * 2 ^ 32) ∧ OnlyHw (.coll :: doneParts) Reg.isDone s t) ∧
  (∀ (b : Bridle), Runs s r 0x031 d → s.hw.closeTarget d.bytes = some b →
    (bits d.flags 0 1 = 0 → ∃ t c, exec (.bridleCloseDrain r) s = .next t ∧ t.hw.bridleAt b.ix = some c ∧
      c.state = (if b.state = .aborted then .aborted else .draining) ∧ c.closers = b.closers ++ [.host d.ix] ∧ c.pos = b.pos ∧
      OnlyHw [.coll, .hst] noRegs s t) ∧
    (bits d.flags 0 1 = 1 → ∃ t c, exec (.bridleCloseAbort r) s = .next t ∧ t.hw.bridleAt b.ix = some c ∧ c.state = .aborted ∧
      c.closers = b.closers ++ [.host d.ix] ∧ (b.state ≠ .aborted → c.abortReason = 11 ∧ c.abortSeq = b.seqLow) ∧
      OnlyHw (.coll :: doneParts) Reg.isDone s t)) ∧
  (∀ (ix : BridleIx) (b : Bridle), s.hw.bridleAt ix = some b → b.closers = [.host d.ix] →
    (s.hw.hst.started.find? fun x => x.ix == d.ix) = some d → s.hw.someLost = false →
    (b.state = .aborted ∨ b.state = .draining ∧ ∀ y ∈ b.pos, y.state = .free) →
    ∃ t, exec (.bridleCloseComplete ix) s = .next t ∧ (∀ c ∈ t.hw.coll.bridles, c.ix ≠ b.ix) ∧
      (∀ c ∈ s.hw.coll.bridles, c.ix ≠ b.ix → c ∈ t.hw.coll.bridles) ∧ aget b.group t.hw.coll.lastGen = some b.gen ∧
      Completed s.hw t.hw d 0 (b.abortSeq.toNat + b.abortReason * 2 ^ 32) ∧ OnlyHw (.coll :: doneParts) Reg.isDone s t) ∧
  (∀ (w : Nat → W64), Runs s r 0x038 d →
    w 0 = (BitVec.ofNat 64 (getLE d.bytes 16 8) &&& 0x1ff) ||| 1 → w 1 = BitVec.ofNat 64 (getLE d.bytes 24 8) &&& 0xffffffff →
    w 2 = BitVec.ofNat 64 (getLE d.bytes 32 8) &&& 0x07ff07ff → w 3 = BitVec.ofNat 64 (getLE d.bytes 40 8) &&& 0xffffffff →
    (Rcp.ofWords (w 0).toNat (w 1).toNat (w 2).toNat (w 3).toNat).allowed = true →
    (∀ b ∈ s.hw.coll.bridles, b.recipe ≠ getLE d.bytes 8 1) → (∀ c, c < 4 → s.hw.err.hubLost.get c = false) →
    ∃ t, exec (.recipeLoad r) s = .next t ∧
      (∀ c i, c < 4 → i < 4 → t.hw.reg (.recipeW c (4 * getLE d.bytes 8 1 + i)) = withParity (w i)) ∧
      Completed s.hw t.hw d 0 0 ∧
      OnlyHw [.fwd, .hst, .out] (fun x => x.isRing = true ∨ ∃ c i, c < 4 ∧ i < 4 ∧ x = .recipeW c (4 * getLE d.bytes 8 1 + i)) s t) ∧
  (Runs s r 0x039 d → (∀ b ∈ s.hw.coll.bridles, b.recipe ≠ getLE d.bytes 8 1) → (∀ c, c < 4 → s.hw.err.hubLost.get c = false) →
    ∃ t, exec (.recipeClear r) s = .next t ∧
      (∀ c i, c < 4 → i < 4 → t.hw.reg (.recipeW c (4 * getLE d.bytes 8 1 + i)) = 0) ∧
      Completed s.hw t.hw d 0 0 ∧
      OnlyHw [.hst, .out] (fun x => x.isRing = true ∨ ∃ c i, c < 4 ∧ i < 4 ∧ x = .recipeW c (4 * getLE d.bytes 8 1 + i)) s t)

/-- Let two sequences of contributions to one virtual lane, which holds none yet, be the same up to their order. In exact mode, for MAX, MIN, OR and COUNT, on the integer path with OVF = 0, and for a SUM or WSUM of at most two contributions, the lane's accumulators after both are the same, bit for bit. -/
def Obligations.LanesTakeContributionsInAnyOrder : Prop :=
  ∀ (r : Rcp) (exact : Bool) (n v : Nat) (x : QCtx) (l l' : List (Nat × List Byte)), l.Perm l' → aget v x.lanes = none →
    (r.path exact = .exact ∨ r.op = 1 ∨ r.op = 2 ∨ r.op = 4 ∨ r.op = 5 ∨ (r.path exact = .int ∧ r.sat = false) ∨
      ((r.op = 0 ∨ r.op = 3) ∧ l.length ≤ 2)) →
    aget v (l.foldl (fun y c => (y.take r exact v ((List.range n).map (r.contribution exact c.1 c.2))).1) x).lanes =
      aget v (l'.foldl (fun y c => (y.take r exact v ((List.range n).map (r.contribution exact c.1 c.2))).1) x).lanes

/-- A request whose SRC_NODE is 0xFF_FFFF is discarded and counted. With room for its answer and the floor paths to the quadrants that serve it and back standing, a MEM_WRITE that R399 lets through puts its payload at its offset and changes no other byte; one that R399 refuses changes none. A MEM_READ let through, of bytes without error, is answered with them: a MEM_READ_RESP with status OK, the request's sequence and the bytes goes to the requester. An INSERT of a key that is absent adds the entry, in its bucket or its overflow store, a LOOKUP adds nothing, and a REMOVE without a tag takes the entry out. A COPY_REQ in order joins the descriptors of its C-die, last. An unmatched ATOMIC_RESP or DIR_RESP and a COPY_DONE are taken, and counted in event 0x122. -/
def Obligations.GondolaServesRequests : Prop :=
  ∀ (p : Port) (x : Taken) (s : State), s.hw.bit .errInject Fld.errInject_arm = false →
  (∀ (c : Instr) (op : Nat) (e : HbmErr) (de : DirErr), x.hdr.src = linkLocal → (s.hw.takeFrame p [op]).1 = some x →
    (c = .memWriteReceive p e ∧ op = 0x40 ∧ x.hdr.opData.getLsbD 63 = false ∧
        s.hw.serves p (reqQuads x.hdr.roff.toNat x.hdr.plen.toNat) = true) ∨
      (c = .memReadReceive p e ∧ op = 0x41 ∧ s.hw.serves p (reqQuads x.hdr.roff.toNat (x.hdr.opData.toNat % 16384)) = true ∧
        ∀ n, s.hw.admits (portDie p) (respClass x.hdr.tc.toNat) n = true) ∨
      (c = .dirReqReceive p de ∧ op = 0x4a ∧ s.hw.serves p (s.hw.dirDies (dirEntOf x.frame.payload)) = true ∧
        s.hw.admits (portDie p) 6 (vframeLen 32) = true) ∨
      (c = .atomicReqReceive ⟨p, e⟩ ∧ op = 0x44 ∧ s.hw.serves p [recDie x.hdr.src, offQuad x.hdr.roff.toNat] = true ∧
        s.hw.admits (portDie p) 6 (vframeLen 8) = true) →
    ∃ t, exec c s = .next t ∧ t.hw.buf.taken = s.hw.buf.taken.filter (fun y => y.id != x.id) ∧
      OnlyHw [.buf, .hst, .out] (fun r => r.isCnt = true ∨ r.isRing = true) s t) ∧
  (x.hdr.src ≠ linkLocal →
  (∀ (e : HbmErr), (s.hw.takeFrame p [0x40]).1 = some x → s.mem.wf = true → s.hw.serves p (reqQuads x.hdr.roff.toNat x.hdr.plen.toNat) = true →
    (x.hdr.opData.getLsbD 63 = true → s.hw.admits (portDie p) (respClass x.hdr.tc.toNat) (vframeLen 0) = true) →
    ∃ t, exec (.memWriteReceive p e) s = .next t ∧ t.nv = s.nv ∧ t.pending = s.pending ∧
      (s.hw.memStatus x.hdr.roff.toNat x.hdr.plen.toNat false = 0 → ∀ a, t.mem.read a = written s.mem x.hdr.roff.toNat x.frame.payload a) ∧
      (s.hw.memStatus x.hdr.roff.toNat x.hdr.plen.toNat false ≠ 0 → t.mem = s.mem) ∧
      Only (.gon :: doneParts) Reg.isHbm s.hw t.hw) ∧
  (∀ (len n : Nat), (s.hw.takeFrame p [0x41]).1 = some x → len = x.hdr.opData.toNat % 16384 →
    s.hw.serves p (reqQuads x.hdr.roff.toNat len) = true → s.hw.memStatus x.hdr.roff.toNat len false = 0 → s.mem.poisoned x.hdr.roff.toNat len = false → s.hw.gon.planted = [] →
    s.hw.admits (portDie p) (respClass x.hdr.tc.toNat) (vframeLen len) = true → Routes s.hw (portDie p) x.hdr.src n →
    ∃ t y d, exec (.memReadReceive p .none) s = .next t ∧ y ∈ t.hw.buf.held ∧ y.hdr = some d ∧ d.opcode = 0x42 ∧ d.status = 0 ∧
      d.seq = x.hdr.seq ∧ d.dst = x.hdr.src ∧ d.src = s.hw.node ∧ y.copies.map (·.port) = [n] ∧
      (y.frame.body.drop 32).take len = s.mem.load x.hdr.roff.toNat len ∧ OnlyHw doneParts Reg.isDone s t) ∧
  (∀ (ent : DirEnt), (s.hw.takeFrame p [0x4a]).1 = some x → ent = dirEntOf x.frame.payload → x.hdr.plen = 32 →
    s.hw.admits (portDie p) 6 (vframeLen 32) = true → s.hw.bit .gondolaCfg Fld.gondolaCfg_enable = true →
    (s.hw.dirDies ent).all s.hw.memServes = true → s.hw.serves p (s.hw.dirDies ent) = true →
    (∀ o, x.hdr.opData.toNat / 2 ^ 60 = 2 → ent.locOffset.toNat % 16384 = 0 → s.hw.gon.dir.find? ent.same = none →
      s.hw.dirPlace ent = some o →
      ∃ t, exec (.dirReqReceive p .none) s = .next t ∧ t.hw.gon.dir = s.hw.gon.dir ++ [{ s.hw.dirNew ent with ovf := o }] ∧
        OnlyHw (.gon :: doneParts) Reg.isDone s t) ∧
    (x.hdr.opData.toNat / 2 ^ 60 = 1 →
      ∃ t, exec (.dirReqReceive p .none) s = .next t ∧ t.hw.gon = s.hw.gon ∧ OnlyHw doneParts Reg.isDone s t) ∧
    (∀ y, x.hdr.opData.toNat / 2 ^ 60 = 4 → ent.tag = 0 → s.hw.gon.dir.find? ent.same = some y →
      ∃ t, exec (.dirReqReceive p .none) s = .next t ∧ t.hw.gon.dir = s.hw.gon.dir.filter (fun z => !ent.same z) ∧
        OnlyHw (.gon :: doneParts) Reg.isDone s t)) ∧
  (∀ (d : CopyDesc), (s.hw.takeFrame p [0x48]).1 = some x →
    d = copyOf x.frame.payload s.hw.gon.nextCopy (.fabric x.hdr (BitVec.ofNat 24 (getLE x.frame.payload 32 3))) →
    s.hw.admits (portDie p) d.cls (vframeLen 0) = true → s.hw.bit .gondolaCfg Fld.gondolaCfg_enable = true →
    (s.hw.gon.copies.get (portDie p)).length < 4096 → x.hdr.plen = 64 → getLE x.frame.payload 0 2 = 0 → d.len ≠ 0 →
    ∃ t, exec (.copyReqReceive p) s = .next t ∧ t.hw.gon.copies.get (portDie p) = s.hw.gon.copies.get (portDie p) ++ [d] ∧
      OnlyHw (.gon :: doneParts) Reg.isDone s t) ∧
  (∀ (c : Instr) (ops : List Nat), (c = .unmatchedResponseReceive p ∧ ops = [0x45, 0x4b]) ∨ (c = .copyDoneReceive p ∧ ops = [0x49]) →
    (s.hw.takeFrame p ops).1 = some x → (∀ k v, (Reg.cntSel (4 + portDie p) k, v) ∉ s.hw.regs) →
    ∃ t, exec c s = .next t ∧ t.hw.buf.taken = s.hw.buf.taken.filter (fun y => y.id != x.id) ∧
      t.hw.fld (.cntVal (4 + portDie p) 0x22) Fld.cntVal_value =
        (s.hw.fld (.cntVal (4 + portDie p) 0x22) Fld.cntVal_value + 1) % 2 ^ 48 ∧
      OnlyHw [.buf, .hst, .out] (fun r => r.isCnt = true ∨ r.isRing = true) s t))

/-- An ATOMIC_REQ of a requester without a record, on a die with a record free, gets a record with its sequence as HIGH and PENDING in its slot, and waits for its execution. ATOMIC_EXECUTE of the oldest request on its word, in a window and without an error, makes the word what FETCH_ADD, SWAP or COMPARE_SWAP says of the old one and its operands, changes no other byte, and stores OK with the old value in the slot. A retry of a sequence whose slot is DONE, within 1,024 of HIGH in a record that is not poisoned, adds no request and is answered toward the requester; memory and the record's slots stand; so do they for a stale one, of a poisoned record or 1,024 and more behind HIGH. -/
def Obligations.AtomicsApplyOnce : Prop :=
  (∀ (p : Port) (x : Taken) (s : State), (s.hw.takeFrame p [0x44]).1 = some x → x.hdr.src ≠ linkLocal →
    s.hw.bit .errInject Fld.errInject_arm = false → s.hw.admits (portDie p) 6 (vframeLen 8) = true →
    s.hw.bit .gondolaCfg Fld.gondolaCfg_enable = true → s.hw.memServes (offQuad x.hdr.roff.toNat) = true →
    s.hw.memServes (recDie x.hdr.src) = true →
    s.hw.serves p [recDie x.hdr.src, offQuad x.hdr.roff.toNat] = true →
    (s.hw.atomRec x.hdr.src = none → (s.hw.gon.recs.filter fun r => r.die == recDie x.hdr.src).length < 16384 →
      ∃ t r, exec (.atomicReqReceive ⟨p, .none⟩) s = .next t ∧ t.hw.gon.atomQ = s.hw.gon.atomQ ++ [⟨x.hdr, x.frame.payload, p, false, []⟩] ∧
        t.hw.atomRec x.hdr.src = some r ∧ r.high = x.hdr.seq ∧ aget (x.hdr.seq.toNat % 1024) r.slots = some ⟨x.hdr.seq, false, 0, 0⟩ ∧
        OnlyHw (.gon :: doneParts) Reg.isDone s t) ∧
    (∀ r k n, s.hw.atomRec x.hdr.src = some r → r.poisoned = false → (r.high - x.hdr.seq).toNat < 1024 →
      aget (x.hdr.seq.toNat % 1024) r.slots = some k → k.seq = x.hdr.seq → k.done = true → Routes s.hw (portDie p) x.hdr.src n →
      ∃ t r', exec (.atomicReqReceive ⟨p, .none⟩) s = .next t ∧ t.hw.gon.atomQ = s.hw.gon.atomQ ∧ t.hw.atomRec x.hdr.src = some r' ∧
        r'.slots = r.slots ∧ r'.high = r.high ∧ Sends t.hw s.hw.buf.nextId n 0x45 ∧ OnlyHw (.gon :: doneParts) Reg.isDone s t) ∧
    (∀ r n, s.hw.atomRec x.hdr.src = some r → (r.high - x.hdr.seq).toNat < 2 ^ 31 →
      r.poisoned = true ∨ 1024 ≤ (r.high - x.hdr.seq).toNat → Routes s.hw (portDie p) x.hdr.src n →
      ∃ t r', exec (.atomicReqReceive ⟨p, .none⟩) s = .next t ∧ t.hw.gon.atomQ = s.hw.gon.atomQ ∧ t.hw.atomRec x.hdr.src = some r' ∧
        r'.slots = r.slots ∧ r'.high = r.high ∧ Sends t.hw s.hw.buf.nextId n 0x45 ∧ OnlyHw (.gon :: doneParts) Reg.isDone s t)) ∧
  (∀ (n : Node) (seq : BitVec 32) (y : AtomReq) (r : AtomRec) (k : AtomSlot) (op : Nat) (old a c : W64) (s : State), s.mem.wf = true →
    (s.hw.gon.atomQ.find? fun z => z.hdr.src == n && z.hdr.seq == seq) = some y →
    (s.hw.gon.atomQ.find? fun z => z.hdr.roff == y.hdr.roff) = some y → y.lost = false → y.hdr.plen = 16 →
    s.hw.pathBoth (recDie y.hdr.src) (offQuad y.hdr.roff.toNat) = true → s.hw.pathUp (recDie y.hdr.src) (portDie y.port) = true →
    op = y.hdr.opData.toNat / 2 ^ 60 → 1 ≤ op → op ≤ 3 → y.hdr.roff.toNat % 8 = 0 → s.hw.inWindow y.hdr.roff.toNat 8 = true →
    s.mem.poisoned y.hdr.roff.toNat 8 = false → s.hw.gon.planted = [] → s.hw.bit .errInject Fld.errInject_arm = false →
    s.hw.atomRec n = some r → aget (seq.toNat % 1024) r.slots = some k → k.seq = seq →
    old = BitVec.ofNat 64 (natLE (s.mem.load y.hdr.roff.toNat 8)) → a = BitVec.ofNat 64 (getLE y.body 0 8) →
    c = BitVec.ofNat 64 (getLE y.body 8 8) →
    ∃ t r', exec (.atomicExecute n seq .none) s = .next t ∧ t.nv = s.nv ∧ t.pending = s.pending ∧
      (∀ b, t.mem.read b = written s.mem y.hdr.roff.toNat
        (bytesLE 8 (if op = 1 then old + a else if op = 2 then a else if old = c then a else old).toNat) b) ∧
      t.hw.gon.atomQ = s.hw.gon.atomQ.erase y ∧ t.hw.atomRec n = some r' ∧
      aget (seq.toNat % 1024) r'.slots = some { k with done := true, status := 0, old := old } ∧
      Only (.gon :: doneParts) Reg.isDone s.hw t.hw)

/-- COPY, HOST_TO_GONDOLA and GONDOLA_TO_HOST of a nonzero length join the descriptors of C-die[r mod 4], which is neither parked nor full, and are begun. A turn of the engine that holds one HOST_TO_GONDOLA copy within one segment, whose stacks it reaches over the floor and in whose first and last unit no error lies, writes the bytes that host memory gave at its offset and completes it with its length; a cancelled copy ends ABORTED. A MEM_READ_RESP for the last segment of a copy into this chip writes its bytes and ends the copy; a MEM_WRITE_ACK for the last segment ends it; a response that answers no segment is taken and counted; and a segment whose reissue time has passed is sent again, or at the third time ends the copy with TIMEOUT. -/
def Obligations.CopiesMoveBytesAndEnd : Prop :=
  (∀ (r : Ring) (d : Desc) (c : Instr) (op : Nat) (k : CopyDesc) (s : State), Runs s r op d →
    (c = .copy r ∧ op = 0x040 ∧ k = copyOf d.bytes s.hw.gon.nextCopy (.host r d.ix)) ∨
      (c = .hostToGondola r ∧ op = 0x041 ∧ k = { hostCopy r d .fromHost with id := s.hw.gon.nextCopy }) ∨
      (c = .gondolaToHost r ∧ op = 0x042 ∧ k = { hostCopy r d .toHost with id := s.hw.gon.nextCopy }) →
    k.len ≠ 0 → s.hw.parked (r % 4) = false → s.hw.parkReq (r % 4) = false → (s.hw.gon.copies.get (r % 4)).length < 4096 →
    s.hw.err.hubLost.get (r % 4) = false →
    ∃ t, exec c s = .next t ∧ t.hw.gon.copies.get (r % 4) = s.hw.gon.copies.get (r % 4) ++ [k] ∧
      (∀ x ∈ t.hw.hst.started, x.ix = d.ix → x.begun = true) ∧ OnlyHw [.gon, .hst] noRegs s t) ∧
  (∀ (c : Quad) (d : CopyDesc) (r : Nat) (x : Desc) (l : List Byte) (s : State), s.mem.wf = true → s.hw.quadOk c = true →
    s.hw.parked c = false → s.hw.gon.copies.get c = [d] → d.from_ = .host r x.ix → (s.hw.hst.started.find? fun y => y.ix == x.ix) = some x →
    (d.cancelled = false → d.kind = .fromHost → s.hw.hst.mayRequest = true → s.hw.err.hubLost.get c = false →
      s.hw.reaches c d.dstOff d.len = true → CleanEdges s d.dstOff d.len → d.segs = [] → d.cut = 0 → d.prefixDone = 0 → 0 < d.len →
      d.dstOff % 8192 + d.len ≤ 8192 → d.len ≤ l.length → s.hw.memStatus d.dstOff d.len true = 0 →
      s.hw.bit .errInject Fld.errInject_arm = false →
      ∃ t, exec (.copyEngineTurn c .none (some l)) s = .next t ∧ t.nv = s.nv ∧ t.pending = s.pending ∧
        (∀ a, t.mem.read a = written s.mem d.dstOff (l.take d.len) a) ∧ t.hw.gon.copies.get c = [] ∧ Completed s.hw t.hw x 0 d.len ∧
        Only (.gon :: doneParts) Reg.isHbm s.hw t.hw) ∧
    (d.cancelled = true →
      ∃ t, exec (.copyEngineTurn c .none none) s = .next t ∧ t.hw.gon.copies.get c = [] ∧ Completed s.hw t.hw x 0x06 d.prefixDone ∧
        OnlyHw [.gon, .hst, .out] (fun y => y.isRing = true) s t)) ∧
  (∀ (p : Port) (x : Taken) (c : Nat) (k : CopyDesc) (g : Seg) (r : Nat) (y : Desc) (s : State), k.segs = [g] → k.cut = k.len →
    k.prefixDone = 0 → k.kind = .copy → k.from_ = .host r y.ix → (s.hw.hst.started.find? fun z => z.ix == y.ix) = some y →
    (s.hw.gon.copies.get c).all (fun z => z.id != k.id || z == k) = true → x.hdr.status = 0 → x.tag = none →
    ((s.hw.takeFrame p [0x42]).1 = some x → s.hw.copyDie x.hdr.src x.hdr.seq false = some c →
      s.hw.copyFor c x.hdr.src x.hdr.seq false = some (k, g) → x.hdr.plen.toNat = g.len → k.dstNode = s.hw.node →
      s.hw.reaches c (k.dstOff + g.off) g.len = true →
      CleanEdges s (k.dstOff + g.off) x.frame.payload.length → s.hw.memStatus (k.dstOff + g.off) g.len false = 0 → s.mem.wf = true → s.hw.bit .errInject Fld.errInject_arm = false →
      ∃ t, exec (.memReadRespReceive p) s = .next t ∧ t.nv = s.nv ∧ t.pending = s.pending ∧
        (∀ a, t.mem.read a = written s.mem (k.dstOff + g.off) x.frame.payload a) ∧ (∀ z ∈ t.hw.gon.copies.get c, z.id ≠ k.id) ∧
        Completed s.hw t.hw y 0 g.len ∧ Only (.gon :: doneParts) Reg.isHbm s.hw t.hw) ∧
    ((s.hw.takeFrame p [0x43]).1 = some x → s.hw.copyDie x.hdr.src x.hdr.seq true = some c →
      s.hw.copyFor c x.hdr.src x.hdr.seq true = some (k, g) →
      ∃ t, exec (.memWriteAckReceive p) s = .next t ∧ (∀ z ∈ t.hw.gon.copies.get c, z.id ≠ k.id) ∧ Completed s.hw t.hw y 0 g.len ∧
        OnlyHw (.gon :: doneParts) Reg.isDone s t)) ∧
  (∀ (p : Port) (x : Taken) (write : Bool) (c : Instr) (s : State),
    (s.hw.takeFrame p [if write then 0x43 else 0x42]).1 = some x → s.hw.copyDie x.hdr.src x.hdr.seq write = none →
    c = (if write then .memWriteAckReceive p else .memReadRespReceive p) →
    ∃ t, exec c s = .next t ∧ t.hw.buf.taken = s.hw.buf.taken.filter (fun y => y.id != x.id) ∧
      OnlyHw [.buf, .hst, .out] (fun r => r.isCnt = true ∨ r.isRing = true) s t) ∧
  (∀ (c : Quad) (id : Nat) (d : CopyDesc) (g : Seg) (s : State), s.hw.copy c id = some d →
    (d.segs.find? fun y => (y.st == .reading || y.st == .writing) &&
      decide (y.sentAt + slotsMs * s.hw.fld .gondolaCfg Fld.gondolaCfg_copyRetryMs ≤ s.hw.slot c)) = some g →
    (g.reissues < 2 → s.hw.mayOriginate c = true → s.hw.admits c d.cls (vframeLen (if g.st = .writing then g.len else 0)) = true →
      ∃ t d' g', exec (.copyRetryTimeout c id) s = .next t ∧ t.hw.copy c id = some d' ∧ g' ∈ d'.segs ∧ g'.off = g.off ∧
        g'.reissues = g.reissues + 1 ∧ g'.sentAt = s.hw.slot c ∧ g'.st = g.st ∧ g'.seq = g.seq ∧
        OnlyHw (.gon :: sendParts) Reg.isNote s t) ∧
    (∀ r x, 2 ≤ g.reissues → d.from_ = .host r x.ix → (s.hw.hst.started.find? fun y => y.ix == x.ix) = some x →
      ∃ t, exec (.copyRetryTimeout c id) s = .next t ∧ t.hw.copy c id = none ∧ Completed s.hw t.hw x 0x4b d.prefixDone ∧
        OnlyHw [.gon, .hst, .out] (fun y => y.isRing = true) s t))

/-- A patrol of a line without an error changes nothing while no test error stands; a corrected one is counted and recorded; an uncorrectable one of the exported space poisons its unit, and its row comes under repair; one of any other line only brings its row under repair and loses what the line held. The end of a repair takes the row out and leaves a record. A refresh notes whether the stack is above 85 °C. A GONDOLA_CFG write is taken when its fields are in range, it keeps R190, it leaves EXPORT_GIB alone while ENABLE is 1, and it sets ENABLE over no window past the exported space; otherwise the register stands and CFG_ERR is set. A GONDOLA_WIN write that would reach past the exported space is refused the same way, and any other is taken. -/
def Obligations.StacksAreKeptAndWritesChecked : Prop :=
  (∀ (l : HbmLine) (s : State), s.hw.quadOk (stackQuad (pcStack l.pc)) = true → s.hw.parked (stackQuad (pcStack l.pc)) = false →
    s.hw.gon.planted = [] →
    exec (.patrolScrub l .none) s = .next s ∧
    ((s.hw.err.quadQ.get (stackQuad (pcStack l.pc))).length < 4096 →
      ∃ t, exec (.patrolScrub l .corrected) s = .next t ∧
        t.hw.fld (.hbmStatus (pcStack l.pc)) Fld.hbmStatus_ceCount =
          min (s.hw.fld (.hbmStatus (pcStack l.pc)) Fld.hbmStatus_ceCount + 1) (2 ^ Fld.hbmStatus_ceCount.width - 1) ∧
        (∃ r ∈ t.hw.err.quadQ.get (stackQuad (pcStack l.pc)), r.code = 0x0401 ∧ r.d0 = BitVec.ofNat 64 l.pc) ∧
        OnlyHw [.gon, .free, .err, .mgt] Reg.isHbm s t) ∧
    (gondolaOff l.pc l.addr.toNat < s.hw.exportBytes →
      ∃ t, exec (.patrolScrub l .uncorrectable) s = .next t ∧ gondolaOff l.pc l.addr.toNat / 64 ∈ t.mem.poison ∧
        lineRow l ∈ t.hw.gon.repairing ∧ t.mem.cells = s.mem.cells ∧ t.nv = s.nv ∧ t.pending = s.pending ∧
        Only [.gon, .free, .err, .mgt] Reg.isHbm s.hw t.hw) ∧
    (s.hw.exportBytes ≤ gondolaOff l.pc l.addr.toNat →
      ∃ t, exec (.patrolScrub l .uncorrectable) s = .next t ∧ lineRow l ∈ t.hw.gon.repairing ∧ t.mem = s.mem ∧ t.nv = s.nv ∧
        t.pending = s.pending ∧ Only (.gon :: doneParts) Reg.isHbm s.hw t.hw)) ∧
  (∀ (l : HbmLine) (s : State), lineRow l ∈ s.hw.gon.repairing →
    (s.hw.err.quadQ.get (stackQuad (pcStack l.pc))).length < 4096 →
    ∃ t, exec (.rowRepairComplete l) s = .next t ∧ (∀ y ∈ t.hw.gon.repairing, y ≠ lineRow l) ∧
      (∃ r ∈ t.hw.err.quadQ.get (stackQuad (pcStack l.pc)), (r.code = 0x0403 ∨ r.code = 0x0404) ∧ r.unit = pcStack l.pc) ∧
      OnlyHw [.gon, .free, .err, .mgt] Reg.isHbm s t) ∧
  (∀ (k : Stack) (temp : Byte) (s : State), s.hw.pwr.porHeld = false →
    ∃ t, exec (.hbmRefresh k temp) s = .next t ∧ (k.val ∈ t.hw.gon.hot ↔ 85 < temp.toInt) ∧
      (∀ j, j ≠ k.val → (j ∈ t.hw.gon.hot ↔ j ∈ s.hw.gon.hot)) ∧ OnlyHw [.gon] noRegs s t) ∧
  (∀ (acc : Acc) (v w : W64) (s : State), s.hw.pwr.porHeld = false → s.hw.dpReady = true → w = s.hw.writeWord .gondolaCfg acc v →
    (Fld.gondolaCfg_exportGib.get w + 4 * s.hw.spillMax ≤ 368 ∧ 1 ≤ Fld.gondolaCfg_atomIdleMs.get w ∧ 1 ≤ Fld.gondolaCfg_scrubH.get w ∧
        1 ≤ Fld.gondolaCfg_copyRetryMs.get w ∧
        (s.hw.bit .gondolaCfg Fld.gondolaCfg_enable = true →
          Fld.gondolaCfg_exportGib.get w = s.hw.fld .gondolaCfg Fld.gondolaCfg_exportGib) ∧
        (Fld.gondolaCfg_enable.get w = 1 → ∀ i, i < 16 → s.hw.fld (.gondolaWin i) Fld.gondolaWin_size ≠ 0 →
          s.hw.fld (.gondolaWin i) Fld.gondolaWin_base + s.hw.fld (.gondolaWin i) Fld.gondolaWin_size ≤ 512 * Fld.gondolaCfg_exportGib.get w) →
      ∃ t, exec (.gondolaCfgWrite acc v) s = .next t ∧ t.hw.reg .gondolaCfg = w ∧ OnlyHw [] (fun r => r = .gondolaCfg) s t) ∧
    (368 < Fld.gondolaCfg_exportGib.get w + 4 * s.hw.spillMax ∨ Fld.gondolaCfg_atomIdleMs.get w = 0 ∨ Fld.gondolaCfg_scrubH.get w = 0 ∨
        Fld.gondolaCfg_copyRetryMs.get w = 0 ∨
        (s.hw.bit .gondolaCfg Fld.gondolaCfg_enable = true ∧
          Fld.gondolaCfg_exportGib.get w ≠ s.hw.fld .gondolaCfg Fld.gondolaCfg_exportGib) ∨
        (Fld.gondolaCfg_enable.get w = 1 ∧ ∃ i, i < 16 ∧ s.hw.fld (.gondolaWin i) Fld.gondolaWin_size ≠ 0 ∧
          512 * Fld.gondolaCfg_exportGib.get w < s.hw.fld (.gondolaWin i) Fld.gondolaWin_base + s.hw.fld (.gondolaWin i) Fld.gondolaWin_size) →
      ∃ t, exec (.gondolaCfgWrite acc v) s = .next t ∧ t.hw.bit .gondolaStatus Fld.gondolaStatus_cfgErr = true ∧
        OnlyHw [] (fun r => r = .gondolaStatus) s t)) ∧
  (∀ (i : Fin 16) (acc : Acc) (v w : W64) (s : State), s.hw.pwr.porHeld = false → s.hw.dpReady = true →
    w = s.hw.writeWord (.gondolaWin i) acc v →
    (Fld.gondolaWin_base.get w + Fld.gondolaWin_size.get w ≤ 512 * s.hw.fld .gondolaCfg Fld.gondolaCfg_exportGib →
      ∃ t, exec (.gondolaWinWrite i acc v) s = .next t ∧ t.hw.reg (.gondolaWin i) = w ∧ OnlyHw [] (fun r => r = .gondolaWin i) s t) ∧
    (512 * s.hw.fld .gondolaCfg Fld.gondolaCfg_exportGib < Fld.gondolaWin_base.get w + Fld.gondolaWin_size.get w →
      ∃ t, exec (.gondolaWinWrite i acc v) s = .next t ∧ t.hw.bit .gondolaStatus Fld.gondolaStatus_cfgErr = true ∧
        OnlyHw [] (fun r => r = .gondolaStatus) s t))

/-- An SQ doorbell below the ring's size sets SQ_TAIL and one beyond it stops the pair with cause 1; on a DISABLED or failed pair it is counted. A CQ doorbell in range moves the CQ's head, and one beyond the ring or the completions written stops the pair with cause 2. A BAR2 write that is no doorbell is counted. Setting ENABLE on a DISABLED pair starts it RUNNING and empty; clearing it on a RUNNING or PAUSED pair makes it STOPPING and on one in ERROR makes it DISABLED and empties a stage set it owns, and a STOPPING pair with only record buffers left ends DISABLED. A fetch on a RUNNING pair with work and room adds the descriptor and moves SQ_HEAD on; one that host memory refuses stops the pair with cause 3. The coalescing timer sends the CQ's message or leaves it pending; unmasking a vector sends its pending message; a record buffer is begun, and one whose flush time has come completes with what it holds. -/
def Obligations.RingsTakeDoorbellsAndDescriptors : Prop :=
  ∀ (r : Ring) (s : State),
  (∀ v : W64, s.hw.pwr.porHeld = false →
    (s.hw.ringState r ≠ 0 → s.hw.ringState r ≠ 3 → v.toNat % 65536 < s.hw.sqSize r →
      ∃ t, exec (.sqDoorbell r v) s = .next t ∧ t.hw.fld (.ringStatus r) Fld.ringStatus_sqTail = v.toNat % 65536 ∧
        OnlyHw [] (fun x => x = .ringStatus r) s t) ∧
    (s.hw.ringState r ≠ 0 → s.hw.ringState r ≠ 3 → s.hw.sqSize r ≤ v.toNat % 65536 →
      ∃ t, exec (.sqDoorbell r v) s = .next t ∧ t.hw.ringState r = 3 ∧ t.hw.fld (.ringStatus r) Fld.ringStatus_err = 1 ∧
        (t.hw.reg .hostIrqSts).getLsbD 8 = true ∧ OnlyHw [.hst, .out] (fun x => x = .ringStatus r ∨ x = .hostIrqSts) s t) ∧
    (s.hw.ringState r = 0 ∨ s.hw.ringState r = 3 → ∀ c : Instr, c = .sqDoorbell r v ∨ c = .cqDoorbell r v →
      ∃ t, exec c s = .next t ∧
        t.hw.fld .hqStatus Fld.hqStatus_badDoorbells =
          min (s.hw.fld .hqStatus Fld.hqStatus_badDoorbells + 1) (2 ^ Fld.hqStatus_badDoorbells.width - 1) ∧
        OnlyHw [] (fun x => x = .hqStatus) s t) ∧
    (s.hw.ringState r ≠ 0 → s.hw.ringState r ≠ 3 → v.toNat % 65536 < s.hw.cqSize r →
      ringDist (s.hw.cqSize r) (s.hw.ring r).cqHead (v.toNat % 65536) ≤
        ringDist (s.hw.cqSize r) (s.hw.ring r).cqHead (s.hw.fld (.ringStatus r) Fld.ringStatus_cqTail) →
      ∃ t, exec (.cqDoorbell r v) s = .next t ∧ (t.hw.ring r).cqHead = v.toNat % 65536 ∧ OnlyHw [.hst, .out] noRegs s t) ∧
    (s.hw.ringState r ≠ 0 → s.hw.ringState r ≠ 3 →
      (s.hw.cqSize r ≤ v.toNat % 65536 ∨
        ringDist (s.hw.cqSize r) (s.hw.ring r).cqHead (s.hw.fld (.ringStatus r) Fld.ringStatus_cqTail) <
          ringDist (s.hw.cqSize r) (s.hw.ring r).cqHead (v.toNat % 65536)) →
      ∃ t, exec (.cqDoorbell r v) s = .next t ∧ t.hw.ringState r = 3 ∧ t.hw.fld (.ringStatus r) Fld.ringStatus_err = 2 ∧
        (t.hw.reg .hostIrqSts).getLsbD 8 = true ∧ OnlyHw [.hst, .out] (fun x => x = .ringStatus r ∨ x = .hostIrqSts) s t)) ∧
  (∀ (off : BitVec 20) (size : Nat), s.hw.pwr.porHeld = false → ¬(size = 8 ∧ (off.toNat % 4096 = 0 ∨ off.toNat % 4096 = 8)) →
    ∃ t, exec (.badDoorbell off size) s = .next t ∧
      t.hw.fld .hqStatus Fld.hqStatus_badDoorbells =
        min (s.hw.fld .hqStatus Fld.hqStatus_badDoorbells + 1) (2 ^ Fld.hqStatus_badDoorbells.width - 1) ∧
      OnlyHw [] (fun x => x = .hqStatus) s t) ∧
  (∀ v : W64, s.hw.pwr.porHeld = false → s.hw.ringState r = 0 →
    ∃ t, exec (.ringEnable r v) s = .next t ∧ t.hw.ringState r = 1 ∧ t.hw.bit (.ringCtl r) Fld.ringCtl_enable = true ∧
      t.hw.fld (.ringStatus r) Fld.ringStatus_sqHead = 0 ∧ t.hw.fld (.ringStatus r) Fld.ringStatus_sqTail = 0 ∧
      t.hw.fld (.ringStatus r) Fld.ringStatus_cqTail = 0 ∧ t.hw.ring r = RingSt.fresh ∧ t.hw.hst.started = s.hw.hst.started ∧
      OnlyHw [.hst] (fun x => x = .ringCtl r ∨ x = .ringStatus r) s t) ∧
  (s.hw.ringState r = 1 ∨ s.hw.ringState r = 3 ∨ s.hw.ringState r = 4 →
    ∃ t, exec (.ringDisable r) s = .next t ∧ t.hw.ringState r = (if s.hw.ringState r = 3 then 0 else 2) ∧
      t.hw.bit (.ringCtl r) Fld.ringCtl_enable = false ∧ (s.hw.hst.stageOwner = r.val → t.hw.hst.stage = []) ∧
      OnlyHw [.gon, .hst, .out] (fun x => x = .ringCtl r ∨ x = .ringStatus r) s t) ∧
  (s.hw.ringState r = 2 → s.hw.hst.mayRequest = true → (∀ d ∈ s.hw.hst.started, d.ring = r.val → d.opcode = 0x070) →
    ∃ t, exec (.ringStopComplete r) s = .next t ∧ t.hw.ringState r = 0 ∧ (∀ d ∈ t.hw.hst.started, d.ring ≠ r.val) ∧
      OnlyHw [.hst, .out] (fun x => x = .ringStatus r) s t) ∧
  (∀ (l : List Byte) (d : Desc), s.hw.ringState r = 1 → s.hw.hst.mayRequest = true →
    s.hw.fld (.ringStatus r) Fld.ringStatus_sqHead ≠ s.hw.fld (.ringStatus r) Fld.ringStatus_sqTail → s.hw.cqRoom r = true →
    s.hw.unbegun r = none →
    (l.length = 64 → d = ⟨r, s.hw.hst.nextIx, l, false, [], 0, none⟩ → (d.order = false ∨ s.hw.ringLoad r = 0) →
      opAssigned d.opcode = true → opOnRing d.opcode (s.hw.fld (.ringCtl r) Fld.ringCtl_kind) = true →
      ∃ t, exec (.descriptorFetch r (.bytes l)) s = .next t ∧ t.hw.hst.started = s.hw.hst.started ++ [d] ∧
        t.hw.fld (.ringStatus r) Fld.ringStatus_sqHead =
          (s.hw.fld (.ringStatus r) Fld.ringStatus_sqHead + 1) % s.hw.sqSize r % 2 ^ 16 ∧
        OnlyHw [.hst] (fun x => x = .ringStatus r) s t) ∧
    (∃ t, exec (.descriptorFetch r .failed) s = .next t ∧ t.hw.ringState r = 3 ∧ t.hw.fld (.ringStatus r) Fld.ringStatus_err = 3 ∧
      t.hw.hst.started = s.hw.hst.started ∧ OnlyHw [.hst, .out] (fun x => x = .ringStatus r ∨ x = .hostIrqSts) s t)) ∧
  (∀ t0, (s.hw.ring r).firstAt = some t0 → t0 + slotsUs * s.hw.fld (.ringCtl r) Fld.ringCtl_coalUs ≤ s.hw.tim.local_ →
    (s.hw.ring r).armed = true → s.hw.bit (.ringCtl r) Fld.ringCtl_irqEn = true → 0 < (s.hw.ring r).unsignaled →
    ∃ t, exec (.coalTimerExpire r) s = .next t ∧ (t.hw.ring r).armed = false ∧ (t.hw.ring r).unsignaled = 0 ∧
      (.msix (s.hw.fld (.ringCtl r) Fld.ringCtl_vector) ∈ t.hw.out ∨ s.hw.fld (.ringCtl r) Fld.ringCtl_vector ∈ t.hw.hst.msixPending) ∧
      OnlyHw [.hst, .out] noRegs s t) ∧
  (∀ v : Fin 2048, s.hw.pwr.porHeld = false →
    ∃ t, exec (.msixUnmask v) s = .next t ∧ v.val ∈ t.hw.hst.msixOpen ∧
      (s.hw.hst.mayRequest = true → v.val ∈ s.hw.hst.msixPending → .msix v.val ∈ t.hw.out ∧ v.val ∉ t.hw.hst.msixPending) ∧
      OnlyHw [.hst, .out] noRegs s t) ∧
  (∀ d : Desc, s.hw.unbegun r = some d → d.opcode = 0x070 → s.hw.mayTurn r = true → s.hw.fatalChip = false → getLE d.bytes 8 8 % 64 = 0 →
    256 ≤ getLE d.bytes 16 4 → getLE d.bytes 16 4 ≤ 1048576 → getLE d.bytes 16 4 % 64 = 0 →
    ∃ t, exec (.recordBuf r) s = .next t ∧ { d with begun := true } ∈ t.hw.hst.started ∧ OnlyHw [.hst] noRegs s t) ∧
  (∀ (d : Desc) (rest : List Desc) (t0 : Nat), s.hw.recBufs r = d :: rest → d.firstAt = some t0 → s.hw.hst.mayRequest = true →
    t0 + slotsUs * s.hw.fld .hqCtl Fld.hqCtl_recordFlushUs ≤ s.hw.tim.local_ →
    ∃ t, exec (.recordFlushTimer r) s = .next t ∧ Completed s.hw t.hw d 0 (d.filled.length + 2 ^ 32 * d.nrec) ∧
      (d.filled ≠ [] → .hostWrite r (getLE d.bytes 8 8) d.filled ∈ t.hw.out) ∧
      OnlyHw [.hst, .out] (fun x => x = .ringStatus r) s t)

/-- With every hub path up: NOP completes; CANCEL of a running operation asks it to stop, and of an unknown tag completes NOT_FOUND. EXC_WRITE of a new node adds its static entry to every replica and of a present one replaces it, EXC_REMOVE takes the entry out of every replica, and EXC_READ returns it. MCAST_WRITE gives the group the mask's ports in every replica and MCAST_READ writes its mask to host memory. A staged EXC_WRITE and STAGE_WRITE join the set and change no table; STAGE_DISCARD empties it; STAGE_COMMIT of a set in which an item is refused completes with that status and changes no table and no register, and of one removal takes the entry out and raises EPOCH by one. A DIR_CMD lookup writes the entry to host memory, and FW_DISCARD empties the staging area. -/
def Obligations.CommandsChangeTablesWholly : Prop :=
  ∀ (r : Ring) (d : Desc) (s : State), (∀ q, q < 4 → s.hw.err.hubLost.get q = false) → s.hw.fwd.gathered = none →
  (∀ c op, (c = .nop r ∧ op = 0x001) ∨ (c = .fwDiscard r ∧ op = 0x062) → s.hw.unbegun r = some d → d.opcode = op → s.hw.mayTurn r = true → s.hw.fatalChip = false →
    ∃ t, exec c s = .next t ∧ Completed s.hw t.hw d 0 0 ∧ (op = 0x062 → t.hw.hst.fwStage = []) ∧
      OnlyHw [.hst, .out] (fun x => x.isRing = true) s t) ∧
  (Runs s r 0x002 d →
    (∀ x, (s.hw.hst.started.find? fun x => x.ring == d.ring && x.begun && x.tag == getLE d.bytes 8 4 &&
        (opStops x.opcode || opCopies x.opcode) && x.opcode != 0x061) = some x →
      ∃ t, exec (.cancel r) s = .next t ∧ Completed s.hw t.hw d 0 0 ∧
        (∀ l ∈ t.hw.hst.long, l.ix = x.ix → longStops l.op = true → l.stop = true) ∧
        (∀ c, c < 4 → ∀ k ∈ t.hw.gon.copies.get c, ∀ n, k.from_ = .host n x.ix → k.cancelled = true) ∧
        OnlyHw [.gon, .hst, .out] (fun x => x.isRing = true) s t) ∧
    ((∀ x ∈ s.hw.hst.started, x.tag ≠ getLE d.bytes 8 4) →
      ∃ t, exec (.cancel r) s = .next t ∧ Completed s.hw t.hw d 0x11 0 ∧ OnlyHw [.hst, .out] (fun x => x.isRing = true) s t)) ∧
  (∀ e w, Runs s r 0x020 d → w = BitVec.ofNat 64 (getLE d.bytes 8 8) →
    (excOfWord w = some e → bits d.flags 0 1 = 0 →
      (∀ o, s.hw.excLook e.node = none → s.hw.excPlace e.node = some o →
        ∃ t, exec (.excWrite r) s = .next t ∧ (∀ k, k < 4 → t.hw.fwd.exc.get k = ((s.hw.fwd.exc.get k).filter fun x => x.node != e.node) ++ [s.hw.excNew e o]) ∧
          Completed s.hw t.hw d 0 0 ∧ OnlyHw (.hst :: .out :: pathParts) (fun x => x.isEpoch ∨ x.isRing = true) s t) ∧
      (∀ old, s.hw.excLook e.node = some old → ¬(bits d.flags 1 1 = 1 ∧ old.static = true) →
        ∃ t, exec (.excWrite r) s = .next t ∧
          (∀ k, k < 4 → t.hw.fwd.exc.get k = (s.hw.fwd.exc.get k).map fun x => if x.node = e.node then { e with ovf := x.ovf, moved := x.moved } else x) ∧
          Completed s.hw t.hw d 0 1 ∧ OnlyHw (.hst :: .out :: pathParts) (fun x => x.isEpoch ∨ x.isRing = true) s t)) ∧
    (bits d.flags 0 1 = 1 → s.hw.stageHeld r = false → s.hw.hst.stage.length < 1024 →
      ∃ t, exec (.excWrite r) s = .next t ∧ t.hw.hst.stage = s.hw.hst.stage ++ [.excWrite w (bits d.flags 1 1 == 1)] ∧
        Completed s.hw t.hw d 0 0 ∧ OnlyHw [.hst, .out] (fun x => x.isRing = true) s t)) ∧
  (∀ e, s.hw.excLook (BitVec.ofNat 24 (getLE d.bytes 8 3)) = some e →
    (Runs s r 0x021 d → bits d.flags 0 1 = 0 →
      ∃ t, exec (.excRemove r) s = .next t ∧
        (∀ k, k < 4 → t.hw.fwd.exc.get k = (s.hw.fwd.exc.get k).filter fun x => x.node != BitVec.ofNat 24 (getLE d.bytes 8 3)) ∧
        Completed s.hw t.hw d 0 e.word.toNat ∧ OnlyHw (.hst :: .out :: pathParts) (fun x => x.isEpoch ∨ x.isRing = true) s t) ∧
    (Runs s r 0x022 d →
      ∃ t, exec (.excRead r) s = .next t ∧ Completed s.hw t.hw d 0 e.word.toNat ∧ OnlyHw [.hst, .out] (fun x => x.isRing = true) s t)) ∧
  (∀ l, Runs s r 0x028 d → s.hw.hst.mayRequest = true → 128 ≤ l.length → bits d.flags 0 1 = 0 →
    ∃ t, exec (.mcastWrite r (some l)) s = .next t ∧
      (∀ k, k < 4 → (aget (getLE d.bytes 8 2) (t.hw.fwd.mcast.get k)).getD [] = maskPorts (l.take 128)) ∧
      Completed s.hw t.hw d 0 0 ∧ OnlyHw [.fwd, .hst, .out] (fun x => x.isRing = true) s t) ∧
  (Runs s r 0x029 d → s.hw.hst.mayRequest = true →
    ∃ t, exec (.mcastRead r) s = .next t ∧
      .hostWrite r (getLE d.bytes 16 8) (portsMask ((aget (getLE d.bytes 8 2) (s.hw.fwd.mcast.get s.hw.readDie)).getD [])) ∈ t.hw.out ∧
      Completed s.hw t.hw d 0 0 ∧ OnlyHw [.hst, .out] (fun x => x.isRing = true) s t) ∧
  (s.hw.stageHeld r = false →
    (Runs s r 0x010 d → d.flags % 4 ≠ 0 → (∀ i, i < d.flags % 4 → stageAddr (getLE d.bytes (16 + 16 * i) 8) = true) →
      s.hw.hst.stage.length + d.flags % 4 ≤ 1024 →
      ∃ t, exec (.stageWrite r) s = .next t ∧
        t.hw.hst.stage = s.hw.hst.stage ++ (List.range (d.flags % 4)).map (fun i =>
          .reg (getLE d.bytes (16 + 16 * i) 8) (BitVec.ofNat 64 (getLE d.bytes (24 + 16 * i) 8))) ∧ t.hw.hst.stageOwner = r ∧
        Completed s.hw t.hw d 0 (s.hw.hst.stage.length + d.flags % 4) ∧ OnlyHw [.hst, .out] (fun x => x.isRing = true) s t) ∧
    (Runs s r 0x012 d →
      ∃ t, exec (.stageDiscard r) s = .next t ∧ t.hw.hst.stage = [] ∧ Completed s.hw t.hw d 0 s.hw.hst.stage.length ∧
        OnlyHw [.hst, .out] (fun x => x.isRing = true) s t) ∧
    (∀ n, Runs s r 0x011 d → n ≠ 0 →
      (Hw.stageRun s.nv s.hw.hst.stage { s.hw with fwd := { s.hw.fwd with gathered := some [] } }).1 = n →
      ∃ t, exec (.stageCommit r) s = .next t ∧ t.hw.hst.stage = [] ∧ Completed s.hw t.hw d n 0 ∧
        OnlyHw [.hst, .out] (fun x => x.isRing = true) s t) ∧
    (∀ node e, Runs s r 0x011 d → s.hw.hst.stage = [.excRemove node] → s.hw.excLook node = some e →
      ∃ t, exec (.stageCommit r) s = .next t ∧ t.hw.hst.stage = [] ∧ t.hw.fwd.gathered = none ∧
        (∀ k, k < 4 → t.hw.fwd.exc.get k = (s.hw.fwd.exc.get k).filter fun x => x.node != node) ∧
        t.hw.fld .epochStatus Fld.epochStatus_epoch = (s.hw.fld .epochStatus Fld.epochStatus_epoch + 1) % 2 ^ 32 ∧
        Completed s.hw t.hw d 0 (t.hw.fld .epochStatus Fld.epochStatus_epoch) ∧
        OnlyHw (.hst :: .out :: pathParts) (fun x => x.isEpoch ∨ x.isRing = true) s t)) ∧
  (∀ e y, Runs s r 0x048 d → e = dirEntOf (slice d.bytes 16 32) → d.flags % 16 = 1 → getLE d.bytes 8 8 ≠ 0 → s.hw.hst.mayRequest = true →
    s.hw.bit .gondolaCfg Fld.gondolaCfg_enable = true → (s.hw.dirDies e).all s.hw.memServes = true → s.hw.gon.dir.find? e.same = some y →
    ∃ t, exec (.dirCmd ⟨r, .none⟩) s = .next t ∧ .hostWrite r (getLE d.bytes 8 8) y.bytes ∈ t.hw.out ∧ Completed s.hw t.hw d 0 0 ∧
      OnlyHw [.hst, .out] (fun x => x.isRing = true) s t)

/-- A long command with good fields begins its operation while none of its kind runs. An operation whose turn it is not stays as it is; one whose descriptor is gone ends, a rehash apart; one that moves host data waits while the chip may start no request. A step of an operation that was asked to stop ends it with ABORTED and its progress. A step of HBM_WIPE clears the next 2 MiB of the quadrants that the hub reaches and no other byte, and completes when that was the last. A step of EXC_DUMP writes the next 512 entries by node number of a replica to host memory, and completes with their number when none is left. A rehash first tests whether the entries fit under the new seed, and completes with NO_ROOM (0x49 for the directory), no table changed, if they do not; each later step moves 512 entries, and once all have moved the new seed is in force and the command completes with the number moved. A step of COUNTER_SNAPSHOT latches, then writes a page, then completes; a step of FW_STAGE adds the next 64 KiB that host memory gave and completes with the last, or with DMA_ERROR where it gave none; FW_COMMIT verifies the image, then writes it to the boot flash, and completes with FLASH_ERROR where that write fails. The portions of a step are the model's choice (log entry 44). -/
def Obligations.LongOperationsRunInSteps : Prop :=
  (∀ (r : Ring) (d : Desc) (c : Instr) (op : Nat) (k : LongOp) (s : State), Runs s r op d → s.hw.longOf k = none →
    (c = .excDump r ∧ op = 0x023 ∧ k = .excDump ∧ getLE d.bytes 8 8 % 64 = 0 ∧ 1 ≤ getLE d.bytes 16 4 ∧ getLE d.bytes 16 4 ≤ 528384) ∨
      (c = .excRehash r ∧ op = 0x024 ∧ k = .excRehash) ∨ (c = .dirRehash r ∧ op = 0x049 ∧ k = .dirRehash) ∨
      (c = .hbmWipe r ∧ op = 0x050 ∧ k = .hbmWipe ∧ getLE d.bytes 8 5 % 2097152 = 0 ∧ getLE d.bytes 16 5 % 2097152 = 0 ∧
        getLE d.bytes 8 5 + getLE d.bytes 16 5 ≤ s.hw.exportBytes) ∨
      (c = .counterSnapshot r ∧ op = 0x058 ∧ k = .counterSnapshot ∧ getLE d.bytes 8 8 % 4096 = 0) ∨
      (c = .fwStage r ∧ op = 0x060 ∧ k = .fwStage ∧ getLE d.bytes 16 3 % 4096 = 0 ∧ 1 ≤ getLE d.bytes 24 3 ∧
        getLE d.bytes 16 3 + getLE d.bytes 24 3 ≤ 4194304) ∨
      ((c = .fwCommit r ∧ bits d.flags 0 1 = 0 ∨ c = .fwCommitRestart r ∧ bits d.flags 0 1 = 1) ∧ op = 0x061 ∧ k = .fwCommit ∧
        getLE d.bytes 8 3 ≤ 4194304 ∧ getLE d.bytes 8 3 ≤ s.hw.stagedBytes) →
    ∃ t l, exec c s = .next t ∧ t.hw.hst.long = s.hw.hst.long ++ [l] ∧ l.op = k ∧ l.ring = r.val ∧ l.ix = d.ix ∧ l.stop = false ∧
      l.progress = 0 ∧ l.tested = false ∧ OnlyHw [.hst] noRegs s t) ∧
  (∀ (k : LongOp) (l : LongRun) (dma : Option (List Byte)) (ok : Bool) (s : State), s.hw.longOf k = some l →
    (s.hw.mayTurn (longItem k) = false → exec (.longOperationStep k dma ok) s = .next s) ∧
    (s.hw.mayTurn (longItem k) = true → s.hw.longDesc l = none → k ≠ .excRehash → k ≠ .dirRehash →
      ∃ t, exec (.longOperationStep k dma ok) s = .next t ∧ t.hw.longOf k = none ∧ OnlyHw [.hst] noRegs s t)) ∧
  (∀ (k : LongOp) (l : LongRun) (d : Desc) (dma : Option (List Byte)) (ok : Bool) (s : State), s.hw.longOf k = some l → s.hw.longDesc l = some d →
    s.hw.mayTurn (longItem k) = true →
    (l.stop = true →
      ∃ t, exec (.longOperationStep k dma ok) s = .next t ∧ t.hw.longOf k = none ∧ Completed s.hw t.hw d 0x06 l.progress ∧
        OnlyHw [.hst, .out] (fun x => x.isRing = true) s t) ∧
    (l.stop = false → s.hw.hst.mayRequest = false → k = .excDump ∨ k = .fwStage ∨ (k = .counterSnapshot ∧ l.latch ≠ []) →
      ∃ t, exec (.longOperationStep k dma ok) s = .next t ∧ t.hw.longOf k = some l ∧ t.hw.hst.started = s.hw.hst.started ∧
        OnlyHw [.hst] noRegs s t) ∧
    (l.stop = false →
      (k = .hbmWipe → l.progress < getLE d.bytes 16 5 → (∀ q, q < 4 → s.hw.memServes q = true) →
        ∃ t, exec (.longOperationStep k dma ok) s = .next t ∧ t.nv = s.nv ∧ t.pending = s.pending ∧
          (∀ a, t.mem.read a = if getLE d.bytes 8 5 + l.progress ≤ a ∧ a < getLE d.bytes 8 5 + l.progress + 2097152 ∧
            s.hw.err.hubLost.get (offQuad a) = false then 0 else s.mem.read a) ∧
          (getLE d.bytes 16 5 ≤ l.progress + 2097152 →
            t.hw.longOf k = none ∧ Completed s.hw t.hw d (if s.hw.someLost then 0x0a else 0) (l.progress + 2097152)) ∧
          (l.progress + 2097152 < getLE d.bytes 16 5 → t.hw.longOf k = some { l with progress := l.progress + 2097152 }) ∧
          Only [.gon, .hst, .out] (fun x => x.isRing = true) s.hw t.hw) ∧
      (∀ (ahead es : List ExcEnt) (n : Nat), k = .excDump → s.hw.hst.mayRequest = true →
        ahead = ((s.hw.fwd.exc.get s.hw.readDie).filter fun e => decide (l.latch.headD 0 ≤ e.node.toNat)).foldr byNode [] →
        es = ahead.take (min 512 (getLE d.bytes 16 4 - l.progress)) → n = l.progress + es.length →
        ∃ t, exec (.longOperationStep k dma ok) s = .next t ∧
          (es ≠ [] → .hostWrite d.ring (getLE d.bytes 8 8 + 8 * l.progress) (es.flatMap fun e => bytesLE 8 e.word.toNat) ∈ t.hw.out) ∧
          (es.length = min ahead.length (getLE d.bytes 16 4 - l.progress) →
            t.hw.longOf k = none ∧ Completed s.hw t.hw d (if s.hw.someLost then 0x0a else 0) n) ∧
          (es.length < min ahead.length (getLE d.bytes 16 4 - l.progress) →
            ∃ e, es.getLast? = some e ∧ t.hw.longOf k = some { l with progress := n, latch := [e.node.toNat + 1] }) ∧
          OnlyHw [.hst, .out] (fun x => x.isRing = true) s t) ∧
      (k = .excRehash →
        (l.tested = false →
          (bucketsFit ((s.hw.fwd.exc.get s.hw.readDie).map fun e => excBucket e.node (BitVec.ofNat 32 (l.latch.headD 0))) 1 4096 = true →
            ∃ t, exec (.longOperationStep k dma ok) s = .next t ∧ t.hw.longOf k = some { l with tested := true } ∧ OnlyHw [.hst] noRegs s t) ∧
          (bucketsFit ((s.hw.fwd.exc.get s.hw.readDie).map fun e => excBucket e.node (BitVec.ofNat 32 (l.latch.headD 0))) 1 4096 = false →
            ∃ t, exec (.longOperationStep k dma ok) s = .next t ∧ t.hw.longOf k = none ∧ Completed s.hw t.hw d 0x10 0 ∧
              OnlyHw [.hst, .out] (fun x => x.isRing = true) s t)) ∧
        (∀ n, l.tested = true → n = ((s.hw.fwd.exc.get s.hw.readDie).filter fun e => !e.moved).length → n ≠ 0 →
          ∃ t, exec (.longOperationStep k dma ok) s = .next t ∧ t.hw.longOf k = some { l with progress := l.progress + min n 512 } ∧
            (∀ q, q < 4 → s.hw.err.hubLost.get q = false →
              (t.hw.fwd.exc.get q).map (fun e => (e.node, e.kind, e.target)) = (s.hw.fwd.exc.get q).map (fun e => (e.node, e.kind, e.target)) ∧
              ((t.hw.fwd.exc.get q).filter fun e => !e.moved).length = ((s.hw.fwd.exc.get q).filter fun e => !e.moved).length - 512) ∧
            OnlyHw [.fwd, .hst] noRegs s t) ∧
        (l.tested = true → ((s.hw.fwd.exc.get s.hw.readDie).filter fun e => !e.moved) = [] →
          ∃ t, exec (.longOperationStep k dma ok) s = .next t ∧ t.hw.longOf k = none ∧
            t.hw.fld .fwdSeed Fld.fwdSeed_excSeed = l.latch.headD 0 % 2 ^ 32 ∧
            (∀ q, q < 4 → s.hw.err.hubLost.get q = false → t.hw.fwd.exc.get q = (s.hw.fwd.exc.get q).map fun e => { e with moved := false }) ∧
            Completed s.hw t.hw d (if s.hw.someLost then 0x0a else 0) l.progress ∧
            OnlyHw [.fwd, .hst, .out] (fun x => x = .fwdSeed ∨ x.isRing = true) s t)) ∧
      (k = .dirRehash →
        (l.tested = false →
          (bucketsFit (s.hw.gon.dir.map fun e => dirBucket e.keyHi e.keyLo (BitVec.ofNat 32 (l.latch.headD 0))) 4 16384 = true →
            ∃ t, exec (.longOperationStep k dma ok) s = .next t ∧ t.hw.longOf k = some { l with tested := true } ∧ OnlyHw [.hst] noRegs s t) ∧
          (bucketsFit (s.hw.gon.dir.map fun e => dirBucket e.keyHi e.keyLo (BitVec.ofNat 32 (l.latch.headD 0))) 4 16384 = false →
            ∃ t, exec (.longOperationStep k dma ok) s = .next t ∧ t.hw.longOf k = none ∧ Completed s.hw t.hw d 0x49 0 ∧
              OnlyHw [.hst, .out] (fun x => x.isRing = true) s t)) ∧
        (∀ n, l.tested = true → n = (s.hw.gon.dir.filter fun e => !e.moved).length → n ≠ 0 →
          ∃ t, exec (.longOperationStep k dma ok) s = .next t ∧ t.hw.longOf k = some { l with progress := l.progress + min n 512 } ∧
            t.hw.gon.dir.map (fun e => (e.keyLo, e.keyHi, e.locOffset, e.tag)) = s.hw.gon.dir.map (fun e => (e.keyLo, e.keyHi, e.locOffset, e.tag)) ∧
            (t.hw.gon.dir.filter fun e => !e.moved).length = n - 512 ∧ OnlyHw [.gon, .hst] noRegs s t) ∧
        (l.tested = true → (s.hw.gon.dir.filter fun e => !e.moved) = [] →
          ∃ t, exec (.longOperationStep k dma ok) s = .next t ∧ t.hw.longOf k = none ∧
            t.hw.fld .gondolaSeed Fld.gondolaSeed_dirSeed = l.latch.headD 0 % 2 ^ 32 ∧
            t.hw.gon.dir = (s.hw.gon.dir.map fun e => { e with moved := false }) ∧
            Completed s.hw t.hw d (if s.hw.someLost then 0x0a else 0) l.progress ∧
            OnlyHw [.gon, .hst, .out] (fun x => x = .gondolaSeed ∨ x.isRing = true) s t)) ∧
      (k = .counterSnapshot →
        (l.latch = [] →
          ∃ t m, exec (.longOperationStep k dma ok) s = .next t ∧ t.hw.longOf k = some m ∧ m.ix = l.ix ∧ m.latch.headD 0 = s.hw.stamp32.toNat ∧
            OnlyHw [.hst] noRegs s t) ∧
        (s.hw.hst.mayRequest = true → l.latch ≠ [] →
          (l.progress < (l.latch.length - 1) / 512 →
            ∃ t, exec (.longOperationStep k dma ok) s = .next t ∧ t.hw.longOf k = some { l with progress := l.progress + 1 } ∧
              .hostWrite d.ring (getLE d.bytes 8 8 + 4096 * l.progress)
                (((l.latch.drop (1 + 512 * l.progress)).take 512).flatMap (bytesLE 8)) ∈ t.hw.out ∧ OnlyHw [.hst, .out] noRegs s t) ∧
          ((l.latch.length - 1) / 512 ≤ l.progress → s.hw.someLost = false →
            ∃ t, exec (.longOperationStep k dma ok) s = .next t ∧ t.hw.longOf k = none ∧ Completed s.hw t.hw d 0 (l.latch.headD 0) ∧
              OnlyHw [.hst, .out] (fun x => x.isRing = true) s t))) ∧
      (∀ n, k = .fwStage → s.hw.hst.mayRequest = true → n = min 65536 (getLE d.bytes 24 3 - l.progress) →
        (∀ b, dma = some b → n ≤ b.length →
          ∃ t, exec (.longOperationStep k dma ok) s = .next t ∧
            t.hw.hst.fwStage = s.hw.hst.fwStage ++ [(getLE d.bytes 16 3 + l.progress, b.take n)] ∧
            (getLE d.bytes 24 3 ≤ l.progress + n → t.hw.longOf k = none ∧ Completed s.hw t.hw d 0 (getLE d.bytes 24 3)) ∧
            (l.progress + n < getLE d.bytes 24 3 → t.hw.longOf k = some { l with progress := l.progress + n }) ∧
            OnlyHw [.hst, .out] (fun x => x.isRing = true) s t) ∧
        (dma = none →
          ∃ t, exec (.longOperationStep k dma ok) s = .next t ∧ t.hw.longOf k = none ∧ Completed s.hw t.hw d 0x05 0 ∧
            OnlyHw [.hst, .out] (fun x => x.isRing = true) s t)) ∧
      (k = .fwCommit → l.tested = false →
        (∀ e, imageFault s.nv (s.hw.stagedImage (getLE d.bytes 8 3)) = some e →
          ∃ t, exec (.longOperationStep k dma ok) s = .next t ∧ t.hw.longOf k = none ∧ Completed s.hw t.hw d e 0 ∧
            OnlyHw [.hst, .out] (fun x => x.isRing = true) s t) ∧
        (imageFault s.nv (s.hw.stagedImage (getLE d.bytes 8 3)) = none →
          ∃ t, exec (.longOperationStep k dma ok) s = .next t ∧ t.hw.longOf k = some { l with tested := true } ∧ OnlyHw [.hst] noRegs s t)) ∧
      (k = .fwCommit → l.tested = true →
        (ok = true →
          ∃ t, exec (.longOperationStep k dma ok) s = .next t ∧ t.nv.flash = s.hw.stagedImage (getLE d.bytes 8 3) ∧ t.nv.otp = s.nv.otp ∧
            t.nv.laneFence = s.nv.laneFence ∧ t.nv.keys = s.nv.keys ∧ t.mem = s.mem ∧ t.pending = s.pending ∧
            (bits d.flags 0 1 = 0 →
              Completed s.hw t.hw d 0 (getLE d.bytes 8 3) ∧ Only [.hst, .out] (fun x => x.isRing = true) s.hw t.hw)) ∧
        (ok = false →
          ∃ t, exec (.longOperationStep k dma ok) s = .next t ∧ Completed s.hw t.hw d 0x62 0 ∧ t.nv.otp = s.nv.otp ∧ t.nv.keys = s.nv.keys ∧
            t.mem = s.mem ∧ t.pending = s.pending ∧ Only [.hst, .out, .free] (fun x => x.isRing = true) s.hw t.hw))))

/-- An FLR, PERST# and a lost link each return every field that an FLR clears to its Reset value, drop descriptors, rings, the stage set, the staging area, MSI-X, Bus Master Enable and the rest of configuration space (but for the AER status, log entry 63), and leave the data plane as it is; PERST# and a lost link take the link down, the latter with a record, and their return brings it up with Request Retry Status. D3hot turns RUNNING pairs PAUSED and D0 turns them back. An I3C read returns the window from its offset while POR_L is released, and a refresh fills the window's temperatures and power. Test access reads IDCODE; a private instruction acts as BYPASS while debug is closed, and while it is open the spec gives it no effect and the model refuses it. -/
def Obligations.BoardPortsAnswer : Prop :=
  (∀ (c : Instr) (s : State), c = .flr ∨ c = .perstAssert ∨ (c = .pcieLinkLost ∧ s.hw.hst.pcieUp = true) →
    ∃ t, exec c s = .next t ∧
      (∀ r, c ≠ .flr → r.isNote ∨ t.hw.reg r = (s.hw.reg r &&& ~~~r.clr .flr) ||| (r.reset &&& r.clr .flr)) ∧
      (∀ r, c = .flr → t.hw.reg r = (s.hw.reg r &&& ~~~r.clr .flr) ||| (r.reset &&& r.clr .flr)) ∧
      t.hw.hst.started = [] ∧ t.hw.hst.rings = [] ∧ t.hw.hst.stage = [] ∧ t.hw.hst.fwStage = [] ∧ t.hw.hst.msixOpen = [] ∧
      t.hw.hst.busMaster = false ∧ t.hw.hst.d3hot = false ∧ (∀ i, i ≠ 65 → aget i t.hw.hst.cfg = none) ∧ (c = .perstAssert → t.hw.hst.perst = true ∧ t.hw.hst.pcieUp = false) ∧
      (c = .pcieLinkLost → t.hw.hst.pcieUp = false ∧
        (s.hw.err.hubQ.length < 1024 → ∃ x ∈ t.hw.err.hubQ, x.code = 0x0703 ∧ x.die = 8)) ∧
      OnlyHw (.gon :: .hst :: .free :: .err :: .mgt :: []) (fun r => r.clr .flr ≠ 0 ∨ r.isNote) s t) ∧
  (∀ s : State,
    (s.hw.hst.perst = true →
      ∃ t, exec .perstDeassert s = .next t ∧
        t.hw.hst = { s.hw.hst with perst := false, pcieUp := !s.hw.pwr.porHeld, rrs := true, rrsAt := s.hw.tim.local_ } ∧
        OnlyHw [.hst, .mgt] (fun r => r.isNote) s t) ∧
    (s.hw.hst.perst = false → s.hw.hst.pcieUp = false → s.hw.pwr.porHeld = false →
      ∃ t, exec .pcieLinkReturn s = .next t ∧ t.hw.hst = { s.hw.hst with pcieUp := true, rrs := true, rrsAt := s.hw.tim.local_ } ∧
        OnlyHw [.hst, .mgt] (fun r => r.isNote) s t)) ∧
  (∀ (r : Ring) (s : State),
    (s.hw.hst.d3hot = false → s.hw.hst.pcieUp = true →
      ∃ t, exec .d3hotEnter s = .next t ∧ t.hw.hst.d3hot = true ∧
        t.hw.ringState r = (if s.hw.ringState r = 1 then 4 else s.hw.ringState r) ∧ t.hw.hst.started = s.hw.hst.started ∧
        OnlyHw [.hst] (fun x => x.isRing = true) s t) ∧
    (s.hw.hst.d3hot = true →
      ∃ t, exec .d0Return s = .next t ∧ t.hw.hst.d3hot = false ∧
        t.hw.ringState r = (if s.hw.ringState r = 4 then 1 else s.hw.ringState r) ∧ t.hw.hst.started = s.hw.hst.started ∧
        OnlyHw [.hst, .out] (fun x => x.isRing = true) s t)) ∧
  (∀ (off : BitVec 6) (tj ts : List Byte) (power : BitVec 16) (s : State), s.hw.pwr.porHeld = false →
    (∃ t, exec (.i3cRead off) s = .next t ∧ t.hw.out = .i3c (s.hw.window.drop off.toNat) :: s.hw.out ∧ OnlyHw [.out] noRegs s t) ∧
    (tj.length = 9 → ts.length = 12 →
      ∃ t, exec (.i3cWindowRefresh tj ts power) s = .next t ∧ t.hw.window.take 9 = tj ∧ (t.hw.window.drop 16).take 12 = ts ∧
        (t.hw.window.drop 32).take 2 = bytesLE 2 power.toNat ∧ OnlyHw [.pwr] noRegs s t)) ∧
  (∀ (op : JtagOp) (s : State),
    (op = .idcode → ∃ t v, exec (.testAccessOperation op) s = .next t ∧ t.hw.out = .jtag v :: s.hw.out ∧
      v = s.nv.otp.stepping.toNat % 16 * 2 ^ 28 + 0x1024dc7 ∧ OnlyHw [.out] noRegs s t) ∧
    (op = .bypass ∨ op = .samplePreload ∨ op = .extest → exec (.testAccessOperation op) s = .next s) ∧
    (op = .internalScan ∨ op = .memoryAccess ∨ op = .fuseRead ∨ op = .coreDebug →
      exec (.testAccessOperation op) s = if s.nv.debugOpen then .refused .privateTest else .next s))

/-- In PROVISIONED and OPERATIONAL, ATTEST leaves the 594 bytes of the report in the mailbox, EXTEND chains EXT_MEASURE with the mailbox's first 64 bytes, and KEY_READ returns a slot. KEY_INSTALL, OWNER_ROTATE and SVN_RAISE end with the result of the token's check where that fails, and do what ARG asks where it passes (KEY_INSTALL passes unsigned in PROVISIONED); LC_NONCE is then not 0. PROVISION in BLANK, OPERATE in PROVISIONED and, with a good token, RETURN begin a change of state: chip reset, START fuse, and a wipe that empties keys and memory. A command outside its states ends with WRONG_STATE and one with a wrong GUARD with BAD_GUARD, and one given while another runs is ignored. What the clauses say of a signature's check holds whatever it answers (Ed448: log entry 5). -/
def Obligations.RootOfTrustServesItsCommands : Prop :=
  ∀ s : State, (RotIdle s →
    (s.nv.lcState = 1 ∨ s.nv.lcState = 2 →
      (∃ t, exec .attest s = .next t ∧ t.hw.mbox 0 594 = s.report (s.hw.mbox 0 32) ∧ SecDone t.hw 0 ∧
        OnlyHw [] (fun r => r = .secStatus ∨ ∃ i, r = .secMbox i) s t) ∧
      (∃ t, exec .extend s = .next t ∧ t.hw.extMeasure = digest64 (s.hw.extMeasure ++ s.hw.mbox 0 64) ∧ SecDone t.hw 0 ∧
        OnlyHw [] (fun r => r = .secStatus ∨ ∃ i, r = .extMeasure i) s t) ∧
      (getBE (s.hw.mbox 0 1) 0 1 ≤ 7 →
        ∃ t, exec .keyRead s = .next t ∧ SecDone t.hw 0 ∧
          (∀ k, aget (getBE (s.hw.mbox 0 1) 0 1) s.nv.keys = some k → t.hw.mbox 0 58 = 1 :: slice k 0 57) ∧
          (aget (getBE (s.hw.mbox 0 1) 0 1) s.nv.keys = none → t.hw.mbox 0 58 = List.replicate 58 0) ∧
          OnlyHw [] (fun r => r = .secStatus ∨ ∃ i, r = .secMbox i) s t) ∧
      (∀ c slot op, c = (if s.unsigned then 0 else s.tokenCheck 3) → slot = getBE (s.hw.mbox 0 1) 0 1 → op = getBE (s.hw.mbox 1 1) 0 1 →
        slot ≤ 7 → op = 1 ∨ op = 2 →
        ∃ t, exec .keyInstall s = .next t ∧ SecDone t.hw c ∧ t.hw.reg .lcNonce ≠ 0 ∧
          (c ≠ 0 → OnlyHw [.free] Reg.isSec s t) ∧
          (c = 0 → t.nv = { s.nv with keys := t.nv.keys } ∧
            aget slot t.nv.keys = (if op = 1 then some (s.hw.mbox 2 57) else none) ∧ (∀ k, k ≠ slot → aget k t.nv.keys = aget k s.nv.keys) ∧
            t.hw.reg (.tetherReplayHigh slot) = 0 ∧ t.hw.reg (.tetherReplayWindow slot) = 0 ∧ t.mem = s.mem ∧ t.pending = s.pending ∧
            Only [.free] (fun r => r.isSec ∨ r = .tetherReplayHigh slot ∨ r = .tetherReplayWindow slot) s.hw t.hw)) ∧
      (∃ t, exec .ownerRotate s = .next t ∧ t.hw.reg .lcNonce ≠ 0 ∧ t.mem = s.mem ∧ t.pending = s.pending ∧ Only [.free] Reg.isSec s.hw t.hw ∧
        (s.tokenCheck 7 ≠ 0 → SecDone t.hw (s.tokenCheck 7) ∧ t.nv = s.nv) ∧
        (s.tokenCheck 7 = 0 → 3 ≤ s.nv.ownerIndex → SecDone t.hw 6 ∧ t.nv = s.nv) ∧
        (∀ d, s.tokenCheck 7 = 0 → s.nv.ownerIndex < 3 → s.nv.otp.owner.length = 4 → s.nv.otp.owner[s.nv.ownerIndex]? = some d →
          SecDone t.hw 0 ∧ t.nv = { s.nv with otp := { s.nv.otp with owner := t.nv.otp.owner } } ∧ t.nv.otp.owner.length = 4 ∧
          t.nv.otp.owner[s.nv.ownerIndex]? = some { d with revoked := true } ∧
          t.nv.otp.owner[s.nv.ownerIndex + 1]? = some ⟨digest64 (s.hw.mbox 0 57), true, false⟩ ∧
          ∀ i, i ≠ s.nv.ownerIndex → i ≠ s.nv.ownerIndex + 1 → t.nv.otp.owner[i]? = s.nv.otp.owner[i]?)) ∧
      (∀ n, n = getBE (s.hw.mbox 0 4) 0 4 →
        ∃ t, exec .svnRaise s = .next t ∧ t.hw.reg .lcNonce ≠ 0 ∧ t.mem = s.mem ∧ t.pending = s.pending ∧ Only [.free] Reg.isSec s.hw t.hw ∧
          (s.tokenCheck 8 ≠ 0 → SecDone t.hw (s.tokenCheck 8) ∧ t.nv = s.nv) ∧
          (s.tokenCheck 8 = 0 → s.nv.otp.minSvn < n → n ≤ 64 → n ≤ s.hw.mgt.imgSvn.toNat → n ≤ s.nv.flashSvn.toNat →
            SecDone t.hw 0 ∧ t.nv = { s.nv with otp := { s.nv.otp with minSvn := n } }) ∧
          (s.tokenCheck 8 = 0 → n ≤ s.nv.otp.minSvn ∨ 64 < n ∨ s.hw.mgt.imgSvn.toNat < n ∨ s.nv.flashSvn.toNat < n →
            SecDone t.hw 5 ∧ t.nv = s.nv))) ∧
    (s.nv.lcState = 0 → ∃ t, exec (.provision 0x5ec1) s = .next t ∧ ChangeBegun s t 1 ∧ t.hw.pwr.ownerIn = some (s.hw.mbox 0 57)) ∧
    (s.nv.lcState = 1 → ∃ t, exec (.operate 0x5ec1) s = .next t ∧ ChangeBegun s t 2) ∧
    (s.nv.lcState = 1 ∨ s.nv.lcState = 2 → getBE (s.hw.mbox 0 1) 0 1 = 3 →
      ∃ t, exec (.return 0x5ec1) s = .next t ∧ (s.tokenCheck 6 = 0 → ChangeBegun s t 3) ∧
        (s.tokenCheck 6 ≠ 0 → SecDone t.hw (s.tokenCheck 6) ∧ t.hw.reg .lcNonce ≠ 0 ∧ OnlyHw [.free] Reg.isSec s t)) ∧
    (∀ (c : Instr) (g : BitVec 16), (s.nv.lcState ≠ 0 ∧ c = .provision g) ∨ (s.nv.lcState ≠ 1 ∧ c = .operate g) ∨
        (s.nv.lcState = 0 ∨ s.nv.lcState = 3) ∧ (c = .return g ∨ c ∈ [.attest, .extend, .keyInstall, .ownerRotate, .svnRaise, .keyRead]) →
      ∃ t, exec c s = .next t ∧ SecDone t.hw 2 ∧ OnlyHw [.free] Reg.isSec s t) ∧
    (∀ (c : Instr) (g : BitVec 16), g ≠ 0x5ec1 → (s.nv.lcState = 0 ∧ c = .provision g) ∨ (s.nv.lcState = 1 ∧ c = .operate g) ∨
        (s.nv.lcState = 1 ∨ s.nv.lcState = 2) ∧ c = .return g →
      ∃ t, exec c s = .next t ∧ SecDone t.hw 1 ∧ OnlyHw [.free] Reg.isSec s t)) ∧
  (∀ (c : Instr) (g : BitVec 16), s.hw.pwr.porHeld = false → s.hw.bit .secStatus Fld.secStatus_busy = true →
      c ∈ [.attest, .extend, .keyInstall, .ownerRotate, .svnRaise, .keyRead, .provision g, .operate g, .return g] →
    ∃ t, exec c s = .next t ∧ t.hw.bit .secStatus Fld.secStatus_ignored = true ∧ OnlyHw [] (fun r => r = .secStatus) s t)

/-- Power-on and chip resets return every field that they clear to its Reset value, empty the memory, count in CHIP_RESETS and leave OTP and keys; removal of power leaves only OTP, the stores and the flash. The release of POR_L draws a session and a nonce, neither 0, and reads the spares of the stacks; OTP copies that disagree make a chip FATAL. A data-plane, quadrant or port reset clears the fields of its own scope, of its own quadrant or octet, with the quadrant's memory for a quadrant, loads the live calibration values of its lanes anew from the store, and leaves OTP and stores; of the registers in which an event is noted, a chip reset's clause speaks where every record of the store is valid, since the load of an invalid one raises a record. The end of a wipe makes the data plane ready again, or ends the lowest quadrant's reset with its tables copied from quadrant 0, and the end of a life-cycle wipe blows the DONE fuse: PROVISION has then filled an identity and the owner's digest, RETURN has destroyed both. Which record a calibration or a commit in work loses is a free value (log entry 3), and nothing here rests on it. -/
def Obligations.ResetsClearTheirScopes : Prop :=
  (∀ (c : Instr) (s : State), (c = .powerOnReset .power ∨ c = .powerRemoval) →
    ∃ t, exec c s = .next t ∧ (∀ r, t.hw.reg r = r.reset) ∧ t.hw.pwr.porHeld = true ∧ t.mem = ⟨[], []⟩ ∧ t.pending = s.pending ∧
      t.nv.otp = s.nv.otp ∧ t.nv.keys = s.nv.keys ∧ t.nv.laneFence = 0 ∧ t.nv.chipResets = 0 ∧ t.nv.lastKind = 0) ∧
  (∀ s : State, s.hw.pwr.porHeld = false →
    ∃ t, exec (.powerOnReset .pin) s = .next t ∧ t.hw.pwr.porHeld = true ∧ t.mem = ⟨[], []⟩ ∧ t.pending = s.pending ∧
      (∀ r, t.hw.reg r = (s.hw.reg r &&& ~~~r.porMask) ||| (r.reset &&& r.porMask)) ∧
      t.nv.otp = s.nv.otp ∧ t.nv.keys = s.nv.keys ∧ t.nv.lastKind = 1 ∧ t.nv.chipResets = min (s.nv.chipResets + 1) 65535) ∧
  (∀ s : State, s.hw.pwr.porHeld = true →
    (s.nv.transPending = false → (s.nv.inService = true → s.nv.identity.isSome = true) →
      ∃ t, exec (.porRelease true) s = .next t ∧ t.hw.pwr = { s.hw.pwr with porHeld := false } ∧ t.hw.reg .tetherSession ≠ 0 ∧
        t.hw.reg .lcNonce ≠ 0 ∧ t.hw.lgt = { s.hw.lgt with liveLane := [], liveFloor := [] } ∧
        OnlyHw [.pwr, .free, .lgt, .err, .mgt] (fun r => r = .tetherSession ∨ r = .lcNonce ∨ (∃ k, r = .hbmStatus k) ∨ r.isNote) s t) ∧
    (s.hw.fatalChip = false →
      ∃ t, exec (.porRelease false) s = .next t ∧ t.hw.pwr.porHeld = false ∧ t.hw.mgt.booting = false ∧ t.hw.fatalChip = true ∧ t.nv = s.nv)) ∧
  (∀ s : State, s.hw.chipBusy = false →
    (∀ c k, (c = Instr.chipReset .pin ∧ k = 2) ∨ (c = Instr.chipReset .resetCtl ∧ k = 3) →
      s.nv.transPending = false → (s.nv.inService = true → s.nv.identity.isSome = true) →
      ∃ t, exec c s = .next t ∧ t.mem = ⟨[], []⟩ ∧ t.pending = s.pending ∧
        (∀ r, r ≠ .tetherSession → r ≠ .lcNonce →
          (r.isNote → (∀ n, calValid (t.nv.calOf n).2 = true) ∧ ∀ j, calValid (t.nv.calFloorOf j) = true) →
          t.hw.reg r = (s.hw.reg r &&& ~~~r.chipMask) ||| (r.reset &&& r.chipMask)) ∧ t.hw.lgt.liveLane = [] ∧ t.hw.lgt.liveFloor = [] ∧
        t.hw.reg .tetherSession ≠ 0 ∧ t.hw.reg .lcNonce ≠ 0 ∧ t.hw.dpReady = false ∧
        t.nv.otp = s.nv.otp ∧ t.nv.keys = s.nv.keys ∧ t.nv.lastKind = (if s.nv.lastKind = 1 then 1 else k) ∧
        t.nv.chipResets = min (s.nv.chipResets + 1) 65535) ∧
    (s.nv.transPending = true → s.nv.otp.lc.start ≠ 1 →
      ∃ t, exec (.chipReset .lifeCycle) s = .next t ∧ t.mem = ⟨[], []⟩ ∧ t.nv.otp = s.nv.otp ∧ t.nv.keys = [] ∧ t.hw.pwr.lcWipe = true ∧
        t.hw.dpReady = false) ∧
    (s.hw.scopeBusy 2 0 = false →
      ∃ t, exec .dataPlaneReset s = .next t ∧ t.mem = ⟨[], []⟩ ∧ t.pending = s.pending ∧ t.nv = s.nv.noteKind 5 ∧
        (∀ r, r ≠ .resetStatus → t.hw.reg r &&& r.dpMask = r.reset &&& r.dpMask) ∧ t.hw.dpReady = false ∧
        t.hw.bit .resetStatus Fld.resetStatus_dpBusy = true ∧ t.hw.egr = ⟨[], []⟩ ∧ t.hw.gon.dir = [] ∧ t.hw.gon.recs = [] ∧ t.hw.lgt.links = [] ∧ t.hw.lgt.liveLane = [] ∧
        ∀ o, o < 128 → o ∈ t.hw.pwr.unready) ∧
    (∀ q : Quad, s.hw.scopeBusy 3 q = false →
      ∃ t, exec (.quadrantReset q) s = .next t ∧ (∀ a, t.mem.read a = if offQuad a = q.val then 0 else s.mem.read a) ∧ t.nv = s.nv ∧
        t.pending = s.pending ∧
        (∀ r, r.quad = some q.val → t.hw.reg r &&& (r.clr .qd ||| r.clr .port) = r.reset &&& (r.clr .qd ||| r.clr .port)) ∧
        t.hw.qdBusy q = true ∧ t.hw.fatalQ q = false ∧ t.hw.parked q = false ∧ t.hw.buf.filter.get q = [] ∧
        (∀ n, n < 1024 → n / 256 = q.val → aget n t.hw.lgt.liveLane = none) ∧
        ∀ o, o / 32 = q.val → o ∈ t.hw.pwr.unready) ∧
    (∀ o : Octet, s.hw.scopeBusy 4 o = false → s.hw.asleep o = false →
      ∃ t, exec (.portReset o) s = .next t ∧ t.nv = s.nv ∧ t.mem = s.mem ∧ t.pending = s.pending ∧
        (∀ r, r.octet = some o.val → t.hw.reg r &&& r.clr .port = r.reset &&& r.clr .port) ∧
        (∀ n, n < 1024 → n / 8 = o.val → aget n t.hw.lgt.liveLane = none) ∧ o.val ∈ t.hw.pwr.unready)) ∧
  (∀ s : State, s.hw.pwr.porHeld = false →
    (s.hw.chipBusy = true →
      (s.hw.pwr.lcWipe = false →
        ∃ t, exec .resetWipeComplete s = .next t ∧ t.hw.dpReady = true ∧ OnlyHw [.pwr] (fun r => r = .hubState ∨ ∃ k, r = .floorPath k) s t) ∧
      (s.hw.pwr.lcWipe = true → s.nv.otp.lc.start = 1 ∨ s.nv.otp.lc.start = 2 ∨ s.nv.otp.lc.start = 3 →
        ∃ t, exec .resetWipeComplete s = .next t ∧ t.hw.dpReady = true ∧ t.hw.pwr.lcWipe = false ∧ t.mem = s.mem ∧ t.pending = s.pending ∧
          t.nv = { s.nv with otp := t.nv.otp } ∧ t.nv.otp.lc = ⟨s.nv.otp.lc.start, s.nv.otp.lc.start⟩ ∧
          Only [.pwr, .free] (fun r => r = .hubState ∨ ∃ k, r = .floorPath k) s.hw t.hw ∧
          (s.nv.otp.lc.start = 2 → t.nv.otp = { s.nv.otp with lc := ⟨2, 2⟩ }) ∧
          (∀ k d l, s.nv.otp.lc.start = 1 → s.hw.pwr.ownerIn = some k → s.nv.otp.owner = d :: l → d.valid = false →
            t.nv.identity.isSome = true ∧ t.nv.otp.owner = { d with bytes := digest64 k, valid := true } :: l) ∧
          (s.nv.otp.lc.start = 3 → t.nv.identity = none ∧ t.nv.otp.seed0 = allOnes57 ∧ t.nv.otp.seed1 = allOnes57 ∧
            ∀ d ∈ t.nv.otp.owner, d.revoked = true))) ∧
    (s.hw.chipBusy = false → s.hw.bit .resetStatus Fld.resetStatus_dpBusy = true →
      ∃ t, exec .resetWipeComplete s = .next t ∧ t.hw.dpReady = true ∧ t.hw.bit .resetStatus Fld.resetStatus_dpBusy = false ∧
        OnlyHw [] (fun r => r = .hubState ∨ r = .resetStatus) s t) ∧
    (∀ q, q < 4 → s.hw.chipBusy = false → s.hw.bit .resetStatus Fld.resetStatus_dpBusy = false → s.hw.qdBusy q = true →
      (∀ k, k < q → s.hw.qdBusy k = false) →
      ∃ t, exec .resetWipeComplete s = .next t ∧ t.hw.qdBusy q = false ∧
        (q ≠ 0 → t.hw.fwd.exc.get q = s.hw.fwd.exc.get 0 ∧ t.hw.fwd.mcast.get q = s.hw.fwd.mcast.get 0 ∧
          ∀ i, t.hw.reg (.zoneTbl q i) = s.hw.reg (.zoneTbl 0 i)) ∧
        OnlyHw [.fwd, .coll, .tim] (fun r => r = .resetStatus ∨ r.quad = some q) s t))

/-- OCTET_SLEEP of an octet whose ports may rest sets its bit and darkens it, and one whose ports may not sets CFG_ERR and nothing else; the wake clears the bit. A park is taken when its conditions hold, refused with CFG_ERR otherwise, and undone by an unpark. The end of a park takes the rails to 0.50 V and shows PARKED; the end of an unpark brings the boot voltages back (log entry 29) and clears PARKED. A verified image ends the boot with its version, SVN and digests in force, a bad one or none enters recovery; the image is the one in the boot flash where one was written there (log entry 56). -/
def Obligations.SleepParkAndBootFollowTheirConditions : Prop :=
  (∀ (o : Octet) (s : State), s.hw.pwr.porHeld = false →
    (s.hw.asleep o = false → s.hw.maySleep o = true →
      ∃ t, exec (.octetSleep o) s = .next t ∧ t.hw.asleep o = true ∧ (∀ k : Octet, k ≠ o → t.hw.asleep k = s.hw.asleep k) ∧
        (∀ n ∈ t.hw.octetPorts o, t.hw.linkState n = 0) ∧ t.nv = s.nv ∧ t.mem = s.mem ∧ t.pending = s.pending) ∧
    (s.hw.asleep o = false → s.hw.maySleep o = false →
      ∃ t, exec (.octetSleep o) s = .next t ∧ t.hw.bit .powerStatus Fld.powerStatus_cfgErr = true ∧ OnlyHw [] (fun r => r = .powerStatus) s t) ∧
    (s.hw.asleep o = true →
      ∃ t, exec (.octetWake o) s = .next t ∧ t.hw.asleep o = false ∧ (∀ k : Octet, k ≠ o → t.hw.asleep k = s.hw.asleep k) ∧ t.nv = s.nv ∧
        t.mem = s.mem ∧ t.pending = s.pending ∧
        (s.hw.bit (.octetCfg o) Fld.octetCfg_enable = false → OnlyHw [] (fun r => ∃ i, r = .octetSleep i) s t))) ∧
  (∀ (q : Quad) (s : State),
    (s.hw.pwr.porHeld = false →
      (s.hw.parkReq q = false → s.hw.mayPark q = true →
        ∃ t, exec (.quadrantPark q) s = .next t ∧ t.hw.parkReq q = true ∧ (∀ k : Quad, k ≠ q → t.hw.parkReq k = s.hw.parkReq k) ∧
          OnlyHw [] (fun r => r = .quadPark) s t) ∧
      (s.hw.parkReq q = false → s.hw.mayPark q = false →
        ∃ t, exec (.quadrantPark q) s = .next t ∧ t.hw.bit .powerStatus Fld.powerStatus_cfgErr = true ∧ OnlyHw [] (fun r => r = .powerStatus) s t) ∧
      (∃ t, exec (.quadrantUnpark q) s = .next t ∧ t.hw.parkReq q = false ∧ (∀ k : Quad, k ≠ q → t.hw.parkReq k = s.hw.parkReq k) ∧
        OnlyHw [] (fun r => r = .quadPark) s t)) ∧
    (s.hw.parked q = false → s.hw.parkReq q = true →
      ∃ t, exec (.parkComplete q) s = .next t ∧ t.hw.parked q = true ∧ t.hw.pwr.vP.get q = 200 ∧ t.hw.pwr.vC.get q = 200 ∧
        (∀ k : Quad, k ≠ q → t.hw.parked k = s.hw.parked k ∧ t.hw.pwr.vP.get k = s.hw.pwr.vP.get k ∧ t.hw.pwr.vC.get k = s.hw.pwr.vC.get k) ∧
        OnlyHw [.pwr] (fun r => r = .powerStatus ∨ ∃ k, r = .floorPath k) s t) ∧
    (s.hw.parked q = true → s.hw.parkReq q = false →
      ∃ t, exec (.unparkComplete q) s = .next t ∧ t.hw.parked q = false ∧ t.hw.pwr.vP.get q = 300 ∧ t.hw.pwr.vC.get q = 260 ∧
        (∀ k : Quad, k ≠ q → t.hw.parked k = s.hw.parked k ∧ t.hw.pwr.vP.get k = s.hw.pwr.vP.get k ∧ t.hw.pwr.vC.get k = s.hw.pwr.vC.get k) ∧
        OnlyHw [.pwr, .err] (fun r => r = .powerStatus ∨ ∃ k, r = .floorPath k) s t)) ∧
  (∀ s : State, s.hw.mgt.booting = true → s.hw.pwr.porHeld = false → s.nv.transPending = false →
    (∀ j i, i = s.nv.bootImage j → imageOk s.nv i = true →
      ∃ t, exec (.bootVerificationComplete (some j)) s = .next t ∧ t.hw.mgt.booting = false ∧ t.hw.mgt.bootFrom = some s.hw.tim.local_ ∧
        t.hw.mgt.imgVer = i.ver ∧ t.hw.mgt.imgSvn = i.svn ∧ t.hw.mgt.imgHdr = i.hdrDigest ∧
        (i.packOk = some true → t.hw.mgt.imgPackVer = i.packVer ∧ t.hw.mgt.imgSections = i.sections ∧ t.hw.mgt.imgPack = i.packDigest ∧
          t.hw.err.gates = i.gates) ∧
        (i.packOk ≠ some true → t.hw.mgt.imgPackVer = 0 ∧ t.hw.mgt.imgPack = List.replicate 64 0) ∧
        OnlyHw [.mgt, .err, .free] Reg.isNote s t) ∧
    (∀ img, (img = none ∨ ∃ i, img = some i ∧ imageOk s.nv (s.nv.bootImage i) = false) →
      ∃ t, exec (.bootVerificationComplete img) s = .next t ∧ t.hw.bit .hubState Fld.hubState_recovery = true ∧
        t.hw.bit .mgmtStatus Fld.mgmtStatus_inRestart = false ∧ t.hw.mgt.booting = false ∧ t.hw.mgt.bootFrom = none ∧
        OnlyHw [.mgt] (fun r => r = .hubState ∨ r = .mgmtStatus) s t))
end

