-- ==== Sys2Proof/Laws/State.lean ====
section
/-! SUPPORT. For each update of a part of the state, what every other field reads after it; true by unfolding. -/

namespace Sys2Proof.Machine

/-! ### Updates of the whole state -/

@[simp] theorem State.onHw_hw (s : State) (f : Hw → Hw) : (s.onHw f).hw = f s.hw := rfl
@[simp] theorem State.onHw_nv (s : State) (f : Hw → Hw) : (s.onHw f).nv = s.nv := rfl
@[simp] theorem State.onHw_mem (s : State) (f : Hw → Hw) : (s.onHw f).mem = s.mem := rfl
@[simp] theorem State.onHw_pending (s : State) (f : Hw → Hw) : (s.onHw f).pending = s.pending := rfl
@[simp] theorem State.onNv_hw (s : State) (f : Nv → Nv) : (s.onNv f).hw = s.hw := rfl
@[simp] theorem State.onNv_nv (s : State) (f : Nv → Nv) : (s.onNv f).nv = f s.nv := rfl
@[simp] theorem State.onNv_mem (s : State) (f : Nv → Nv) : (s.onNv f).mem = s.mem := rfl
@[simp] theorem State.onNv_pending (s : State) (f : Nv → Nv) : (s.onNv f).pending = s.pending := rfl
@[simp] theorem State.onMem_hw (s : State) (f : Mem → Mem) : (s.onMem f).hw = s.hw := rfl
@[simp] theorem State.onMem_nv (s : State) (f : Mem → Mem) : (s.onMem f).nv = s.nv := rfl
@[simp] theorem State.onMem_mem (s : State) (f : Mem → Mem) : (s.onMem f).mem = f s.mem := rfl
@[simp] theorem State.onMem_pending (s : State) (f : Mem → Mem) : (s.onMem f).pending = s.pending := rfl
@[simp] theorem State.onLive_nv (s : State) (f : Hw → Hw) : (s.onLive f).nv = s.nv := by
  unfold State.onLive; split <;> rfl
@[simp] theorem State.onLive_mem (s : State) (f : Hw → Hw) : (s.onLive f).mem = s.mem := by
  unfold State.onLive; split <;> rfl
@[simp] theorem State.onLive_pending (s : State) (f : Hw → Hw) : (s.onLive f).pending = s.pending := by
  unfold State.onLive; split <;> rfl
/-- While POR_L is not held a change reaches the volatile part; while it is held nothing happens. -/
theorem State.onLive_of_not_held {s : State} (hs : s.hw.pwr.porHeld = false) (f : Hw → Hw) : s.onLive f = s.onHw f := by
  simp [State.onLive, hs]

theorem State.onLive_of_held {s : State} (hs : s.hw.pwr.porHeld = true) (f : Hw → Hw) : s.onLive f = s := by
  simp [State.onLive, hs]


/-! ### Updates of the volatile part -/

@[simp] theorem Hw.setReg_fwd (h : Hw) (r : Reg) (v : W64) : (h.setReg r v).fwd = h.fwd := rfl
@[simp] theorem Hw.setReg_buf (h : Hw) (r : Reg) (v : W64) : (h.setReg r v).buf = h.buf := rfl
@[simp] theorem Hw.setReg_egr (h : Hw) (r : Reg) (v : W64) : (h.setReg r v).egr = h.egr := rfl
@[simp] theorem Hw.setReg_coll (h : Hw) (r : Reg) (v : W64) : (h.setReg r v).coll = h.coll := rfl
@[simp] theorem Hw.setReg_gon (h : Hw) (r : Reg) (v : W64) : (h.setReg r v).gon = h.gon := rfl
@[simp] theorem Hw.setReg_lgt (h : Hw) (r : Reg) (v : W64) : (h.setReg r v).lgt = h.lgt := rfl
@[simp] theorem Hw.setReg_hst (h : Hw) (r : Reg) (v : W64) : (h.setReg r v).hst = h.hst := rfl
@[simp] theorem Hw.setReg_mgt (h : Hw) (r : Reg) (v : W64) : (h.setReg r v).mgt = h.mgt := rfl
@[simp] theorem Hw.setReg_tim (h : Hw) (r : Reg) (v : W64) : (h.setReg r v).tim = h.tim := rfl
@[simp] theorem Hw.setReg_err (h : Hw) (r : Reg) (v : W64) : (h.setReg r v).err = h.err := rfl
@[simp] theorem Hw.setReg_pwr (h : Hw) (r : Reg) (v : W64) : (h.setReg r v).pwr = h.pwr := rfl
@[simp] theorem Hw.setReg_out (h : Hw) (r : Reg) (v : W64) : (h.setReg r v).out = h.out := rfl
@[simp] theorem Hw.setReg_freeCtr (h : Hw) (r : Reg) (v : W64) : (h.setReg r v).freeCtr = h.freeCtr := rfl
@[simp] theorem Hw.setFld_fwd (h : Hw) (r : Reg) (f : Fld) (n : Nat) : (h.setFld r f n).fwd = h.fwd := rfl
@[simp] theorem Hw.setFld_buf (h : Hw) (r : Reg) (f : Fld) (n : Nat) : (h.setFld r f n).buf = h.buf := rfl
@[simp] theorem Hw.setFld_egr (h : Hw) (r : Reg) (f : Fld) (n : Nat) : (h.setFld r f n).egr = h.egr := rfl
@[simp] theorem Hw.setFld_coll (h : Hw) (r : Reg) (f : Fld) (n : Nat) : (h.setFld r f n).coll = h.coll := rfl
@[simp] theorem Hw.setFld_gon (h : Hw) (r : Reg) (f : Fld) (n : Nat) : (h.setFld r f n).gon = h.gon := rfl
@[simp] theorem Hw.setFld_lgt (h : Hw) (r : Reg) (f : Fld) (n : Nat) : (h.setFld r f n).lgt = h.lgt := rfl
@[simp] theorem Hw.setFld_hst (h : Hw) (r : Reg) (f : Fld) (n : Nat) : (h.setFld r f n).hst = h.hst := rfl
@[simp] theorem Hw.setFld_mgt (h : Hw) (r : Reg) (f : Fld) (n : Nat) : (h.setFld r f n).mgt = h.mgt := rfl
@[simp] theorem Hw.setFld_tim (h : Hw) (r : Reg) (f : Fld) (n : Nat) : (h.setFld r f n).tim = h.tim := rfl
@[simp] theorem Hw.setFld_err (h : Hw) (r : Reg) (f : Fld) (n : Nat) : (h.setFld r f n).err = h.err := rfl
@[simp] theorem Hw.setFld_pwr (h : Hw) (r : Reg) (f : Fld) (n : Nat) : (h.setFld r f n).pwr = h.pwr := rfl
@[simp] theorem Hw.setFld_out (h : Hw) (r : Reg) (f : Fld) (n : Nat) : (h.setFld r f n).out = h.out := rfl
@[simp] theorem Hw.setFld_freeCtr (h : Hw) (r : Reg) (f : Fld) (n : Nat) : (h.setFld r f n).freeCtr = h.freeCtr := rfl
@[simp] theorem Hw.satFld_fwd (h : Hw) (r : Reg) (f : Fld) (n : Nat) : (h.satFld r f n).fwd = h.fwd := rfl
@[simp] theorem Hw.satFld_buf (h : Hw) (r : Reg) (f : Fld) (n : Nat) : (h.satFld r f n).buf = h.buf := rfl
@[simp] theorem Hw.satFld_egr (h : Hw) (r : Reg) (f : Fld) (n : Nat) : (h.satFld r f n).egr = h.egr := rfl
@[simp] theorem Hw.satFld_coll (h : Hw) (r : Reg) (f : Fld) (n : Nat) : (h.satFld r f n).coll = h.coll := rfl
@[simp] theorem Hw.satFld_gon (h : Hw) (r : Reg) (f : Fld) (n : Nat) : (h.satFld r f n).gon = h.gon := rfl
@[simp] theorem Hw.satFld_lgt (h : Hw) (r : Reg) (f : Fld) (n : Nat) : (h.satFld r f n).lgt = h.lgt := rfl
@[simp] theorem Hw.satFld_hst (h : Hw) (r : Reg) (f : Fld) (n : Nat) : (h.satFld r f n).hst = h.hst := rfl
@[simp] theorem Hw.satFld_mgt (h : Hw) (r : Reg) (f : Fld) (n : Nat) : (h.satFld r f n).mgt = h.mgt := rfl
@[simp] theorem Hw.satFld_tim (h : Hw) (r : Reg) (f : Fld) (n : Nat) : (h.satFld r f n).tim = h.tim := rfl
@[simp] theorem Hw.satFld_err (h : Hw) (r : Reg) (f : Fld) (n : Nat) : (h.satFld r f n).err = h.err := rfl
@[simp] theorem Hw.satFld_pwr (h : Hw) (r : Reg) (f : Fld) (n : Nat) : (h.satFld r f n).pwr = h.pwr := rfl
@[simp] theorem Hw.satFld_out (h : Hw) (r : Reg) (f : Fld) (n : Nat) : (h.satFld r f n).out = h.out := rfl
@[simp] theorem Hw.satFld_freeCtr (h : Hw) (r : Reg) (f : Fld) (n : Nat) : (h.satFld r f n).freeCtr = h.freeCtr := rfl
@[simp] theorem Hw.icPend_fwd (h : Hw) (r : Reg) : (h.icPend r).fwd = h.fwd := rfl
@[simp] theorem Hw.icPend_buf (h : Hw) (r : Reg) : (h.icPend r).buf = h.buf := rfl
@[simp] theorem Hw.icPend_egr (h : Hw) (r : Reg) : (h.icPend r).egr = h.egr := rfl
@[simp] theorem Hw.icPend_coll (h : Hw) (r : Reg) : (h.icPend r).coll = h.coll := rfl
@[simp] theorem Hw.icPend_gon (h : Hw) (r : Reg) : (h.icPend r).gon = h.gon := rfl
@[simp] theorem Hw.icPend_lgt (h : Hw) (r : Reg) : (h.icPend r).lgt = h.lgt := rfl
@[simp] theorem Hw.icPend_hst (h : Hw) (r : Reg) : (h.icPend r).hst = h.hst := rfl
@[simp] theorem Hw.icPend_mgt (h : Hw) (r : Reg) : (h.icPend r).mgt = h.mgt := rfl
@[simp] theorem Hw.icPend_tim (h : Hw) (r : Reg) : (h.icPend r).tim = h.tim := rfl
@[simp] theorem Hw.icPend_err (h : Hw) (r : Reg) : (h.icPend r).err = h.err := rfl
@[simp] theorem Hw.icPend_pwr (h : Hw) (r : Reg) : (h.icPend r).pwr = h.pwr := rfl
@[simp] theorem Hw.icPend_out (h : Hw) (r : Reg) : (h.icPend r).out = h.out := rfl
@[simp] theorem Hw.icPend_freeCtr (h : Hw) (r : Reg) : (h.icPend r).freeCtr = h.freeCtr := rfl
@[simp] theorem Hw.emit_regs (h : Hw) (o : Out) : (h.emit o).regs = h.regs := rfl
@[simp] theorem Hw.emit_fwd (h : Hw) (o : Out) : (h.emit o).fwd = h.fwd := rfl
@[simp] theorem Hw.emit_buf (h : Hw) (o : Out) : (h.emit o).buf = h.buf := rfl
@[simp] theorem Hw.emit_egr (h : Hw) (o : Out) : (h.emit o).egr = h.egr := rfl
@[simp] theorem Hw.emit_coll (h : Hw) (o : Out) : (h.emit o).coll = h.coll := rfl
@[simp] theorem Hw.emit_gon (h : Hw) (o : Out) : (h.emit o).gon = h.gon := rfl
@[simp] theorem Hw.emit_lgt (h : Hw) (o : Out) : (h.emit o).lgt = h.lgt := rfl
@[simp] theorem Hw.emit_hst (h : Hw) (o : Out) : (h.emit o).hst = h.hst := rfl
@[simp] theorem Hw.emit_mgt (h : Hw) (o : Out) : (h.emit o).mgt = h.mgt := rfl
@[simp] theorem Hw.emit_tim (h : Hw) (o : Out) : (h.emit o).tim = h.tim := rfl
@[simp] theorem Hw.emit_err (h : Hw) (o : Out) : (h.emit o).err = h.err := rfl
@[simp] theorem Hw.emit_pwr (h : Hw) (o : Out) : (h.emit o).pwr = h.pwr := rfl
@[simp] theorem Hw.emit_freeCtr (h : Hw) (o : Out) : (h.emit o).freeCtr = h.freeCtr := rfl
@[simp] theorem Hw.emit_reg (h : Hw) (o : Out) (x : Reg) : (h.emit o).reg x = h.reg x := rfl
@[simp] theorem Hw.setVoq_regs (h : Hw) (q n t : Nat) (v : Voq) : (h.setVoq q n t v).regs = h.regs := rfl
@[simp] theorem Hw.setVoq_fwd (h : Hw) (q n t : Nat) (v : Voq) : (h.setVoq q n t v).fwd = h.fwd := rfl
@[simp] theorem Hw.setVoq_egr (h : Hw) (q n t : Nat) (v : Voq) : (h.setVoq q n t v).egr = h.egr := rfl
@[simp] theorem Hw.setVoq_coll (h : Hw) (q n t : Nat) (v : Voq) : (h.setVoq q n t v).coll = h.coll := rfl
@[simp] theorem Hw.setVoq_gon (h : Hw) (q n t : Nat) (v : Voq) : (h.setVoq q n t v).gon = h.gon := rfl
@[simp] theorem Hw.setVoq_lgt (h : Hw) (q n t : Nat) (v : Voq) : (h.setVoq q n t v).lgt = h.lgt := rfl
@[simp] theorem Hw.setVoq_hst (h : Hw) (q n t : Nat) (v : Voq) : (h.setVoq q n t v).hst = h.hst := rfl
@[simp] theorem Hw.setVoq_mgt (h : Hw) (q n t : Nat) (v : Voq) : (h.setVoq q n t v).mgt = h.mgt := rfl
@[simp] theorem Hw.setVoq_tim (h : Hw) (q n t : Nat) (v : Voq) : (h.setVoq q n t v).tim = h.tim := rfl
@[simp] theorem Hw.setVoq_err (h : Hw) (q n t : Nat) (v : Voq) : (h.setVoq q n t v).err = h.err := rfl
@[simp] theorem Hw.setVoq_pwr (h : Hw) (q n t : Nat) (v : Voq) : (h.setVoq q n t v).pwr = h.pwr := rfl
@[simp] theorem Hw.setVoq_out (h : Hw) (q n t : Nat) (v : Voq) : (h.setVoq q n t v).out = h.out := rfl
@[simp] theorem Hw.setVoq_freeCtr (h : Hw) (q n t : Nat) (v : Voq) : (h.setVoq q n t v).freeCtr = h.freeCtr := rfl
@[simp] theorem Hw.setVoq_reg (h : Hw) (q n t : Nat) (v : Voq) (x : Reg) : (h.setVoq q n t v).reg x = h.reg x := rfl
@[simp] theorem Hw.mapHeld_regs (h : Hw) (id : Nat) (f : Held → Held) : (h.mapHeld id f).regs = h.regs := rfl
@[simp] theorem Hw.mapHeld_fwd (h : Hw) (id : Nat) (f : Held → Held) : (h.mapHeld id f).fwd = h.fwd := rfl
@[simp] theorem Hw.mapHeld_egr (h : Hw) (id : Nat) (f : Held → Held) : (h.mapHeld id f).egr = h.egr := rfl
@[simp] theorem Hw.mapHeld_coll (h : Hw) (id : Nat) (f : Held → Held) : (h.mapHeld id f).coll = h.coll := rfl
@[simp] theorem Hw.mapHeld_gon (h : Hw) (id : Nat) (f : Held → Held) : (h.mapHeld id f).gon = h.gon := rfl
@[simp] theorem Hw.mapHeld_lgt (h : Hw) (id : Nat) (f : Held → Held) : (h.mapHeld id f).lgt = h.lgt := rfl
@[simp] theorem Hw.mapHeld_hst (h : Hw) (id : Nat) (f : Held → Held) : (h.mapHeld id f).hst = h.hst := rfl
@[simp] theorem Hw.mapHeld_mgt (h : Hw) (id : Nat) (f : Held → Held) : (h.mapHeld id f).mgt = h.mgt := rfl
@[simp] theorem Hw.mapHeld_tim (h : Hw) (id : Nat) (f : Held → Held) : (h.mapHeld id f).tim = h.tim := rfl
@[simp] theorem Hw.mapHeld_err (h : Hw) (id : Nat) (f : Held → Held) : (h.mapHeld id f).err = h.err := rfl
@[simp] theorem Hw.mapHeld_pwr (h : Hw) (id : Nat) (f : Held → Held) : (h.mapHeld id f).pwr = h.pwr := rfl
@[simp] theorem Hw.mapHeld_out (h : Hw) (id : Nat) (f : Held → Held) : (h.mapHeld id f).out = h.out := rfl
@[simp] theorem Hw.mapHeld_freeCtr (h : Hw) (id : Nat) (f : Held → Held) : (h.mapHeld id f).freeCtr = h.freeCtr := rfl
@[simp] theorem Hw.mapHeld_reg (h : Hw) (id : Nat) (f : Held → Held) (x : Reg) : (h.mapHeld id f).reg x = h.reg x := rfl
@[simp] theorem Hw.dropHeld_regs (h : Hw) (id : Nat) : (h.dropHeld id).regs = h.regs := rfl
@[simp] theorem Hw.dropHeld_fwd (h : Hw) (id : Nat) : (h.dropHeld id).fwd = h.fwd := rfl
@[simp] theorem Hw.dropHeld_egr (h : Hw) (id : Nat) : (h.dropHeld id).egr = h.egr := rfl
@[simp] theorem Hw.dropHeld_coll (h : Hw) (id : Nat) : (h.dropHeld id).coll = h.coll := rfl
@[simp] theorem Hw.dropHeld_gon (h : Hw) (id : Nat) : (h.dropHeld id).gon = h.gon := rfl
@[simp] theorem Hw.dropHeld_lgt (h : Hw) (id : Nat) : (h.dropHeld id).lgt = h.lgt := rfl
@[simp] theorem Hw.dropHeld_hst (h : Hw) (id : Nat) : (h.dropHeld id).hst = h.hst := rfl
@[simp] theorem Hw.dropHeld_mgt (h : Hw) (id : Nat) : (h.dropHeld id).mgt = h.mgt := rfl
@[simp] theorem Hw.dropHeld_tim (h : Hw) (id : Nat) : (h.dropHeld id).tim = h.tim := rfl
@[simp] theorem Hw.dropHeld_err (h : Hw) (id : Nat) : (h.dropHeld id).err = h.err := rfl
@[simp] theorem Hw.dropHeld_pwr (h : Hw) (id : Nat) : (h.dropHeld id).pwr = h.pwr := rfl
@[simp] theorem Hw.dropHeld_out (h : Hw) (id : Nat) : (h.dropHeld id).out = h.out := rfl
@[simp] theorem Hw.dropHeld_freeCtr (h : Hw) (id : Nat) : (h.dropHeld id).freeCtr = h.freeCtr := rfl
@[simp] theorem Hw.dropHeld_reg (h : Hw) (id : Nat) (x : Reg) : (h.dropHeld id).reg x = h.reg x := rfl
@[simp] theorem Hw.sweepHeld_regs (h : Hw) (id : Nat) : (h.sweepHeld id).regs = h.regs := rfl
@[simp] theorem Hw.sweepHeld_fwd (h : Hw) (id : Nat) : (h.sweepHeld id).fwd = h.fwd := rfl
@[simp] theorem Hw.sweepHeld_egr (h : Hw) (id : Nat) : (h.sweepHeld id).egr = h.egr := rfl
@[simp] theorem Hw.sweepHeld_coll (h : Hw) (id : Nat) : (h.sweepHeld id).coll = h.coll := rfl
@[simp] theorem Hw.sweepHeld_gon (h : Hw) (id : Nat) : (h.sweepHeld id).gon = h.gon := rfl
@[simp] theorem Hw.sweepHeld_lgt (h : Hw) (id : Nat) : (h.sweepHeld id).lgt = h.lgt := rfl
@[simp] theorem Hw.sweepHeld_hst (h : Hw) (id : Nat) : (h.sweepHeld id).hst = h.hst := rfl
@[simp] theorem Hw.sweepHeld_mgt (h : Hw) (id : Nat) : (h.sweepHeld id).mgt = h.mgt := rfl
@[simp] theorem Hw.sweepHeld_tim (h : Hw) (id : Nat) : (h.sweepHeld id).tim = h.tim := rfl
@[simp] theorem Hw.sweepHeld_err (h : Hw) (id : Nat) : (h.sweepHeld id).err = h.err := rfl
@[simp] theorem Hw.sweepHeld_pwr (h : Hw) (id : Nat) : (h.sweepHeld id).pwr = h.pwr := rfl
@[simp] theorem Hw.sweepHeld_out (h : Hw) (id : Nat) : (h.sweepHeld id).out = h.out := rfl
@[simp] theorem Hw.sweepHeld_freeCtr (h : Hw) (id : Nat) : (h.sweepHeld id).freeCtr = h.freeCtr := rfl
@[simp] theorem Hw.sweepHeld_reg (h : Hw) (id : Nat) (x : Reg) : (h.sweepHeld id).reg x = h.reg x := rfl
@[simp] theorem Hw.moveCopy_regs (h : Hw) (id n : Nat) (p : Spot) (k : Nat) : (h.moveCopy id n p k).regs = h.regs := rfl
@[simp] theorem Hw.moveCopy_fwd (h : Hw) (id n : Nat) (p : Spot) (k : Nat) : (h.moveCopy id n p k).fwd = h.fwd := rfl
@[simp] theorem Hw.moveCopy_egr (h : Hw) (id n : Nat) (p : Spot) (k : Nat) : (h.moveCopy id n p k).egr = h.egr := rfl
@[simp] theorem Hw.moveCopy_coll (h : Hw) (id n : Nat) (p : Spot) (k : Nat) : (h.moveCopy id n p k).coll = h.coll := rfl
@[simp] theorem Hw.moveCopy_gon (h : Hw) (id n : Nat) (p : Spot) (k : Nat) : (h.moveCopy id n p k).gon = h.gon := rfl
@[simp] theorem Hw.moveCopy_lgt (h : Hw) (id n : Nat) (p : Spot) (k : Nat) : (h.moveCopy id n p k).lgt = h.lgt := rfl
@[simp] theorem Hw.moveCopy_hst (h : Hw) (id n : Nat) (p : Spot) (k : Nat) : (h.moveCopy id n p k).hst = h.hst := rfl
@[simp] theorem Hw.moveCopy_mgt (h : Hw) (id n : Nat) (p : Spot) (k : Nat) : (h.moveCopy id n p k).mgt = h.mgt := rfl
@[simp] theorem Hw.moveCopy_tim (h : Hw) (id n : Nat) (p : Spot) (k : Nat) : (h.moveCopy id n p k).tim = h.tim := rfl
@[simp] theorem Hw.moveCopy_err (h : Hw) (id n : Nat) (p : Spot) (k : Nat) : (h.moveCopy id n p k).err = h.err := rfl
@[simp] theorem Hw.moveCopy_pwr (h : Hw) (id n : Nat) (p : Spot) (k : Nat) : (h.moveCopy id n p k).pwr = h.pwr := rfl
@[simp] theorem Hw.moveCopy_out (h : Hw) (id n : Nat) (p : Spot) (k : Nat) : (h.moveCopy id n p k).out = h.out := rfl
@[simp] theorem Hw.moveCopy_freeCtr (h : Hw) (id n : Nat) (p : Spot) (k : Nat) : (h.moveCopy id n p k).freeCtr = h.freeCtr := rfl
@[simp] theorem Hw.moveCopy_reg (h : Hw) (id n : Nat) (p : Spot) (k : Nat) (x : Reg) : (h.moveCopy id n p k).reg x = h.reg x := rfl
@[simp] theorem Hw.spillMoved_regs (h : Hw) (q n : Nat) : (h.spillMoved q n).regs = h.regs := rfl
@[simp] theorem Hw.spillMoved_fwd (h : Hw) (q n : Nat) : (h.spillMoved q n).fwd = h.fwd := rfl
@[simp] theorem Hw.spillMoved_egr (h : Hw) (q n : Nat) : (h.spillMoved q n).egr = h.egr := rfl
@[simp] theorem Hw.spillMoved_coll (h : Hw) (q n : Nat) : (h.spillMoved q n).coll = h.coll := rfl
@[simp] theorem Hw.spillMoved_gon (h : Hw) (q n : Nat) : (h.spillMoved q n).gon = h.gon := rfl
@[simp] theorem Hw.spillMoved_lgt (h : Hw) (q n : Nat) : (h.spillMoved q n).lgt = h.lgt := rfl
@[simp] theorem Hw.spillMoved_hst (h : Hw) (q n : Nat) : (h.spillMoved q n).hst = h.hst := rfl
@[simp] theorem Hw.spillMoved_mgt (h : Hw) (q n : Nat) : (h.spillMoved q n).mgt = h.mgt := rfl
@[simp] theorem Hw.spillMoved_tim (h : Hw) (q n : Nat) : (h.spillMoved q n).tim = h.tim := rfl
@[simp] theorem Hw.spillMoved_err (h : Hw) (q n : Nat) : (h.spillMoved q n).err = h.err := rfl
@[simp] theorem Hw.spillMoved_pwr (h : Hw) (q n : Nat) : (h.spillMoved q n).pwr = h.pwr := rfl
@[simp] theorem Hw.spillMoved_out (h : Hw) (q n : Nat) : (h.spillMoved q n).out = h.out := rfl
@[simp] theorem Hw.spillMoved_freeCtr (h : Hw) (q n : Nat) : (h.spillMoved q n).freeCtr = h.freeCtr := rfl
@[simp] theorem Hw.spillMoved_reg (h : Hw) (q n : Nat) (x : Reg) : (h.spillMoved q n).reg x = h.reg x := rfl
@[simp] theorem Hw.setSched_regs (h : Hw) (n : Nat) (s : Sched) : (h.setSched n s).regs = h.regs := rfl
@[simp] theorem Hw.setSched_fwd (h : Hw) (n : Nat) (s : Sched) : (h.setSched n s).fwd = h.fwd := rfl
@[simp] theorem Hw.setSched_buf (h : Hw) (n : Nat) (s : Sched) : (h.setSched n s).buf = h.buf := rfl
@[simp] theorem Hw.setSched_coll (h : Hw) (n : Nat) (s : Sched) : (h.setSched n s).coll = h.coll := rfl
@[simp] theorem Hw.setSched_gon (h : Hw) (n : Nat) (s : Sched) : (h.setSched n s).gon = h.gon := rfl
@[simp] theorem Hw.setSched_lgt (h : Hw) (n : Nat) (s : Sched) : (h.setSched n s).lgt = h.lgt := rfl
@[simp] theorem Hw.setSched_hst (h : Hw) (n : Nat) (s : Sched) : (h.setSched n s).hst = h.hst := rfl
@[simp] theorem Hw.setSched_mgt (h : Hw) (n : Nat) (s : Sched) : (h.setSched n s).mgt = h.mgt := rfl
@[simp] theorem Hw.setSched_tim (h : Hw) (n : Nat) (s : Sched) : (h.setSched n s).tim = h.tim := rfl
@[simp] theorem Hw.setSched_err (h : Hw) (n : Nat) (s : Sched) : (h.setSched n s).err = h.err := rfl
@[simp] theorem Hw.setSched_pwr (h : Hw) (n : Nat) (s : Sched) : (h.setSched n s).pwr = h.pwr := rfl
@[simp] theorem Hw.setSched_out (h : Hw) (n : Nat) (s : Sched) : (h.setSched n s).out = h.out := rfl
@[simp] theorem Hw.setSched_freeCtr (h : Hw) (n : Nat) (s : Sched) : (h.setSched n s).freeCtr = h.freeCtr := rfl
@[simp] theorem Hw.setSched_reg (h : Hw) (n : Nat) (s : Sched) (x : Reg) : (h.setSched n s).reg x = h.reg x := rfl
@[simp] theorem Hw.setBucket_regs (h : Hw) (r : BucketRef) (b : Bucket) : (h.setBucket r b).regs = h.regs := rfl
@[simp] theorem Hw.setBucket_fwd (h : Hw) (r : BucketRef) (b : Bucket) : (h.setBucket r b).fwd = h.fwd := rfl
@[simp] theorem Hw.setBucket_buf (h : Hw) (r : BucketRef) (b : Bucket) : (h.setBucket r b).buf = h.buf := rfl
@[simp] theorem Hw.setBucket_coll (h : Hw) (r : BucketRef) (b : Bucket) : (h.setBucket r b).coll = h.coll := rfl
@[simp] theorem Hw.setBucket_gon (h : Hw) (r : BucketRef) (b : Bucket) : (h.setBucket r b).gon = h.gon := rfl
@[simp] theorem Hw.setBucket_lgt (h : Hw) (r : BucketRef) (b : Bucket) : (h.setBucket r b).lgt = h.lgt := rfl
@[simp] theorem Hw.setBucket_hst (h : Hw) (r : BucketRef) (b : Bucket) : (h.setBucket r b).hst = h.hst := rfl
@[simp] theorem Hw.setBucket_mgt (h : Hw) (r : BucketRef) (b : Bucket) : (h.setBucket r b).mgt = h.mgt := rfl
@[simp] theorem Hw.setBucket_tim (h : Hw) (r : BucketRef) (b : Bucket) : (h.setBucket r b).tim = h.tim := rfl
@[simp] theorem Hw.setBucket_err (h : Hw) (r : BucketRef) (b : Bucket) : (h.setBucket r b).err = h.err := rfl
@[simp] theorem Hw.setBucket_pwr (h : Hw) (r : BucketRef) (b : Bucket) : (h.setBucket r b).pwr = h.pwr := rfl
@[simp] theorem Hw.setBucket_out (h : Hw) (r : BucketRef) (b : Bucket) : (h.setBucket r b).out = h.out := rfl
@[simp] theorem Hw.setBucket_freeCtr (h : Hw) (r : BucketRef) (b : Bucket) : (h.setBucket r b).freeCtr = h.freeCtr := rfl
@[simp] theorem Hw.setBucket_reg (h : Hw) (r : BucketRef) (b : Bucket) (x : Reg) : (h.setBucket r b).reg x = h.reg x := rfl
@[simp] theorem Hw.fillBucket_regs (h : Hw) (r : BucketRef) : (h.fillBucket r).regs = h.regs := rfl
@[simp] theorem Hw.fillBucket_fwd (h : Hw) (r : BucketRef) : (h.fillBucket r).fwd = h.fwd := rfl
@[simp] theorem Hw.fillBucket_buf (h : Hw) (r : BucketRef) : (h.fillBucket r).buf = h.buf := rfl
@[simp] theorem Hw.fillBucket_coll (h : Hw) (r : BucketRef) : (h.fillBucket r).coll = h.coll := rfl
@[simp] theorem Hw.fillBucket_gon (h : Hw) (r : BucketRef) : (h.fillBucket r).gon = h.gon := rfl
@[simp] theorem Hw.fillBucket_lgt (h : Hw) (r : BucketRef) : (h.fillBucket r).lgt = h.lgt := rfl
@[simp] theorem Hw.fillBucket_hst (h : Hw) (r : BucketRef) : (h.fillBucket r).hst = h.hst := rfl
@[simp] theorem Hw.fillBucket_mgt (h : Hw) (r : BucketRef) : (h.fillBucket r).mgt = h.mgt := rfl
@[simp] theorem Hw.fillBucket_tim (h : Hw) (r : BucketRef) : (h.fillBucket r).tim = h.tim := rfl
@[simp] theorem Hw.fillBucket_err (h : Hw) (r : BucketRef) : (h.fillBucket r).err = h.err := rfl
@[simp] theorem Hw.fillBucket_pwr (h : Hw) (r : BucketRef) : (h.fillBucket r).pwr = h.pwr := rfl
@[simp] theorem Hw.fillBucket_out (h : Hw) (r : BucketRef) : (h.fillBucket r).out = h.out := rfl
@[simp] theorem Hw.fillBucket_freeCtr (h : Hw) (r : BucketRef) : (h.fillBucket r).freeCtr = h.freeCtr := rfl
@[simp] theorem Hw.fillBucket_reg (h : Hw) (r : BucketRef) (x : Reg) : (h.fillBucket r).reg x = h.reg x := rfl
@[simp] theorem Hw.mapExc_regs (h : Hw) (f : List ExcEnt → List ExcEnt) : (h.mapExc f).regs = h.regs := rfl
@[simp] theorem Hw.mapExc_buf (h : Hw) (f : List ExcEnt → List ExcEnt) : (h.mapExc f).buf = h.buf := rfl
@[simp] theorem Hw.mapExc_egr (h : Hw) (f : List ExcEnt → List ExcEnt) : (h.mapExc f).egr = h.egr := rfl
@[simp] theorem Hw.mapExc_coll (h : Hw) (f : List ExcEnt → List ExcEnt) : (h.mapExc f).coll = h.coll := rfl
@[simp] theorem Hw.mapExc_gon (h : Hw) (f : List ExcEnt → List ExcEnt) : (h.mapExc f).gon = h.gon := rfl
@[simp] theorem Hw.mapExc_lgt (h : Hw) (f : List ExcEnt → List ExcEnt) : (h.mapExc f).lgt = h.lgt := rfl
@[simp] theorem Hw.mapExc_hst (h : Hw) (f : List ExcEnt → List ExcEnt) : (h.mapExc f).hst = h.hst := rfl
@[simp] theorem Hw.mapExc_mgt (h : Hw) (f : List ExcEnt → List ExcEnt) : (h.mapExc f).mgt = h.mgt := rfl
@[simp] theorem Hw.mapExc_tim (h : Hw) (f : List ExcEnt → List ExcEnt) : (h.mapExc f).tim = h.tim := rfl
@[simp] theorem Hw.mapExc_err (h : Hw) (f : List ExcEnt → List ExcEnt) : (h.mapExc f).err = h.err := rfl
@[simp] theorem Hw.mapExc_pwr (h : Hw) (f : List ExcEnt → List ExcEnt) : (h.mapExc f).pwr = h.pwr := rfl
@[simp] theorem Hw.mapExc_out (h : Hw) (f : List ExcEnt → List ExcEnt) : (h.mapExc f).out = h.out := rfl
@[simp] theorem Hw.mapExc_freeCtr (h : Hw) (f : List ExcEnt → List ExcEnt) : (h.mapExc f).freeCtr = h.freeCtr := rfl
@[simp] theorem Hw.mapExc_reg (h : Hw) (f : List ExcEnt → List ExcEnt) (x : Reg) : (h.mapExc f).reg x = h.reg x := rfl
@[simp] theorem Hw.draw_regs (h : Hw) : h.draw.2.regs = h.regs := rfl
@[simp] theorem Hw.draw_fwd (h : Hw) : h.draw.2.fwd = h.fwd := rfl
@[simp] theorem Hw.draw_buf (h : Hw) : h.draw.2.buf = h.buf := rfl
@[simp] theorem Hw.draw_egr (h : Hw) : h.draw.2.egr = h.egr := rfl
@[simp] theorem Hw.draw_coll (h : Hw) : h.draw.2.coll = h.coll := rfl
@[simp] theorem Hw.draw_gon (h : Hw) : h.draw.2.gon = h.gon := rfl
@[simp] theorem Hw.draw_lgt (h : Hw) : h.draw.2.lgt = h.lgt := rfl
@[simp] theorem Hw.draw_hst (h : Hw) : h.draw.2.hst = h.hst := rfl
@[simp] theorem Hw.draw_mgt (h : Hw) : h.draw.2.mgt = h.mgt := rfl
@[simp] theorem Hw.draw_tim (h : Hw) : h.draw.2.tim = h.tim := rfl
@[simp] theorem Hw.draw_err (h : Hw) : h.draw.2.err = h.err := rfl
@[simp] theorem Hw.draw_pwr (h : Hw) : h.draw.2.pwr = h.pwr := rfl
@[simp] theorem Hw.draw_out (h : Hw) : h.draw.2.out = h.out := rfl
@[simp] theorem Hw.draw_reg (h : Hw) (x : Reg) : h.draw.2.reg x = h.reg x := rfl
/-- A draw takes the next free value and advances the counter. -/
@[simp] theorem Hw.draw_freeCtr (h : Hw) : h.draw.2.freeCtr = h.freeCtr + 1 := rfl
@[simp] theorem Hw.draw_fst (h : Hw) : h.draw.1 = Config.freeValue h.freeCtr := rfl
@[simp] theorem Hw.emit_out (h : Hw) (o : Out) : (h.emit o).out = o :: h.out := rfl
@[simp] theorem Hw.setReg_regs (h : Hw) (r : Reg) (v : W64) : (h.setReg r v).regs = h.regs.set r v := rfl

/-! ### Updates of links, live calibration, rings, turns and copies -/

@[simp] theorem Hw.setLink_regs (h : Hw) (p : Nat) (l : Link) : (h.setLink p l).regs = h.regs := rfl
@[simp] theorem Hw.setLink_fwd (h : Hw) (p : Nat) (l : Link) : (h.setLink p l).fwd = h.fwd := rfl
@[simp] theorem Hw.setLink_buf (h : Hw) (p : Nat) (l : Link) : (h.setLink p l).buf = h.buf := rfl
@[simp] theorem Hw.setLink_egr (h : Hw) (p : Nat) (l : Link) : (h.setLink p l).egr = h.egr := rfl
@[simp] theorem Hw.setLink_coll (h : Hw) (p : Nat) (l : Link) : (h.setLink p l).coll = h.coll := rfl
@[simp] theorem Hw.setLink_gon (h : Hw) (p : Nat) (l : Link) : (h.setLink p l).gon = h.gon := rfl
@[simp] theorem Hw.setLink_hst (h : Hw) (p : Nat) (l : Link) : (h.setLink p l).hst = h.hst := rfl
@[simp] theorem Hw.setLink_mgt (h : Hw) (p : Nat) (l : Link) : (h.setLink p l).mgt = h.mgt := rfl
@[simp] theorem Hw.setLink_tim (h : Hw) (p : Nat) (l : Link) : (h.setLink p l).tim = h.tim := rfl
@[simp] theorem Hw.setLink_err (h : Hw) (p : Nat) (l : Link) : (h.setLink p l).err = h.err := rfl
@[simp] theorem Hw.setLink_pwr (h : Hw) (p : Nat) (l : Link) : (h.setLink p l).pwr = h.pwr := rfl
@[simp] theorem Hw.setLink_out (h : Hw) (p : Nat) (l : Link) : (h.setLink p l).out = h.out := rfl
@[simp] theorem Hw.setLink_freeCtr (h : Hw) (p : Nat) (l : Link) : (h.setLink p l).freeCtr = h.freeCtr := rfl
@[simp] theorem Hw.setLink_reg (h : Hw) (p : Nat) (l : Link) (y : Reg) : (h.setLink p l).reg y = h.reg y := rfl
@[simp] theorem Hw.setLink_lgt_liveLane (h : Hw) (p : Nat) (l : Link) : (h.setLink p l).lgt.liveLane = h.lgt.liveLane := rfl
@[simp] theorem Hw.setLink_lgt_liveFloor (h : Hw) (p : Nat) (l : Link) : (h.setLink p l).lgt.liveFloor = h.lgt.liveFloor := rfl
@[simp] theorem Hw.setLink_lgt_calWrites (h : Hw) (p : Nat) (l : Link) : (h.setLink p l).lgt.calWrites = h.lgt.calWrites := rfl
@[simp] theorem Hw.setLive_regs (h : Hw) (n : Nat) (w : W64 × W64) : (h.setLive n w).regs = h.regs := rfl
@[simp] theorem Hw.setLive_fwd (h : Hw) (n : Nat) (w : W64 × W64) : (h.setLive n w).fwd = h.fwd := rfl
@[simp] theorem Hw.setLive_buf (h : Hw) (n : Nat) (w : W64 × W64) : (h.setLive n w).buf = h.buf := rfl
@[simp] theorem Hw.setLive_egr (h : Hw) (n : Nat) (w : W64 × W64) : (h.setLive n w).egr = h.egr := rfl
@[simp] theorem Hw.setLive_coll (h : Hw) (n : Nat) (w : W64 × W64) : (h.setLive n w).coll = h.coll := rfl
@[simp] theorem Hw.setLive_gon (h : Hw) (n : Nat) (w : W64 × W64) : (h.setLive n w).gon = h.gon := rfl
@[simp] theorem Hw.setLive_hst (h : Hw) (n : Nat) (w : W64 × W64) : (h.setLive n w).hst = h.hst := rfl
@[simp] theorem Hw.setLive_mgt (h : Hw) (n : Nat) (w : W64 × W64) : (h.setLive n w).mgt = h.mgt := rfl
@[simp] theorem Hw.setLive_tim (h : Hw) (n : Nat) (w : W64 × W64) : (h.setLive n w).tim = h.tim := rfl
@[simp] theorem Hw.setLive_err (h : Hw) (n : Nat) (w : W64 × W64) : (h.setLive n w).err = h.err := rfl
@[simp] theorem Hw.setLive_pwr (h : Hw) (n : Nat) (w : W64 × W64) : (h.setLive n w).pwr = h.pwr := rfl
@[simp] theorem Hw.setLive_out (h : Hw) (n : Nat) (w : W64 × W64) : (h.setLive n w).out = h.out := rfl
@[simp] theorem Hw.setLive_freeCtr (h : Hw) (n : Nat) (w : W64 × W64) : (h.setLive n w).freeCtr = h.freeCtr := rfl
@[simp] theorem Hw.setLive_reg (h : Hw) (n : Nat) (w : W64 × W64) (y : Reg) : (h.setLive n w).reg y = h.reg y := rfl
@[simp] theorem Hw.setLive_lgt_links (h : Hw) (n : Nat) (w : W64 × W64) : (h.setLive n w).lgt.links = h.lgt.links := rfl
@[simp] theorem Hw.setLive_lgt_liveFloor (h : Hw) (n : Nat) (w : W64 × W64) : (h.setLive n w).lgt.liveFloor = h.lgt.liveFloor := rfl
@[simp] theorem Hw.setLiveFloor_regs (h : Hw) (j : Nat) (w : W64) : (h.setLiveFloor j w).regs = h.regs := rfl
@[simp] theorem Hw.setLiveFloor_fwd (h : Hw) (j : Nat) (w : W64) : (h.setLiveFloor j w).fwd = h.fwd := rfl
@[simp] theorem Hw.setLiveFloor_buf (h : Hw) (j : Nat) (w : W64) : (h.setLiveFloor j w).buf = h.buf := rfl
@[simp] theorem Hw.setLiveFloor_egr (h : Hw) (j : Nat) (w : W64) : (h.setLiveFloor j w).egr = h.egr := rfl
@[simp] theorem Hw.setLiveFloor_coll (h : Hw) (j : Nat) (w : W64) : (h.setLiveFloor j w).coll = h.coll := rfl
@[simp] theorem Hw.setLiveFloor_gon (h : Hw) (j : Nat) (w : W64) : (h.setLiveFloor j w).gon = h.gon := rfl
@[simp] theorem Hw.setLiveFloor_hst (h : Hw) (j : Nat) (w : W64) : (h.setLiveFloor j w).hst = h.hst := rfl
@[simp] theorem Hw.setLiveFloor_mgt (h : Hw) (j : Nat) (w : W64) : (h.setLiveFloor j w).mgt = h.mgt := rfl
@[simp] theorem Hw.setLiveFloor_tim (h : Hw) (j : Nat) (w : W64) : (h.setLiveFloor j w).tim = h.tim := rfl
@[simp] theorem Hw.setLiveFloor_err (h : Hw) (j : Nat) (w : W64) : (h.setLiveFloor j w).err = h.err := rfl
@[simp] theorem Hw.setLiveFloor_pwr (h : Hw) (j : Nat) (w : W64) : (h.setLiveFloor j w).pwr = h.pwr := rfl
@[simp] theorem Hw.setLiveFloor_out (h : Hw) (j : Nat) (w : W64) : (h.setLiveFloor j w).out = h.out := rfl
@[simp] theorem Hw.setLiveFloor_freeCtr (h : Hw) (j : Nat) (w : W64) : (h.setLiveFloor j w).freeCtr = h.freeCtr := rfl
@[simp] theorem Hw.setLiveFloor_reg (h : Hw) (j : Nat) (w : W64) (y : Reg) : (h.setLiveFloor j w).reg y = h.reg y := rfl
@[simp] theorem Hw.setLiveFloor_lgt_links (h : Hw) (j : Nat) (w : W64) : (h.setLiveFloor j w).lgt.links = h.lgt.links := rfl
@[simp] theorem Hw.setLiveFloor_lgt_liveLane (h : Hw) (j : Nat) (w : W64) : (h.setLiveFloor j w).lgt.liveLane = h.lgt.liveLane := rfl
@[simp] theorem Hw.setRing_regs (h : Hw) (r : Nat) (x : RingSt) : (h.setRing r x).regs = h.regs := rfl
@[simp] theorem Hw.setRing_fwd (h : Hw) (r : Nat) (x : RingSt) : (h.setRing r x).fwd = h.fwd := rfl
@[simp] theorem Hw.setRing_buf (h : Hw) (r : Nat) (x : RingSt) : (h.setRing r x).buf = h.buf := rfl
@[simp] theorem Hw.setRing_egr (h : Hw) (r : Nat) (x : RingSt) : (h.setRing r x).egr = h.egr := rfl
@[simp] theorem Hw.setRing_coll (h : Hw) (r : Nat) (x : RingSt) : (h.setRing r x).coll = h.coll := rfl
@[simp] theorem Hw.setRing_gon (h : Hw) (r : Nat) (x : RingSt) : (h.setRing r x).gon = h.gon := rfl
@[simp] theorem Hw.setRing_lgt (h : Hw) (r : Nat) (x : RingSt) : (h.setRing r x).lgt = h.lgt := rfl
@[simp] theorem Hw.setRing_mgt (h : Hw) (r : Nat) (x : RingSt) : (h.setRing r x).mgt = h.mgt := rfl
@[simp] theorem Hw.setRing_tim (h : Hw) (r : Nat) (x : RingSt) : (h.setRing r x).tim = h.tim := rfl
@[simp] theorem Hw.setRing_err (h : Hw) (r : Nat) (x : RingSt) : (h.setRing r x).err = h.err := rfl
@[simp] theorem Hw.setRing_pwr (h : Hw) (r : Nat) (x : RingSt) : (h.setRing r x).pwr = h.pwr := rfl
@[simp] theorem Hw.setRing_out (h : Hw) (r : Nat) (x : RingSt) : (h.setRing r x).out = h.out := rfl
@[simp] theorem Hw.setRing_freeCtr (h : Hw) (r : Nat) (x : RingSt) : (h.setRing r x).freeCtr = h.freeCtr := rfl
@[simp] theorem Hw.setRing_reg (h : Hw) (r : Nat) (x : RingSt) (y : Reg) : (h.setRing r x).reg y = h.reg y := rfl
@[simp] theorem Hw.setRing_hst_round (h : Hw) (r : Nat) (x : RingSt) : (h.setRing r x).hst.round = h.hst.round := rfl
@[simp] theorem Hw.setRing_hst_started (h : Hw) (r : Nat) (x : RingSt) : (h.setRing r x).hst.started = h.hst.started := rfl
@[simp] theorem Hw.setRing_hst_long (h : Hw) (r : Nat) (x : RingSt) : (h.setRing r x).hst.long = h.hst.long := rfl
@[simp] theorem Hw.setRing_hst_busMaster (h : Hw) (r : Nat) (x : RingSt) : (h.setRing r x).hst.busMaster = h.hst.busMaster := rfl
@[simp] theorem Hw.setRing_hst_cfg (h : Hw) (r : Nat) (x : RingSt) : (h.setRing r x).hst.cfg = h.hst.cfg := rfl
@[simp] theorem Hw.tookTurn_regs (h : Hw) (i : Nat) : (h.tookTurn i).regs = h.regs := rfl
@[simp] theorem Hw.tookTurn_fwd (h : Hw) (i : Nat) : (h.tookTurn i).fwd = h.fwd := rfl
@[simp] theorem Hw.tookTurn_buf (h : Hw) (i : Nat) : (h.tookTurn i).buf = h.buf := rfl
@[simp] theorem Hw.tookTurn_egr (h : Hw) (i : Nat) : (h.tookTurn i).egr = h.egr := rfl
@[simp] theorem Hw.tookTurn_coll (h : Hw) (i : Nat) : (h.tookTurn i).coll = h.coll := rfl
@[simp] theorem Hw.tookTurn_gon (h : Hw) (i : Nat) : (h.tookTurn i).gon = h.gon := rfl
@[simp] theorem Hw.tookTurn_lgt (h : Hw) (i : Nat) : (h.tookTurn i).lgt = h.lgt := rfl
@[simp] theorem Hw.tookTurn_mgt (h : Hw) (i : Nat) : (h.tookTurn i).mgt = h.mgt := rfl
@[simp] theorem Hw.tookTurn_tim (h : Hw) (i : Nat) : (h.tookTurn i).tim = h.tim := rfl
@[simp] theorem Hw.tookTurn_err (h : Hw) (i : Nat) : (h.tookTurn i).err = h.err := rfl
@[simp] theorem Hw.tookTurn_pwr (h : Hw) (i : Nat) : (h.tookTurn i).pwr = h.pwr := rfl
@[simp] theorem Hw.tookTurn_out (h : Hw) (i : Nat) : (h.tookTurn i).out = h.out := rfl
@[simp] theorem Hw.tookTurn_freeCtr (h : Hw) (i : Nat) : (h.tookTurn i).freeCtr = h.freeCtr := rfl
@[simp] theorem Hw.tookTurn_reg (h : Hw) (i : Nat) (y : Reg) : (h.tookTurn i).reg y = h.reg y := rfl
@[simp] theorem Hw.tookTurn_hst_rings (h : Hw) (i : Nat) : (h.tookTurn i).hst.rings = h.hst.rings := rfl
@[simp] theorem Hw.tookTurn_hst_started (h : Hw) (i : Nat) : (h.tookTurn i).hst.started = h.hst.started := rfl
@[simp] theorem Hw.tookTurn_hst_long (h : Hw) (i : Nat) : (h.tookTurn i).hst.long = h.hst.long := rfl
@[simp] theorem Hw.tookTurn_hst_busMaster (h : Hw) (i : Nat) : (h.tookTurn i).hst.busMaster = h.hst.busMaster := rfl
@[simp] theorem Hw.tookTurn_hst_cfg (h : Hw) (i : Nat) : (h.tookTurn i).hst.cfg = h.hst.cfg := rfl
@[simp] theorem Hw.setLong_regs (h : Hw) (l : LongRun) : (h.setLong l).regs = h.regs := rfl
@[simp] theorem Hw.setLong_fwd (h : Hw) (l : LongRun) : (h.setLong l).fwd = h.fwd := rfl
@[simp] theorem Hw.setLong_buf (h : Hw) (l : LongRun) : (h.setLong l).buf = h.buf := rfl
@[simp] theorem Hw.setLong_egr (h : Hw) (l : LongRun) : (h.setLong l).egr = h.egr := rfl
@[simp] theorem Hw.setLong_coll (h : Hw) (l : LongRun) : (h.setLong l).coll = h.coll := rfl
@[simp] theorem Hw.setLong_gon (h : Hw) (l : LongRun) : (h.setLong l).gon = h.gon := rfl
@[simp] theorem Hw.setLong_lgt (h : Hw) (l : LongRun) : (h.setLong l).lgt = h.lgt := rfl
@[simp] theorem Hw.setLong_mgt (h : Hw) (l : LongRun) : (h.setLong l).mgt = h.mgt := rfl
@[simp] theorem Hw.setLong_tim (h : Hw) (l : LongRun) : (h.setLong l).tim = h.tim := rfl
@[simp] theorem Hw.setLong_err (h : Hw) (l : LongRun) : (h.setLong l).err = h.err := rfl
@[simp] theorem Hw.setLong_pwr (h : Hw) (l : LongRun) : (h.setLong l).pwr = h.pwr := rfl
@[simp] theorem Hw.setLong_out (h : Hw) (l : LongRun) : (h.setLong l).out = h.out := rfl
@[simp] theorem Hw.setLong_freeCtr (h : Hw) (l : LongRun) : (h.setLong l).freeCtr = h.freeCtr := rfl
@[simp] theorem Hw.setLong_reg (h : Hw) (l : LongRun) (y : Reg) : (h.setLong l).reg y = h.reg y := rfl
@[simp] theorem Hw.setLong_hst_rings (h : Hw) (l : LongRun) : (h.setLong l).hst.rings = h.hst.rings := rfl
@[simp] theorem Hw.setLong_hst_round (h : Hw) (l : LongRun) : (h.setLong l).hst.round = h.hst.round := rfl
@[simp] theorem Hw.setLong_hst_started (h : Hw) (l : LongRun) : (h.setLong l).hst.started = h.hst.started := rfl
@[simp] theorem Hw.setLong_hst_cfg (h : Hw) (l : LongRun) : (h.setLong l).hst.cfg = h.hst.cfg := rfl
@[simp] theorem Hw.setCopy_regs (h : Hw) (c : Nat) (d : CopyDesc) : (h.setCopy c d).regs = h.regs := rfl
@[simp] theorem Hw.setCopy_fwd (h : Hw) (c : Nat) (d : CopyDesc) : (h.setCopy c d).fwd = h.fwd := rfl
@[simp] theorem Hw.setCopy_buf (h : Hw) (c : Nat) (d : CopyDesc) : (h.setCopy c d).buf = h.buf := rfl
@[simp] theorem Hw.setCopy_egr (h : Hw) (c : Nat) (d : CopyDesc) : (h.setCopy c d).egr = h.egr := rfl
@[simp] theorem Hw.setCopy_coll (h : Hw) (c : Nat) (d : CopyDesc) : (h.setCopy c d).coll = h.coll := rfl
@[simp] theorem Hw.setCopy_lgt (h : Hw) (c : Nat) (d : CopyDesc) : (h.setCopy c d).lgt = h.lgt := rfl
@[simp] theorem Hw.setCopy_hst (h : Hw) (c : Nat) (d : CopyDesc) : (h.setCopy c d).hst = h.hst := rfl
@[simp] theorem Hw.setCopy_mgt (h : Hw) (c : Nat) (d : CopyDesc) : (h.setCopy c d).mgt = h.mgt := rfl
@[simp] theorem Hw.setCopy_tim (h : Hw) (c : Nat) (d : CopyDesc) : (h.setCopy c d).tim = h.tim := rfl
@[simp] theorem Hw.setCopy_err (h : Hw) (c : Nat) (d : CopyDesc) : (h.setCopy c d).err = h.err := rfl
@[simp] theorem Hw.setCopy_pwr (h : Hw) (c : Nat) (d : CopyDesc) : (h.setCopy c d).pwr = h.pwr := rfl
@[simp] theorem Hw.setCopy_out (h : Hw) (c : Nat) (d : CopyDesc) : (h.setCopy c d).out = h.out := rfl
@[simp] theorem Hw.setCopy_freeCtr (h : Hw) (c : Nat) (d : CopyDesc) : (h.setCopy c d).freeCtr = h.freeCtr := rfl
@[simp] theorem Hw.setCopy_reg (h : Hw) (c : Nat) (d : CopyDesc) (y : Reg) : (h.setCopy c d).reg y = h.reg y := rfl
@[simp] theorem Hw.setCopy_gon_dir (h : Hw) (c : Nat) (d : CopyDesc) : (h.setCopy c d).gon.dir = h.gon.dir := rfl
@[simp] theorem Hw.setCopy_gon_recs (h : Hw) (c : Nat) (d : CopyDesc) : (h.setCopy c d).gon.recs = h.gon.recs := rfl
@[simp] theorem Hw.setCopy_gon_atomQ (h : Hw) (c : Nat) (d : CopyDesc) : (h.setCopy c d).gon.atomQ = h.gon.atomQ := rfl
@[simp] theorem Hw.setCopy_gon_nextSeq (h : Hw) (c : Nat) (d : CopyDesc) : (h.setCopy c d).gon.nextSeq = h.gon.nextSeq := rfl
@[simp] theorem Hw.dropCopy_regs (h : Hw) (c id : Nat) : (h.dropCopy c id).regs = h.regs := rfl
@[simp] theorem Hw.dropCopy_fwd (h : Hw) (c id : Nat) : (h.dropCopy c id).fwd = h.fwd := rfl
@[simp] theorem Hw.dropCopy_buf (h : Hw) (c id : Nat) : (h.dropCopy c id).buf = h.buf := rfl
@[simp] theorem Hw.dropCopy_egr (h : Hw) (c id : Nat) : (h.dropCopy c id).egr = h.egr := rfl
@[simp] theorem Hw.dropCopy_coll (h : Hw) (c id : Nat) : (h.dropCopy c id).coll = h.coll := rfl
@[simp] theorem Hw.dropCopy_lgt (h : Hw) (c id : Nat) : (h.dropCopy c id).lgt = h.lgt := rfl
@[simp] theorem Hw.dropCopy_hst (h : Hw) (c id : Nat) : (h.dropCopy c id).hst = h.hst := rfl
@[simp] theorem Hw.dropCopy_mgt (h : Hw) (c id : Nat) : (h.dropCopy c id).mgt = h.mgt := rfl
@[simp] theorem Hw.dropCopy_tim (h : Hw) (c id : Nat) : (h.dropCopy c id).tim = h.tim := rfl
@[simp] theorem Hw.dropCopy_err (h : Hw) (c id : Nat) : (h.dropCopy c id).err = h.err := rfl
@[simp] theorem Hw.dropCopy_pwr (h : Hw) (c id : Nat) : (h.dropCopy c id).pwr = h.pwr := rfl
@[simp] theorem Hw.dropCopy_out (h : Hw) (c id : Nat) : (h.dropCopy c id).out = h.out := rfl
@[simp] theorem Hw.dropCopy_freeCtr (h : Hw) (c id : Nat) : (h.dropCopy c id).freeCtr = h.freeCtr := rfl
@[simp] theorem Hw.dropCopy_reg (h : Hw) (c id : Nat) (y : Reg) : (h.dropCopy c id).reg y = h.reg y := rfl
@[simp] theorem Hw.dropCopy_gon_dir (h : Hw) (c id : Nat) : (h.dropCopy c id).gon.dir = h.gon.dir := rfl
@[simp] theorem Hw.dropCopy_gon_recs (h : Hw) (c id : Nat) : (h.dropCopy c id).gon.recs = h.gon.recs := rfl
@[simp] theorem Hw.dropCopy_gon_atomQ (h : Hw) (c id : Nat) : (h.dropCopy c id).gon.atomQ = h.gon.atomQ := rfl
@[simp] theorem Hw.dropCopy_gon_nextSeq (h : Hw) (c id : Nat) : (h.dropCopy c id).gon.nextSeq = h.gon.nextSeq := rfl

end Sys2Proof.Machine
end

