-- ==== Sys2Proof/Laws/Ops.lean ====
section
/-! SUPPORT. What the shared operations over registers, counters, events and records do, said once. -/

namespace Sys2Proof.Machine

/-! ### Registers -/

theorem RegMap.find_filter_ne (m : RegMap) {r x : Reg} (h : x ≠ r) :
    RegMap.find (m.filter fun p => decide (p.1 ≠ r)) x = RegMap.find m x := by
  induction m with
  | nil => rfl
  | cons p m ih =>
    obtain ⟨k, v⟩ := p
    by_cases hk : k = r
    · subst hk
      simp only [ne_eq, not_true_eq_false, decide_false, Bool.false_eq_true, not_false_eq_true, List.filter_cons_of_neg]
      rw [ih]
      have : ¬ k = x := fun e => h e.symm
      simp [RegMap.find, this]
    · simp only [ne_eq, hk, not_false_eq_true, decide_true, List.filter_cons_of_pos, RegMap.find]
      rw [ih]

theorem RegMap.find_filter_self (m : RegMap) (r : Reg) :
    RegMap.find (m.filter fun p => decide (p.1 ≠ r)) r = none := by
  induction m with
  | nil => rfl
  | cons p m ih =>
    obtain ⟨k, v⟩ := p
    by_cases hk : k = r
    · subst hk
      simpa using ih
    · simp only [ne_eq, hk, not_false_eq_true, decide_true, List.filter_cons_of_pos, RegMap.find, ih]
      simp

/-- A register that was set reads as the value it was set to. -/
theorem RegMap.get_set_self (m : RegMap) (r : Reg) (v : W64) : (m.set r v).get r = v := by
  unfold RegMap.get RegMap.set
  by_cases hv : v = r.reset
  · rw [if_pos hv, RegMap.find_filter_self, hv]; rfl
  · simp [hv, RegMap.find]

/-- Every other register keeps its value. -/
theorem RegMap.get_set_ne (m : RegMap) {r x : Reg} (h : x ≠ r) (v : W64) : (m.set r v).get x = m.get x := by
  unfold RegMap.get RegMap.set
  by_cases hv : v = r.reset
  · rw [if_pos hv, RegMap.find_filter_ne m h]
  · have : ¬ r = x := fun e => h e.symm
    rw [if_neg hv, RegMap.find, if_neg this, RegMap.find_filter_ne m h]

@[simp] theorem Hw.reg_setReg_self (h : Hw) (r : Reg) (v : W64) : (h.setReg r v).reg r = v := RegMap.get_set_self ..

theorem Hw.reg_setReg_ne (h : Hw) {r x : Reg} (hx : x ≠ r) (v : W64) : (h.setReg r v).reg x = h.reg x :=
  RegMap.get_set_ne _ hx _

theorem Hw.reg_setReg (h : Hw) (r x : Reg) (v : W64) : (h.setReg r v).reg x = if x = r then v else h.reg x := by
  split
  · next e => subst e; simp
  · next e => exact h.reg_setReg_ne e v

theorem Hw.reg_setFld_ne (h : Hw) {r x : Reg} (hx : x ≠ r) (f : Fld) (n : Nat) : (h.setFld r f n).reg x = h.reg x :=
  h.reg_setReg_ne hx _

@[simp] theorem Hw.reg_setFld_self (h : Hw) (r : Reg) (f : Fld) (n : Nat) : (h.setFld r f n).reg r = f.put (h.reg r) n :=
  h.reg_setReg_self r _

theorem Hw.reg_satFld_ne (h : Hw) {r x : Reg} (hx : x ≠ r) (f : Fld) (n : Nat) : (h.satFld r f n).reg x = h.reg x :=
  h.reg_setReg_ne hx _

theorem Hw.reg_icPend_ne (h : Hw) {r x : Reg} (hx : x ≠ r) : (h.icPend r).reg x = h.reg x := by
  unfold Hw.icPend
  rw [Hw.reg_satFld_ne _ hx, Hw.reg_setFld_ne _ hx]

/-! ### Fields -/

theorem Fld.get_eq_testBit (f : Fld) (v : W64) (i : Nat) : (f.get v).testBit i = (decide (i < f.width) && v.getLsbD (f.lo + i)) := by
  unfold Fld.get
  rw [Nat.testBit_mod_two_pow, Nat.testBit_div_two_pow]
  simp [BitVec.getLsbD, Nat.add_comm]

theorem Fld.mask_getLsbD (f : Fld) (i : Nat) :
    f.mask.getLsbD i = (decide (i < 64) && decide (f.lo ≤ i) && decide (i - f.lo < f.width)) := by
  unfold Fld.mask
  rw [BitVec.getLsbD_ofNat, Nat.testBit_mul_two_pow, Nat.testBit_two_pow_sub_one, Bool.and_assoc]

theorem Fld.put_getLsbD (f : Fld) (v : W64) (n i : Nat) (hi : i < 64) :
    (f.put v n).getLsbD i = if f.lo ≤ i ∧ i < f.lo + f.width then n.testBit (i - f.lo) else v.getLsbD i := by
  unfold Fld.put
  rw [BitVec.getLsbD_or, BitVec.getLsbD_and, BitVec.getLsbD_not, Fld.mask_getLsbD, BitVec.getLsbD_ofNat, Nat.testBit_mul_two_pow,
    Nat.testBit_mod_two_pow]
  by_cases h1 : f.lo ≤ i
  · by_cases h2 : i < f.lo + f.width
    · have : i - f.lo < f.width := by omega
      simp [hi, h1, h2, this]
    · have : ¬ i - f.lo < f.width := by omega
      simp [hi, h1, h2, this]
  · simp [hi, h1]

/-- A field that was put reads as the value that was put, cut to its width. -/
theorem Fld.get_put_self (f : Fld) (hf : f.lo + f.width ≤ 64) (v : W64) (n : Nat) : f.get (f.put v n) = n % 2 ^ f.width := by
  apply Nat.eq_of_testBit_eq
  intro i
  rw [Fld.get_eq_testBit, Nat.testBit_mod_two_pow]
  by_cases hi : i < f.width
  · rw [Fld.put_getLsbD _ _ _ _ (by omega)]
    have : f.lo ≤ f.lo + i ∧ f.lo + i < f.lo + f.width := ⟨by omega, by omega⟩
    simp [hi]
  · simp [hi]

/-- A field that does not overlap keeps its value. -/
theorem Fld.get_put_ne (f g : Fld) (hf : f.lo + f.width ≤ 64) (hg : f.lo + f.width ≤ g.lo ∨ g.lo + g.width ≤ f.lo) (v : W64) (n : Nat) :
    f.get (g.put v n) = f.get v := by
  apply Nat.eq_of_testBit_eq
  intro i
  rw [Fld.get_eq_testBit, Fld.get_eq_testBit]
  by_cases hi : i < f.width
  · rw [Fld.put_getLsbD _ _ _ _ (by omega)]
    have : ¬ (g.lo ≤ f.lo + i ∧ f.lo + i < g.lo + g.width) := by omega
    simp [this]
  · simp [hi]

theorem Fld.get_lt (f : Fld) (v : W64) : f.get v < 2 ^ f.width := Nat.mod_lt _ (Nat.two_pow_pos _)

/-- Outside the field nothing changes. -/
theorem Fld.put_getLsbD_out (f : Fld) (v : W64) (n i : Nat) (hi : i < f.lo ∨ f.lo + f.width ≤ i) :
    (f.put v n).getLsbD i = v.getLsbD i := by
  by_cases h : i < 64
  · rw [Fld.put_getLsbD _ _ _ _ h]
    have : ¬ (f.lo ≤ i ∧ i < f.lo + f.width) := by omega
    simp [this]
  · simp [BitVec.getLsbD_of_ge _ _ (by omega : 64 ≤ i)]

/-! ### Frames -/

theorem Only.refl (ps : List Part) (P : Reg → Prop) (h : Hw) : Only ps P h h := ⟨fun _ _ => rfl, fun p _ => by cases p <;> rfl⟩

theorem Part.same_trans (p : Part) {a b c : Hw} (h1 : p.same a b) (h2 : p.same b c) : p.same a c := by
  cases p <;> exact h2.trans h1

theorem Only.trans {ps : List Part} {P : Reg → Prop} {a b c : Hw} (h1 : Only ps P a b) (h2 : Only ps P b c) : Only ps P a c :=
  ⟨fun r hr => (h2.regs r hr).trans (h1.regs r hr), fun p hp => p.same_trans (h1.parts p hp) (h2.parts p hp)⟩

theorem Only.mono {ps qs : List Part} {P Q : Reg → Prop} {a b : Hw} (h : Only ps P a b) (hps : ∀ p, p ∈ ps → p ∈ qs)
    (hpq : ∀ r, P r → Q r) : Only qs Q a b :=
  ⟨fun r hr => h.regs r fun hp => hr (hpq r hp), fun p hp => h.parts p fun hq => hp (hps p hq)⟩

theorem Only.foldl {ps : List Part} {P : Reg → Prop} {α : Type} (l : List α) (g : Hw → α → Hw) (hg : ∀ h x, Only ps P h (g h x))
    (h : Hw) : Only ps P h (l.foldl g h) := by
  induction l generalizing h with
  | nil => exact Only.refl ps P h
  | cons x l ih => exact (hg h x).trans (ih _)

/-- Setting one register leaves everything else. -/
theorem Only.setReg {ps : List Part} {P : Reg → Prop} (h : Hw) (r : Reg) (v : W64) (hr : P r) : Only ps P h (h.setReg r v) :=
  ⟨fun x hx => h.reg_setReg_ne (x := x) (fun e => hx (by rw [e]; exact hr)) v, fun p _ => by cases p <;> rfl⟩

theorem Only.setFld {ps : List Part} {P : Reg → Prop} (h : Hw) (r : Reg) (f : Fld) (n : Nat) (hr : P r) :
    Only ps P h (h.setFld r f n) := Only.setReg h r _ hr

theorem Only.satFld {ps : List Part} {P : Reg → Prop} (h : Hw) (r : Reg) (f : Fld) (n : Nat) (hr : P r) :
    Only ps P h (h.satFld r f n) := Only.setReg h r _ hr

theorem Only.icPend {ps : List Part} {P : Reg → Prop} (h : Hw) (r : Reg) (hr : P r) : Only ps P h (h.icPend r) :=
  (Only.setFld h r _ _ hr).trans (Only.satFld _ r _ _ hr)

theorem Only.emit {ps : List Part} {P : Reg → Prop} (h : Hw) (o : Out) (hp : Part.out ∈ ps) : Only ps P h (h.emit o) :=
  ⟨fun _ _ => rfl, fun p hp' => by cases p <;> first | rfl | exact absurd hp hp'⟩

theorem Only.draw {ps : List Part} {P : Reg → Prop} (h : Hw) (hp : Part.free ∈ ps) : Only ps P h h.draw.2 :=
  ⟨fun _ _ => rfl, fun p hp' => by cases p <;> first | rfl | exact absurd hp hp'⟩

/-- A frame of the volatile part is one of the state. -/
theorem OnlyHw.of_onHw {ps : List Part} {P : Reg → Prop} {s : State} {f : Hw → Hw} (h : Only ps P s.hw (f s.hw)) :
    OnlyHw ps P s (s.onHw f) := ⟨rfl, fun _ => rfl, rfl, rfl, h⟩

/-! ### Counters (R309 to R312): only the values CNT_VAL change -/

theorem Hw.bump_only (ps : List Part) (d fuel k n : Nat) (h : Hw) : Only ps (fun r => r.isCnt = true) h (h.bump d fuel k n) := by
  induction fuel generalizing k n h with
  | zero => exact Only.refl _ _ h
  | succ fuel ih =>
    have one (h : Hw) (f : Fld) (m : Nat) : Only ps (fun r => r.isCnt = true) h (h.setFld (.cntVal d k) f m) :=
      Only.setFld _ _ _ _ rfl
    unfold Hw.bump
    dsimp only
    split
    · exact one _ _ _
    · split
      · exact ((one _ _ _).trans (one _ _ _)).trans (ih _ _ _)
      · exact (one _ _ _).trans (one _ _ _)

/-- Counting an event changes counter values only. -/
theorem Hw.count_only (ps : List Part) (h : Hw) (d ev qual n : Nat) : Only ps (fun r => r.isCnt = true) h (h.count d ev qual n) := by
  unfold Hw.count
  dsimp only
  refine Only.trans (b := if eventBase d ≤ ev ∧ ev < eventBase d + 256 then h.bump d 1 (ev - eventBase d) n else h) ?_ ?_
  · split
    · exact Hw.bump_only ..
    · exact Only.refl _ _ _
  · refine Only.foldl _ _ (fun g r => ?_) _
    cases r <;> first
      | exact Only.refl _ _ _
      | (dsimp only; split
         · exact Hw.bump_only ..
         · exact Only.refl _ _ _)

theorem Hw.count_reg (h : Hw) (d ev qual n : Nat) {r : Reg} (hr : r.isCnt = false) : (h.count d ev qual n).reg r = h.reg r :=
  (Hw.count_only [] h d ev qual n).regs r (by simp [hr])

/-! ### The interrupt controller (R283 to R286) -/

/-- Raising the lines changes the controller's own state only. -/
theorem Hw.icUpdate_only (P : Reg → Prop) (h : Hw) : Only [.mgt] P h h.icUpdate := by
  unfold Hw.icUpdate
  dsimp only
  refine Only.trans ?_ (Only.foldl _ _ (fun g o => ?_) _)
  · exact ⟨fun _ _ => rfl, fun p hp => by cases p <;> first | rfl | simp at hp⟩
  · split
    · exact Only.refl _ _ _
    · split
      · exact ⟨fun _ _ => rfl, fun p hp => by cases p <;> first | rfl | simp at hp⟩
      · exact Only.refl _ _ _

/-- An interrupt event changes source registers and the controller's own state only. -/
theorem Hw.icEvent_only (h : Hw) (s : Nat) : Only [.mgt] (fun r => r.isIcSrc = true) h (h.icEvent s) := by
  unfold Hw.icEvent
  refine Only.trans ?_ (Hw.icUpdate_only _ _)
  split
  · exact Only.foldl (P := fun r => r.isIcSrc = true) _ _ (fun g c => Only.icPend (P := fun r => r.isIcSrc = true) g (.icBank c s) rfl) _
  · exact Only.icPend (P := fun r => r.isIcSrc = true) h (.icSrc s) rfl

/-! ### Messages to the host -/

theorem Hw.msix_only (P : Reg → Prop) (h : Hw) (v : Nat) : Only [.hst, .out] P h (h.msix v) := by
  unfold Hw.msix
  split
  · exact Only.emit _ _ (by simp)
  · exact ⟨fun _ _ => rfl, fun p hp => by cases p <;> first | rfl | simp at hp⟩

/-- A host event changes HOST_IRQ_STS, and may send or hold a message. -/
theorem Hw.hostEvent_only (h : Hw) (i : Nat) : Only [.hst, .out] (fun r => r = .hostIrqSts) h (h.hostEvent i) := by
  unfold Hw.hostEvent
  dsimp only
  have sts : Only [.hst, .out] (fun r => r = .hostIrqSts) h
      (h.setReg .hostIrqSts (h.reg .hostIrqSts ||| BitVec.ofNat 64 (2 ^ i))) :=
    Only.setReg (P := fun r => r = .hostIrqSts) _ _ _ rfl
  split
  · exact sts.trans (Hw.msix_only _ _ _)
  · exact sts

/-! ### Error records (R326) -/

theorem Hw.mkRec_only (P : Reg → Prop) (h : Hw) (a : RecArgs) : Only [.free] P h (h.mkRec a).2 :=
  (Only.draw h (by simp)).trans (Only.draw h.draw.2 (by simp))

/-- A record goes to its queue, or is counted; nothing else changes. -/
theorem Hw.record_only (h : Hw) (a : RecArgs) : Only [.free, .err, .mgt] Reg.isNote h (h.record a) := by
  unfold Hw.record
  dsimp only
  have mk : Only [.free, .err, .mgt] Reg.isNote h (h.mkRec a).2 := (Hw.mkRec_only Reg.isNote h a).mono (by simp) fun _ => id
  have err (h : Hw) (e : Err) : Only [.free, .err, .mgt] Reg.isNote h { h with err := e } :=
    ⟨fun _ _ => rfl, fun p hp => by cases p <;> first | rfl | simp at hp⟩
  have cnt (h : Hw) (d ev q n : Nat) : Only [.free, .err, .mgt] Reg.isNote h (h.count d ev q n) :=
    (Hw.count_only _ h d ev q n).mono (fun _ => id) fun _ => Or.inl
  have ic (h : Hw) (s : Nat) : Only [.free, .err, .mgt] Reg.isNote h (h.icEvent s) :=
    (Hw.icEvent_only h s).mono (by simp) fun _ => Or.inr
  split
  · split
    · split
      · exact (mk.trans (err _ _)).trans (ic _ _)
      · exact mk.trans (err _ _)
    · exact (mk.trans (err _ _)).trans (cnt _ _ _ _ _)
  · split
    · exact mk.trans (err _ _)
    · exact (mk.trans (err _ _)).trans (cnt _ _ _ _ _)

end Sys2Proof.Machine
end

