-- ==== Sys2Proof/Laws/Send.lean ====
section
/-! SUPPORT. What lookups, originated frames, notices and re-routes can change: frames and their queues, the schedulers, records and
counters, never a table or a register of another unit. -/

namespace Sys2Proof.Machine

theorem Only.buf {ps : List Part} {P : Reg → Prop} (h : Hw) (b : Buf) (hp : Part.buf ∈ ps) : Only ps P h { h with buf := b } :=
  ⟨fun _ _ => rfl, fun p hp' => by cases p <;> first | rfl | exact absurd hp hp'⟩

theorem Only.egr {ps : List Part} {P : Reg → Prop} (h : Hw) (e : Egr) (hp : Part.egr ∈ ps) : Only ps P h { h with egr := e } :=
  ⟨fun _ _ => rfl, fun p hp' => by cases p <;> first | rfl | exact absurd hp hp'⟩

theorem Only.err {ps : List Part} {P : Reg → Prop} (h : Hw) (e : Err) (hp : Part.err ∈ ps) : Only ps P h { h with err := e } :=
  ⟨fun _ _ => rfl, fun p hp' => by cases p <;> first | rfl | exact absurd hp hp'⟩

theorem Only.fwd {ps : List Part} {P : Reg → Prop} (h : Hw) (e : Fwd) (hp : Part.fwd ∈ ps) : Only ps P h { h with fwd := e } :=
  ⟨fun _ _ => rfl, fun p hp' => by cases p <;> first | rfl | exact absurd hp hp'⟩

theorem Hw.count_send (h : Hw) (d ev q n : Nat) : Only sendParts Reg.isNote h (h.count d ev q n) :=
  (Hw.count_only _ h d ev q n).mono (fun _ => id) fun _ => Or.inl

theorem Hw.record_send (h : Hw) (a : RecArgs) : Only sendParts Reg.isNote h (h.record a) :=
  (Hw.record_only h a).mono (by simp [sendParts]) fun _ => id

theorem Hw.draw_send (h : Hw) : Only sendParts Reg.isNote h h.draw.2 := Only.draw h (by simp [sendParts])

theorem Hw.setSched_send (h : Hw) (n : Nat) (s : Sched) : Only sendParts Reg.isNote h (h.setSched n s) :=
  Only.egr h _ (by simp [sendParts])

theorem Hw.setVoq_send (h : Hw) (q n t : Nat) (v : Voq) : Only sendParts Reg.isNote h (h.setVoq q n t v) :=
  Only.buf h _ (by simp [sendParts])

theorem Hw.mapHeld_send (h : Hw) (id : Nat) (f : Held → Held) : Only sendParts Reg.isNote h (h.mapHeld id f) :=
  Only.buf h _ (by simp [sendParts])

/-! ### Queues -/

theorem Hw.joinCopy_send (h : Hw) (id n t : Nat) (spot : Spot) : Only sendParts Reg.isNote h (h.joinCopy id n t spot) := by
  unfold Hw.joinCopy
  dsimp only
  refine Only.trans ?_ (Hw.mapHeld_send _ _ _)
  refine Only.trans ?_ (Only.buf _ _ (by simp [sendParts]))
  split
  · exact Only.refl _ _ _
  · exact Hw.setSched_send _ _ _

theorem Hw.joinAll_send (h : Hw) (id t : Nat) (ports : List Nat) (spot : Spot) : Only sendParts Reg.isNote h (h.joinAll id t ports spot) :=
  Only.foldl _ _ (fun g n => Hw.joinCopy_send g id n t spot) h

theorem Hw.noteSource_send (h : Hw) (q n t : Nat) (src : Option Node) : Only sendParts Reg.isNote h (h.noteSource q n t src) :=
  Hw.setVoq_send h q n t _

theorem Hw.freshId_send (h : Hw) : Only sendParts Reg.isNote h h.freshId.2 := Only.buf h _ (by simp [sendParts])

theorem Hw.addHeld_send (h : Hw) (x : Held) : Only sendParts Reg.isNote h (h.addHeld x) := Only.buf h _ (by simp [sendParts])

theorem Hw.spillMoved_send (h : Hw) (q n : Nat) : Only sendParts Reg.isNote h (h.spillMoved q n) := Only.buf h _ (by simp [sendParts])

theorem Hw.joinOwn_send (h : Hw) (id q n t len : Nat) (src : Option Node) :
    Only sendParts Reg.isNote h (h.joinOwn id q n t len src) := by
  have base (b : Bool) : Only sendParts Reg.isNote h
      (((if b then (h.spillMoved q len).count q 0x035 0 1 else h).joinCopy id n t (if b then .spill else .queue)).noteSource q n t src) := by
    refine Only.trans (Only.trans ?_ (Hw.joinCopy_send _ _ _ _ _)) (Hw.noteSource_send _ _ _ _ _)
    cases b
    · exact Only.refl _ _ _
    · exact (Hw.spillMoved_send _ _ _).trans (Hw.count_send _ _ _ _ _)
  unfold Hw.joinOwn
  dsimp only
  generalize (h.spillOver q n t && h.spillFits q len) = b
  have hb := base b
  generalize (((if b then (h.spillMoved q len).count q 0x035 0 1 else h).joinCopy id n t (if b then .spill else .queue)).noteSource q n t
    src) = g at hb ⊢
  split
  · exact hb.trans (Hw.count_send _ _ _ _ _)
  · exact hb

theorem Hw.originateTo_send (h : Hw) (q : Nat) (f : Frame) (hd : Option VHdr) (t : Nat) (route : Route) (ports : List Nat)
    (ballast : Bool) : Only sendParts Reg.isNote h (h.originateTo q f hd t route ports ballast) := by
  have start : ∀ x, Only sendParts Reg.isNote h (h.freshId.2.addHeld x) := fun x => (Hw.freshId_send h).trans (Hw.addHeld_send _ x)
  unfold Hw.originateTo
  dsimp only
  split
  · exact (start _).trans (Hw.joinAll_send _ _ _ _ _)
  · split
    · exact (start _).trans (Only.foldl _ _ (fun g n => Hw.joinOwn_send g _ _ _ _ _ _) _)
    · exact (start _).trans (Hw.count_send _ _ _ _ _)

/-! ### Lookups (R62 to R70) -/

theorem Hw.parityMiss_send (h : Hw) (q : Nat) (t : TblRef) : Only sendParts Reg.isNote h (h.parityMiss q t) :=
  (Hw.count_send _ _ _ _ _).trans (Hw.record_send _ _)

theorem Hw.levelLookup_send (ls : List Level) (h : Hw) (q : Nat) (dst : Node) :
    Only sendParts Reg.isNote h (h.levelLookup q dst ls).2 := by
  induction ls generalizing h with
  | nil => exact Only.refl _ _ _
  | cons l ls ih =>
    unfold Hw.levelLookup
    dsimp only
    split
    · exact (Hw.parityMiss_send _ _ _).trans (ih _)
    · split
      · exact Only.refl _ _ _
      · exact ih _

theorem Hw.lookup_send (h : Hw) (q : Nat) (a : Ask) : Only sendParts Reg.isNote h (h.lookup q a).2 := by
  unfold Hw.lookup
  dsimp only
  have h1 : Only sendParts Reg.isNote h (if ((h.excFind q a.dst).isSome && h.tblBad q ⟨.exc, a.dst.toNat⟩) = true then
      h.parityMiss q ⟨.exc, a.dst.toNat⟩ else h) := by
    split
    · exact Hw.parityMiss_send _ _ _
    · exact Only.refl _ _ _
  split
  · exact h1
  · split
    · refine Only.trans (h1.trans ?_) (Hw.levelLookup_send _ _ _ _)
      exact Only.foldl _ _ (fun g i => Hw.parityMiss_send g _ _) _
    · exact h1.trans (Only.foldl _ _ (fun g i => Hw.parityMiss_send g _ _) _)

theorem Hw.sparParity_send (h : Hw) (q s : Nat) : Only sendParts Reg.isNote h (h.sparParity q s) := by
  unfold Hw.sparParity
  generalize List.range 32 = l
  refine Only.foldl _ _ (fun g w => ?_) _
  split
  · exact Hw.parityMiss_send _ _ _
  · exact Only.refl _ _ _

theorem Hw.sprayMember_send (h : Hw) (q : Nat) (sl : List (Nat × Nat)) (a : Ask) :
    Only sendParts Reg.isNote h (h.sprayMember q sl a).2 := (Hw.draw_send h).trans (Hw.draw_send h.draw.2)

theorem Hw.sparPick_send (h : Hw) (q s : Nat) (a : Ask) : Only sendParts Reg.isNote h (h.sparPick q s a).2 := by
  unfold Hw.sparPick
  have hp := Hw.sparParity_send h q s
  generalize h.sparParity q s = g at hp ⊢
  dsimp only
  split
  · exact hp
  · split
    · exact hp.trans (Hw.sprayMember_send g q (g.sparSlots q s) a)
    · exact hp

theorem Hw.flood_send (h : Hw) (q s : Nat) : Only sendParts Reg.isNote h ((h.sparParity q s).count q 0x022 0 1) := by
  have hp := Hw.sparParity_send h q s
  generalize h.sparParity q s = g at hp ⊢
  exact hp.trans (Hw.count_send _ _ _ _ _)

theorem Hw.targets_send (h : Hw) (q : Nat) (a : Ask) (r : Route) : Only sendParts Reg.isNote h (h.targets q a r).2 := by
  cases r with
  | none => exact Only.refl _ _ _
  | port n => exact Only.refl _ _ _
  | spar s =>
    have hp := Hw.sparPick_send h q s a
    unfold Hw.targets
    dsimp only
    generalize h.sparPick q s a = r at hp ⊢
    rcases r with ⟨p, g⟩
    exact hp
  | flood s =>
    have hp := Hw.flood_send h q s
    unfold Hw.targets
    dsimp only
    generalize (h.sparParity q s).count q 0x022 0 1 = r at hp ⊢
    exact hp
  | mcast g =>
    unfold Hw.targets
    dsimp only
    split
    · exact Hw.parityMiss_send _ _ _
    · dsimp only
      split
      · exact Hw.count_send _ _ _ _ _
      · exact Only.refl _ _ _

theorem Hw.unreachable_send (h : Hw) (q : Nat) (dst : Node) : Only sendParts Reg.isNote h (h.unreachable q dst) :=
  (Hw.count_send _ _ _ _ _).trans (Hw.record_send _ _)

/-! ### Originated frames, notices and re-routes -/

theorem Hw.originate_send (h : Hw) (q : Nat) (hd : VHdr) (pl : List Byte) : Only sendParts Reg.isNote h (h.originate q hd pl) := by
  unfold Hw.originate
  split
  · exact Only.refl _ _ _
  · dsimp only
    split
    · exact ((Hw.lookup_send _ _ _).trans (Hw.targets_send _ _ _ _)).trans (Hw.unreachable_send _ _ _)
    · exact ((Hw.lookup_send _ _ _).trans (Hw.targets_send _ _ _ _)).trans (Hw.originateTo_send _ _ _ _ _ _ _ _)

theorem Hw.originateOn_send (h : Hw) (q n : Nat) (hd : VHdr) (pl : List Byte) (b : Bool) :
    Only sendParts Reg.isNote h (h.originateOn q n hd pl b) := by
  unfold Hw.originateOn
  split
  · exact Only.refl _ _ _
  · exact Hw.originateTo_send _ _ _ _ _ _ _ _

theorem Hw.noticeHdr_send (h : Hw) (op : Nat) (dst src : Node) (d : W64) : Only sendParts Reg.isNote h (h.noticeHdr op dst src d).2 :=
  Only.buf h _ (by simp [sendParts])

theorem Hw.ventNotice_send (h : Hw) (n scope st : Nat) : Only sendParts Reg.isNote h (h.ventNotice n scope st) := by
  unfold Hw.ventNotice
  dsimp only
  split
  · exact Only.refl _ _ _
  · split
    · exact Hw.count_send _ _ _ _ _
    · exact (Hw.noticeHdr_send _ _ _ _ _).trans (Hw.originateOn_send _ _ _ _ _ _)

theorem Hw.notice_send (h : Hw) (q : Nat) (x : Held) (op low : Nat) : Only sendParts Reg.isNote h (h.notice q x op low) := by
  unfold Hw.notice
  split
  · exact Hw.count_send _ _ _ _ _
  · dsimp only
    generalize (if op = 112 then Fld.noticeCfg_bpEn else Fld.noticeCfg_discEn) = en
    generalize (if op = 112 then 55 else 56) = ev
    split
    · exact Hw.count_send _ _ _ _ _
    · split
      · exact Hw.count_send _ _ _ _ _
      · split
        · exact Hw.count_send _ _ _ _ _
        · refine Only.trans ?_ (Hw.originate_send _ _ _ _)
          refine Only.trans ?_ (Hw.count_send _ _ _ _ _)
          refine Only.trans ?_ (Hw.noticeHdr_send _ _ _ _ _)
          exact Only.buf h _ (by simp [sendParts])

theorem Hw.epochNotice_only (h : Hw) (k : RouteKey) : Only sendParts Reg.isEpoch h (h.epochNotice k) := by
  have send {a b : Hw} (h : Only sendParts Reg.isNote a b) : Only sendParts Reg.isEpoch a b := h.mono (fun _ => id) fun _ => Or.inr
  unfold Hw.epochNotice
  split
  · exact Only.refl _ _ _
  · dsimp only
    split
    · exact (Only.satFld (P := Reg.isEpoch) _ .epochStatus _ _ (Or.inl rfl)).trans (send (Hw.count_send _ _ _ _ _))
    · split
      · exact Only.buf h _ (by simp [sendParts])
      · split
        · exact send (Hw.count_send _ _ _ _ _)
        · exact send ((Hw.noticeHdr_send _ _ _ _ _).trans (Hw.originate_send _ _ _ _))

/-- A re-route raises EPOCH and sends notices; inside a STAGE_COMMIT it only notes its keys. -/
theorem Hw.reroute_only (h : Hw) (ks : List RouteKey) : Only (.fwd :: sendParts) Reg.isEpoch h (h.reroute ks) := by
  unfold Hw.reroute
  split
  · exact Only.fwd h _ (by simp)
  · dsimp only
    refine Only.trans ?_ (Only.foldl _ _ (fun g k => (Hw.epochNotice_only g k).mono (by simp [sendParts]) fun _ => id) _)
    exact Only.setFld (P := Reg.isEpoch) _ .epochStatus _ _ (Or.inl rfl)

theorem Only.fld {ps : List Part} {P : Reg → Prop} {a b : Hw} (h : Only ps P a b) {r : Reg} (hr : ¬ P r) (f : Fld) :
    b.fld r f = a.fld r f := by unfold Hw.fld; rw [h.regs r hr]

/-- Sending leaves EPOCH_STATUS.EPOCH. -/
theorem Hw.epochNotice_epoch (h : Hw) (k : RouteKey) :
    (h.epochNotice k).fld .epochStatus Fld.epochStatus_epoch = h.fld .epochStatus Fld.epochStatus_epoch := by
  have note : ¬ Reg.isNote .epochStatus := by rintro (h | h) <;> exact absurd h (by decide)
  unfold Hw.epochNotice
  split
  · rfl
  · dsimp only
    split
    · rw [Only.fld (Hw.count_send _ _ _ _ _) note]
      unfold Hw.fld Hw.satFld
      rw [Hw.reg_setFld_self]
      exact Fld.get_put_ne _ _ (by decide) (by decide) _ _
    · split
      · rfl
      · split
        · exact Only.fld (Hw.count_send _ _ _ _ _) note _
        · exact Only.fld ((Hw.noticeHdr_send _ _ _ _ _).trans (Hw.originate_send _ _ _ _)) note _

/-- Outside a STAGE_COMMIT a re-route raises EPOCH by one (R83). -/
theorem Hw.reroute_epoch (h : Hw) (hg : h.fwd.gathered = none) (ks : List RouteKey) :
    (h.reroute ks).fld .epochStatus Fld.epochStatus_epoch = (h.fld .epochStatus Fld.epochStatus_epoch + 1) % 2 ^ 32 := by
  unfold Hw.reroute
  rw [hg]
  dsimp only
  have key (l : List RouteKey) (g : Hw) : (l.foldl (fun h k => h.epochNotice k) g).fld .epochStatus Fld.epochStatus_epoch =
      g.fld .epochStatus Fld.epochStatus_epoch := by
    induction l generalizing g with
    | nil => rfl
    | cons k l ih => rw [List.foldl_cons, ih, Hw.epochNotice_epoch]
  rw [key]
  conv_lhs => unfold Hw.fld
  rw [Hw.reg_setFld_self]
  exact Fld.get_put_self _ (by decide) _ _

end Sys2Proof.Machine
end

