-- ==== Sys2Proof/Laws/Bridle.lean ====
section
/-! SUPPORT. What the frames and aborts of Bridles can change, and so what a change of a port's service can change. -/

namespace Sys2Proof.Machine

theorem Only.send {a b : Hw} (h : Only sendParts Reg.isNote a b) : Only (.coll :: sendParts) Reg.isNote a b :=
  h.mono (fun _ hp => List.mem_cons_of_mem _ hp) fun _ => id

theorem Hw.sendColl_send (h : Hw) (b : Bridle) (dst : Toward) (op : Nat) (s : BitVec 32) (roff : BitVec 40) (low : Nat) (replay : Bool)
    (pl : List Byte) : Only sendParts Reg.isNote h (h.sendColl b dst op s roff low replay pl) := by
  unfold Hw.sendColl
  dsimp only
  split
  · exact Only.refl _ _ _
  · exact Hw.originateOn_send _ _ _ _ _ _

theorem Hw.sendReplayReq_send (h : Hw) (b : Bridle) (dst : Toward) (s : BitVec 32) (dir cause : Nat) :
    Only sendParts Reg.isNote h (h.sendReplayReq b dst s dir cause) :=
  (Hw.sendColl_send _ _ _ _ _ _ _ _ _).trans (Hw.count_send _ _ _ _ _)

theorem Hw.sendNotice_send (h : Hw) (b : Bridle) (dst : Toward) (st : Nat) : Only sendParts Reg.isNote h (h.sendNotice b dst st) :=
  Hw.sendColl_send _ _ _ _ _ _ _ _ _

theorem Hw.bridleRec_send (h : Hw) (b : Bridle) (code sub : Nat) (s : BitVec 32) (n agree : Nat) (low : List Nat) :
    Only sendParts Reg.isNote h (h.bridleRec b code sub s n agree low) := Hw.record_send _ _

theorem Hw.setBridle_only (h : Hw) (b : Bridle) : Only (.coll :: sendParts) Reg.isNote h (h.setBridle b) :=
  ⟨fun _ _ => rfl, fun p hp => by cases p <;> first | rfl | simp at hp⟩

/-- An abort changes the Bridle's entry, and sends frames and a record. -/
theorem Hw.bridleAbort_only (h : Hw) (b : Bridle) (reason : Nat) (s : BitVec 32) (member : Nat) (except : Option Nat) :
    Only (.coll :: sendParts) Reg.isNote h (h.bridleAbort b reason s member except) := by
  unfold Hw.bridleAbort
  split
  · exact Only.refl _ _ _
  · dsimp only
    refine Only.trans ?_ (Only.foldl _ _ (fun g t => (Hw.sendColl_send g _ _ _ _ _ _ _ _).send) _)
    refine Only.trans ?_ (Hw.bridleRec_send _ _ _ _ _ _ _ _).send
    refine Only.trans ?_ (Hw.count_send _ _ _ _ _).send
    exact Hw.setBridle_only _ _

theorem Hw.bridleAbortLow_only (h : Hw) (b : Bridle) (reason member : Nat) :
    Only (.coll :: sendParts) Reg.isNote h (h.bridleAbortLow b reason member) := Hw.bridleAbort_only _ _ _ _ _ _

theorem Hw.bridlesLosePort_only (h : Hw) (n : Nat) : Only (.coll :: sendParts) Reg.isNote h (h.bridlesLosePort n) := by
  unfold Hw.bridlesLosePort
  refine Only.foldl _ _ (fun g b => ?_) _
  dsimp only
  split
  · exact Hw.bridleAbortLow_only _ _ _ _
  · exact Only.refl _ _ _

/-! ### A change of the state of ports -/

theorem Only.path {P : Reg → Prop} {a b : Hw} (h : Only (.coll :: sendParts) Reg.isNote a b) :
    Only pathParts (fun r => P r ∨ r.isEpoch) a b :=
  h.mono (by simp [pathParts, sendParts]) fun _ hr => Or.inr (Or.inr hr)

theorem Only.pathSend {P : Reg → Prop} {a b : Hw} (h : Only sendParts Reg.isNote a b) :
    Only pathParts (fun r => P r ∨ r.isEpoch) a b := h.send.path

theorem Hw.reroute_path {P : Reg → Prop} (h : Hw) (ks : List RouteKey) : Only pathParts (fun r => P r ∨ r.isEpoch) h (h.reroute ks) :=
  (Hw.reroute_only h ks).mono (by simp [pathParts, sendParts]) fun _ => Or.inr

/-- The re-route that follows a change of ports changes nothing else. -/
theorem Hw.portsChange_after {P : Reg → Prop} (h : Hw) (ns : List Nat) (f : Hw → Hw) :
    Only pathParts (fun r => P r ∨ r.isEpoch) (f h) (h.portsChange ns f) := by
  unfold Hw.portsChange
  dsimp only
  split
  · exact Only.refl _ _ _
  · exact Hw.reroute_path _ _

/-- What follows a change of ports: a re-route, and the aborts of Bridles on ports that left service. -/
theorem Hw.withPorts_after {P : Reg → Prop} (h : Hw) (ns : List Nat) (f : Hw → Hw) :
    Only pathParts (fun r => P r ∨ r.isEpoch) (f h) (h.withPorts ns f) := by
  unfold Hw.withPorts
  dsimp only
  exact (Hw.portsChange_after h ns f).trans (Only.foldl _ _ (fun g n => (Hw.bridlesLosePort_only g n).path) _)

/-- A register in which no event is noted reads after a change of ports as the change left it. -/
theorem Hw.withPorts_reg (h : Hw) (ns : List Nat) (f : Hw → Hw) {r : Reg} (hr : ¬ r.isEpoch) :
    (h.withPorts ns f).reg r = (f h).reg r :=
  (Hw.withPorts_after (P := noRegs) h ns f).regs r (by simp [noRegs, hr])

end Sys2Proof.Machine
end

