-- ==== Sys2Proof/Laws/Host.lean ====
section
/-! SUPPORT. What completions and records for the host can change. -/

namespace Sys2Proof.Machine

theorem Only.hst {ps : List Part} {P : Reg → Prop} (h : Hw) (x : Hst) (hp : Part.hst ∈ ps) : Only ps P h { h with hst := x } :=
  ⟨fun _ _ => rfl, fun p hp' => by cases p <;> first | rfl | exact absurd hp hp'⟩

theorem Only.lgt {ps : List Part} {P : Reg → Prop} (h : Hw) (x : Lgt) (hp : Part.lgt ∈ ps) : Only ps P h { h with lgt := x } :=
  ⟨fun _ _ => rfl, fun p hp' => by cases p <;> first | rfl | exact absurd hp hp'⟩

theorem Hw.setRing_host (h : Hw) (r : Nat) (x : RingSt) : Only hostParts Reg.isHostNote h (h.setRing r x) :=
  Only.hst h _ (by simp [hostParts])

theorem Hw.emit_host (h : Hw) (o : Out) : Only hostParts Reg.isHostNote h (h.emit o) := Only.emit h o (by simp [hostParts])

theorem Hw.dropDesc_host (h : Hw) (ix : Nat) : Only hostParts Reg.isHostNote h (h.dropDesc ix) := Only.hst h _ (by simp [hostParts])

theorem Hw.setStatus_host (h : Hw) (r : Nat) (f : Fld) (n : Nat) : Only hostParts Reg.isHostNote h (h.setFld (.ringStatus r) f n) :=
  Only.setFld (P := Reg.isHostNote) h _ _ _ (Or.inl rfl)

theorem Hw.msix_host (h : Hw) (v : Nat) : Only hostParts Reg.isHostNote h (h.msix v) := Hw.msix_only _ _ _

theorem Hw.cqSignal_host (h : Hw) (r : Nat) (force : Bool) : Only hostParts Reg.isHostNote h (h.cqSignal r force) := by
  unfold Hw.cqSignal
  dsimp only
  split
  · exact (Hw.setRing_host _ _ _).trans (Hw.msix_host _ _)
  · exact Only.refl _ _ _

theorem Hw.cqWrite_host (h : Hw) (r tag status result : Nat) : Only hostParts Reg.isHostNote h (h.cqWrite r tag status result) := by
  unfold Hw.cqWrite
  dsimp only
  refine Only.trans ?_ (Hw.cqSignal_host _ _ _)
  refine Only.trans ?_ (Hw.setRing_host _ _ _)
  exact (Hw.emit_host _ _).trans (Hw.setStatus_host _ _ _ _)

/-- A completion changes its ring pair, and may write to host memory and send a message. -/
theorem Hw.complete_host (h : Hw) (r tag status result : Nat) : Only hostParts Reg.isHostNote h (h.complete r tag status result) := by
  unfold Hw.complete
  split
  · exact Only.refl _ _ _
  · split
    · exact Hw.setRing_host _ _ _
    · exact Hw.cqWrite_host _ _ _ _ _

theorem Hw.finish_host (h : Hw) (d : Desc) (status result : Nat) : Only hostParts Reg.isHostNote h (h.finish d status result) :=
  (Hw.dropDesc_host _ _).trans (Hw.complete_host _ _ _ _ _)

theorem Hw.finishBuf_host (h : Hw) (d : Desc) (status : Nat) : Only hostParts Reg.isHostNote h (h.finishBuf d status) := by
  unfold Hw.finishBuf
  dsimp only
  refine Only.trans ?_ (Hw.finish_host _ _ _ _)
  split
  · exact Only.refl _ _ _
  · exact Hw.emit_host _ _

theorem Hw.recDrop_host (h : Hw) (b : List Byte) : Only hostParts Reg.isHostNote h (h.recDrop b) :=
  (Hw.count_only _ _ _ _ _ _).mono (fun _ => id) fun _ => Or.inr

/-- A record changes the record buffers of its ring, or is counted as dropped. -/
theorem Hw.toRing_host (h : Hw) (r : Nat) (b : List Byte) : Only hostParts Reg.isHostNote h (h.toRing r b) := by
  have put (h : Hw) (x : Hst) : Only hostParts Reg.isHostNote h { h with hst := x } := Only.hst h x (by simp [hostParts])
  unfold Hw.toRing
  dsimp only
  split
  · exact Hw.recDrop_host _ _
  · split
    · exact Hw.recDrop_host _ _
    · split
      · exact put _ _
      · split
        · exact Hw.recDrop_host _ _
        · split
          · split
            · exact (Hw.finishBuf_host _ _ _).trans (put _ _)
            · exact (Hw.finishBuf_host _ _ _).trans (Hw.recDrop_host _ _)
          · exact (Hw.finishBuf_host _ _ _).trans (Hw.recDrop_host _ _)

end Sys2Proof.Machine
end

