-- ==== Sys2Proof/Laws/Light.lean ====
section
/-! SUPPORT. What the loss, the return and the training of a link can change. -/

namespace Sys2Proof.Machine

/-- Everything that a change of a link's state can change. -/
def LinkOnly (h h' : Hw) : Prop := Only linkParts Reg.isLink h h'

theorem LinkOnly.refl (h : Hw) : LinkOnly h h := Only.refl _ _ h
theorem LinkOnly.trans {a b c : Hw} (h1 : LinkOnly a b) (h2 : LinkOnly b c) : LinkOnly a c := Only.trans h1 h2

theorem LinkOnly.foldl {α : Type} (l : List α) (g : Hw → α → Hw) (hg : ∀ h x, LinkOnly h (g h x)) (h : Hw) : LinkOnly h (l.foldl g h) :=
  Only.foldl l g hg h

theorem LinkOnly.of_send {a b : Hw} (h : Only sendParts Reg.isNote a b) : LinkOnly a b :=
  h.mono (by simp [linkParts, pathParts, sendParts]) fun _ hr => Or.inr (Or.inr (Or.inr hr))

theorem LinkOnly.of_coll {a b : Hw} (h : Only (.coll :: sendParts) Reg.isNote a b) : LinkOnly a b :=
  h.mono (by simp [linkParts, pathParts, sendParts]) fun _ hr => Or.inr (Or.inr (Or.inr hr))

theorem LinkOnly.of_host {a b : Hw} (h : Only hostParts Reg.isHostNote a b) : LinkOnly a b :=
  h.mono (by simp [linkParts, hostParts]) fun _ hr => by
    rcases hr with hr | hr
    · exact Or.inr (Or.inl hr)
    · exact Or.inr (Or.inr (Or.inr (Or.inl hr)))

theorem LinkOnly.of_ic {a b : Hw} (h : Only [.mgt] (fun r => r.isIcSrc = true) a b) : LinkOnly a b :=
  h.mono (by simp [linkParts, pathParts, sendParts]) fun _ hr => Or.inr (Or.inr (Or.inr (Or.inr hr)))

theorem LinkOnly.of_event {a b : Hw} (h : Only [.hst, .out] (fun r => r = .hostIrqSts) a b) : LinkOnly a b :=
  h.mono (by simp [linkParts]) fun _ hr => Or.inl (by rw [hr]; rfl)

theorem LinkOnly.setFld (h : Hw) (r : Reg) (f : Fld) (n : Nat) (hr : r.isPort = true) : LinkOnly h (h.setFld r f n) :=
  Only.setFld (P := Reg.isLink) h r f n (Or.inl hr)

theorem LinkOnly.setLink (h : Hw) (n : Nat) (l : Link) : LinkOnly h (h.setLink n l) := Only.lgt h _ (by simp [linkParts])

theorem LinkOnly.reroute (h : Hw) (ks : List RouteKey) : LinkOnly h (h.reroute ks) :=
  (Hw.reroute_only h ks).mono (by simp [linkParts, pathParts, sendParts]) fun _ hr => Or.inr (Or.inr hr)

theorem LinkOnly.withPorts (h : Hw) (ns : List Nat) (f : Hw → Hw) (hf : LinkOnly h (f h)) : LinkOnly h (h.withPorts ns f) := by
  refine hf.trans ?_
  exact (Hw.withPorts_after (P := noRegs) h ns f).mono (by simp +contextual [linkParts]) fun r hr => by
    rcases hr with hr | hr
    · exact absurd hr id
    · exact Or.inr (Or.inr hr)

theorem Hw.setLinkState_link (h : Hw) (n st : Nat) : LinkOnly h (h.setLinkState n st) := by
  unfold Hw.setLinkState
  split
  · exact LinkOnly.refl _
  · exact ((LinkOnly.setFld _ _ _ _ rfl).trans (.of_event (Hw.hostEvent_only _ _))).trans (.of_ic (Hw.icEvent_only _ _))

theorem Hw.setMasks_link (h : Hw) (n tx rx : Nat) : LinkOnly h (h.setMasks n tx rx) :=
  (LinkOnly.setFld _ _ _ _ rfl).trans (LinkOnly.setFld _ _ _ _ rfl)

theorem Hw.frameOut_link (h : Hw) (p : Nat) (pre : Option (BitVec 56)) (f : Frame) : LinkOnly h (h.frameOut p pre f) :=
  ((LinkOnly.of_host (Hw.emit_host _ _)).trans (.of_send (Hw.count_send _ _ _ _ _))).trans (.of_send (Hw.count_send _ _ _ _ _))

theorem Hw.preambleSent_link (h : Hw) (p : Nat) (ctrl : Bool) : LinkOnly h (h.preambleSent p ctrl) := by
  have n : LinkOnly h (h.nakSent p) := by
    unfold Hw.nakSent
    split
    · exact LinkOnly.setLink _ _ _
    · exact LinkOnly.refl _
  unfold Hw.preambleSent
  dsimp only
  split
  · exact n
  · exact n.trans (LinkOnly.setLink _ _ _)

/-- What a mirror session does with a frame: its count, and a record for the host or for the cores. -/
theorem Hw.mirrorOne_link (h : Hw) (m n dir t : Nat) (f : Frame) : LinkOnly h (h.mirrorOne m n dir t f) := by
  have cnt (v : List (Nat × Nat)) : LinkOnly h { h with fwd := { h.fwd with mirror := v } } :=
    Only.fwd h _ (by simp [linkParts, pathParts])
  unfold Hw.mirrorOne
  extract_lets r every k w g b ring g'
  have hg : LinkOnly h g := cnt _
  have hg' : LinkOnly h g' := by
    show LinkOnly h (if g.ringTakes ring b.length then g else g.count (portDie n) 0x027 m 1)
    split
    · exact hg
    · exact hg.trans (.of_send (Hw.count_send _ _ _ _ _))
  split
  · exact LinkOnly.refl _
  · split
    · exact hg
    · split
      · exact hg'.trans (.of_host (Hw.toRing_host _ _ _))
      · exact hg.trans (.of_host (Hw.emit_host _ _))

theorem Hw.mirrors_link (h : Hw) (n dir t : Nat) (f : Frame) : LinkOnly h (h.mirrors n dir t f) :=
  LinkOnly.foldl _ _ (fun g m => Hw.mirrorOne_link g m n dir t f) h

theorem Hw.sendLinkState_link (h : Hw) (n : Nat) : LinkOnly h (h.sendLinkState n) := by
  unfold Hw.sendLinkState
  split
  · exact LinkOnly.refl _
  · dsimp only
    refine LinkOnly.trans ?_ (Hw.mirrors_link _ _ _ _ _)
    refine LinkOnly.trans ?_ (LinkOnly.setLink _ _ _)
    exact (Hw.frameOut_link _ _ _ _).trans (Hw.preambleSent_link _ _ _)

theorem Hw.reloadLanes_link (h : Hw) (v : Nv) (ns : List Nat) : LinkOnly h (h.reloadLanes v ns) := by
  unfold Hw.reloadLanes
  exact (Only.lgt h _ (by simp [linkParts])).trans (LinkOnly.foldl _ _ (fun g n => .of_send (Hw.record_send _ _)) _)

theorem Hw.startTraining_link (h : Hw) (v : Nv) (n : Nat) (fast : Bool) : LinkOnly h (h.startTraining v n fast) := by
  have r : LinkOnly h (if fast then h.reloadLanes v (h.lanesOf n) else h) := by
    split
    · exact Hw.reloadLanes_link _ _ _
    · exact LinkOnly.refl _
  unfold Hw.startTraining
  extract_lets h1 ok told h2 h3 h4 w h5
  have b : LinkOnly h h5 := by
    refine LinkOnly.trans ?_ (LinkOnly.setLink _ _ _)
    refine LinkOnly.trans ?_ (LinkOnly.setFld _ _ _ _ rfl)
    refine LinkOnly.trans ?_ (Hw.setMasks_link _ _ _ _)
    refine LinkOnly.trans ?_ (Hw.setLinkState_link _ _ _)
    exact LinkOnly.trans r (.of_send (Hw.count_send _ _ _ _ _))
  split
  · exact b.trans (Hw.sendLinkState_link _ _)
  · exact b

theorem Hw.clearRetry_link (h : Hw) (n : Nat) : LinkOnly h (h.clearRetry n) :=
  (LinkOnly.setLink _ _ _).trans (LinkOnly.setFld _ _ _ _ rfl)

theorem Hw.circuitLost_link (h : Hw) (n : Nat) : LinkOnly h (h.circuitLost n) := by
  unfold Hw.circuitLost
  split
  · exact LinkOnly.refl _
  · next i _ =>
    dsimp only
    split
    · have e (h : Hw) : LinkOnly h (((h.setFld (.circuitCtl i) Fld.circuitCtl_state 5).hostEvent 5).icEvent 84) :=
        ((LinkOnly.setFld _ _ _ _ rfl).trans (.of_event (Hw.hostEvent_only _ _))).trans (.of_ic (Hw.icEvent_only _ _))
      split
      · exact (e h).trans (LinkOnly.reroute _ _)
      · exact e h
    · exact LinkOnly.refl _

/-! ### Frames toward a lost port (R102) -/

theorem Hw.sampleEnd_link (h : Hw) (x : Sampled) (o d : Nat) : LinkOnly h (h.sampleEnd x o d) := by
  unfold Hw.sampleEnd
  dsimp only
  split
  · exact .of_host (Hw.toRing_host _ _ _)
  · exact .of_host (Hw.emit_host _ _)

theorem Hw.sampleHeld_link (h : Hw) (x : Held) (out : Option Nat) (o d : Nat) : LinkOnly h (h.sampleHeld x out o d) := by
  unfold Hw.sampleHeld
  split
  · exact Hw.sampleEnd_link _ _ _ _
  · exact LinkOnly.refl _

/-- The record of one copy, if it carries the tag. -/
theorem Hw.sampleCopy_link (h : Hw) (x : Held) (n o : Nat) : LinkOnly h (h.sampleCopy x n o) := by
  unfold Hw.sampleCopy
  split
  · split
    · exact (Hw.sampleHeld_link _ _ _ _ _).trans (.of_send (Hw.mapHeld_send _ _ _))
    · exact LinkOnly.refl _
  · exact LinkOnly.refl _

theorem Hw.onEmpty_send (h : Hw) (n t : Nat) : Only sendParts Reg.isNote h (h.onEmpty n t) := by
  unfold Hw.onEmpty
  split
  · exact Only.refl _ _ _
  · exact Hw.setSched_send _ _ _

theorem Hw.sweepHeld_send (h : Hw) (id : Nat) : Only sendParts Reg.isNote h (h.sweepHeld id) := Only.buf h _ (by simp [sendParts])

theorem Hw.dropCopies_send (h : Hw) (id : Nat) (p : Sys2Proof.Machine.Copy → Bool) : Only sendParts Reg.isNote h (h.dropCopies id p) := by
  unfold Hw.dropCopies
  split
  · exact Only.refl _ _ _
  · dsimp only
    refine Only.trans ?_ (Only.foldl _ _ (fun g c => Hw.onEmpty_send g _ _) _)
    exact (Hw.mapHeld_send _ _ _).trans (Hw.sweepHeld_send _ _)

theorem Hw.dropFrame_send (h : Hw) (id : Nat) : Only sendParts Reg.isNote h (h.dropFrame id) := Hw.dropCopies_send _ _ _

theorem Hw.exhausted_link (h : Hw) (x : Held) : LinkOnly h (h.exhausted x) := by
  unfold Hw.exhausted
  refine LinkOnly.trans ?_ (.of_send (Hw.notice_send _ _ _ _ _))
  refine LinkOnly.trans ?_ (.of_send (Hw.dropFrame_send _ _))
  exact (LinkOnly.of_send (Hw.count_send _ _ _ _ _)).trans (Hw.sampleHeld_link _ _ _ _ _)

theorem Hw.bpNotice_send (h : Hw) (x : Held) (n t : Nat) : Only sendParts Reg.isNote h (h.bpNotice x n t) := by
  unfold Hw.bpNotice
  dsimp only
  split
  · exact Only.refl _ _ _
  · exact Hw.notice_send _ _ _ _ _

/-- A frame that enters a queue changes frames, schedulers and notices only. -/
theorem Hw.enterQueue_send (h : Hw) (x : Held) (ports : List Nat) (spot : Spot) : Only sendParts Reg.isNote h (h.enterQueue x ports spot) := by
  unfold Hw.enterQueue
  dsimp only
  refine Only.trans ?_ (Only.foldl _ _ (fun g n => ?_) _)
  · exact (Hw.joinAll_send _ _ _ _ _).trans (Hw.mapHeld_send _ _ _)
  · exact (Hw.noteSource_send _ _ _ _ _).trans (Hw.bpNotice_send _ _ _ _)

theorem Hw.enterAt_send (h : Hw) (x : Held) (n : Nat) : Only sendParts Reg.isNote h (h.enterAt x n) := by
  unfold Hw.enterAt
  split
  · exact Hw.enterQueue_send _ _ _ _
  · dsimp only
    refine Only.trans ?_ (Hw.enterQueue_send _ _ _ _)
    refine Only.trans ?_ (Hw.mapHeld_send _ _ _)
    split
    · exact Only.refl _ _ _
    · exact (Hw.spillMoved_send _ _ _).trans (Hw.count_send _ _ _ _ _)

theorem Hw.zoneSpar_send (h : Hw) (q : Nat) (dst : Node) : Only sendParts Reg.isNote h (h.zoneSpar q dst).2 := by
  unfold Hw.zoneSpar
  dsimp only
  split
  · exact Hw.parityMiss_send _ _ _
  · exact Only.refl _ _ _

theorem Hw.routeRoom_send (h : Hw) (x : Held) (chosen : Nat) : Only sendParts Reg.isNote h (h.routeRoom x chosen).2 := by
  unfold Hw.routeRoom
  split
  · dsimp only
    exact Hw.sparParity_send _ _ _
  · exact Only.refl _ _ _

theorem Hw.zoneRoom_send (h : Hw) (x : Held) (dst : Node) (chosen : Nat) :
    Only sendParts Reg.isNote h (h.zoneRoom x dst chosen).2 := by
  unfold Hw.zoneRoom
  split
  · next s g e =>
    have z := Hw.zoneSpar_send h x.die dst
    rw [e] at z
    dsimp only at z ⊢
    exact Only.trans z (Hw.sparParity_send g x.die s)
  · next g e =>
    have z := Hw.zoneSpar_send h x.die dst
    rw [e] at z
    exact z

theorem Hw.deflectPort_send (h : Hw) (x : Held) (dst : Node) (chosen : Nat) :
    Only sendParts Reg.isNote h (h.deflectPort x dst chosen).2 := by
  unfold Hw.deflectPort
  split
  · next n g e =>
    have z := Hw.routeRoom_send h x chosen
    rw [e] at z
    exact z
  · next g e =>
    have z := Hw.routeRoom_send h x chosen
    rw [e] at z
    exact Only.trans z (Hw.zoneRoom_send g x dst chosen)

theorem Hw.findsFull_link (h : Hw) (x : Held) (chosen : Nat) : LinkOnly h (h.findsFull x chosen) := by
  unfold Hw.findsFull
  split
  · exact LinkOnly.refl _
  · next d _ =>
    split
    · exact LinkOnly.refl _
    · split
      · exact Hw.exhausted_link _ _
      · have p := Hw.deflectPort_send h x d.dst chosen
        generalize h.deflectPort x d.dst chosen = r at p ⊢
        rcases r with ⟨_ | n, g⟩
        · exact .of_send p
        · dsimp only
          refine LinkOnly.trans (.of_send p) ?_
          refine LinkOnly.trans ?_ (.of_send (Hw.onEmpty_send _ _ _))
          refine LinkOnly.trans ?_ (.of_send (Hw.enterAt_send _ _ _))
          exact .of_send ((Hw.count_send _ _ _ _ _).trans (Hw.mapHeld_send _ _ _))

theorem Hw.linkLossDiscard_link (h : Hw) (x : Held) (c : Sys2Proof.Machine.Copy) : LinkOnly h (h.linkLossDiscard x c) := by
  unfold Hw.linkLossDiscard
  dsimp only
  refine LinkOnly.trans ?_ (Hw.sampleCopy_link _ _ _ _)
  split
  · exact (LinkOnly.of_send (Hw.count_send _ _ _ _ _)).trans (.of_host (Hw.emit_host _ _))
  · exact .of_send (Hw.count_send _ _ _ _ _)

theorem Hw.linkLoss_link (h : Hw) (n : Nat) : LinkOnly h (h.linkLoss n) := by
  unfold Hw.linkLoss
  refine LinkOnly.foldl _ _ (fun g x => ?_) _
  split
  · exact LinkOnly.refl _
  · split
    · exact (Hw.linkLossDiscard_link _ _ _).trans (.of_send (Hw.dropCopies_send _ _ _))
    · split
      · exact Hw.findsFull_link _ _ _
      · exact LinkOnly.refl _

/-! ### Link states (R229) -/

/-- A port leaves UP by `f`, and what follows. -/
theorem Hw.leaveUp_link (h : Hw) (n : Nat) (f : Hw → Hw) (hf : LinkOnly h (f h)) : LinkOnly h (h.leaveUp n f) := by
  unfold Hw.leaveUp
  split
  · exact ((LinkOnly.withPorts h _ f hf).trans (Hw.circuitLost_link _ _)).trans (Hw.linkLoss_link _ _)
  · exact hf

theorem Hw.toLost_link (h : Hw) (n : Nat) (dark : Bool) : LinkOnly h (h.toLost n dark) := by
  unfold Hw.toLost
  split
  · exact LinkOnly.refl _
  · dsimp only
    refine LinkOnly.trans ?_ (Hw.sendLinkState_link _ _)
    refine LinkOnly.trans ?_ (.of_send (Hw.count_send _ _ _ _ _))
    refine Hw.leaveUp_link _ _ _ ?_
    split
    · exact (((LinkOnly.setLink _ _ _).trans (Hw.setLinkState_link _ _ _)).trans (LinkOnly.setFld _ _ _ _ rfl)).trans
        (LinkOnly.setFld _ _ _ _ rfl)
    · exact ((LinkOnly.setLink _ _ _).trans (Hw.setLinkState_link _ _ _)).trans (LinkOnly.setFld _ _ _ _ rfl)

theorem Hw.toDown_link (h : Hw) (n : Nat) : LinkOnly h (h.toDown n) := by
  have d : LinkOnly h (h.leaveUp n fun h => ((h.clearRetry n).setMasks n 0 0).setLinkState n 5) :=
    Hw.leaveUp_link _ _ _ (((Hw.clearRetry_link _ _).trans (Hw.setMasks_link _ _ _ _)).trans (Hw.setLinkState_link _ _ _))
  unfold Hw.toDown
  dsimp only
  split
  · exact d.trans (Hw.sendLinkState_link _ _)
  · exact d

theorem Hw.toDark_link (h : Hw) (n : Nat) : LinkOnly h (h.toDark n) := by
  unfold Hw.toDark
  refine Hw.leaveUp_link _ _ _ ?_
  dsimp only
  refine LinkOnly.trans ?_ (LinkOnly.setLink _ _ _)
  refine LinkOnly.trans ?_ (LinkOnly.setFld _ _ _ _ rfl)
  exact ((Hw.clearRetry_link _ _).trans (Hw.setMasks_link _ _ _ _)).trans (Hw.setLinkState_link _ _ _)

theorem Hw.retryLoss_send (h : Hw) (p n : Nat) : Only sendParts Reg.isNote h (h.retryLoss p n) := by
  unfold Hw.retryLoss
  split
  · exact Only.refl _ _ _
  · exact (Hw.count_send _ _ _ _ _).trans (Hw.record_send _ _)

theorem Hw.resumeRetry_link (h : Hw) (n : Nat) : LinkOnly h (h.resumeRetry n) := by
  unfold Hw.resumeRetry
  dsimp only
  split
  · split
    · exact (LinkOnly.setLink _ _ _).trans (LinkOnly.setFld _ _ _ _ rfl)
    · exact (LinkOnly.of_send (Hw.retryLoss_send _ _ _)).trans (Hw.clearRetry_link _ _)
  · exact (LinkOnly.of_send (Hw.retryLoss_send _ _ _)).trans (Hw.clearRetry_link _ _)

theorem Hw.overbook_link (h : Hw) (n : Nat) : LinkOnly h (h.overbook n) := LinkOnly.setFld _ _ _ _ rfl

theorem Hw.circuitUp_link (h : Hw) (n : Nat) : LinkOnly h (h.circuitUp n) := by
  unfold Hw.circuitUp
  split
  · exact LinkOnly.refl _
  · dsimp only
    split
    · refine LinkOnly.trans ?_ (LinkOnly.reroute _ _)
      refine LinkOnly.trans ?_ (.of_send (Hw.ventNotice_send _ _ _ _))
      exact (LinkOnly.setFld _ _ _ _ rfl).trans (LinkOnly.setFld _ _ _ _ rfl)
    · exact LinkOnly.refl _

theorem Hw.enterUp_link (h : Hw) (n : Nat) : LinkOnly h (h.enterUp n) := by
  unfold Hw.enterUp
  extract_lets q h1 h2
  have b1 : LinkOnly h h1 := by
    refine LinkOnly.withPorts h [n] _ ?_
    extract_lets l g1 g2 g3
    refine LinkOnly.trans ?_ (Hw.setLinkState_link _ _ 3)
    refine LinkOnly.trans ?_ (LinkOnly.setLink g3 _ _)
    refine LinkOnly.trans ?_ (LinkOnly.setFld (g2.resumeRetry n) _ _ _ rfl)
    refine LinkOnly.trans ?_ (Hw.resumeRetry_link g2 _)
    exact (LinkOnly.setFld h _ _ _ rfl).trans (Hw.setMasks_link g1 _ _ _)
  have b2 : LinkOnly h h2 :=
    ((b1.trans (Hw.sendLinkState_link h1 n)).trans (Hw.overbook_link _ n)).trans (Hw.circuitUp_link _ n)
  split
  · exact b2
  · exact b2.trans (.of_send (Hw.ventNotice_send _ _ _ _))

end Sys2Proof.Machine
end

