-- ==== Sys2Proof/Laws/Mem.lean ====
section
/-! SUPPORT. The exported memory keeps its canonical form, and a byte reads as it was last written. -/

namespace Sys2Proof.Machine

/-- Every cell of the list lies at or above `a`. -/
def cellsAbove (a : Nat) (l : List Host.Cell) : Prop := ∀ c ∈ l, a ≤ c.1

theorem cellsWf_cons (c : Host.Cell) (l : List Host.Cell) :
    cellsWf (c :: l) = true ↔ c.2 ≠ Mem.unlisted ∧ cellsAbove (c.1 + 1) l ∧ cellsWf l = true := by
  induction l generalizing c with
  | nil => simp [cellsWf, cellsAbove]
  | cons d l ih =>
    simp only [cellsWf, Bool.and_eq_true, decide_eq_true_eq]
    constructor
    · rintro ⟨⟨h1, h2⟩, h3⟩
      refine ⟨h1, ?_, h3⟩
      have h4 := ((ih d).1 h3).2.1
      intro x hx
      rcases List.mem_cons.1 hx with rfl | hx
      · omega
      · have := h4 x hx; omega
    · rintro ⟨h1, h2, h3⟩
      exact ⟨⟨h1, by have := h2 d (by simp); omega⟩, h3⟩

theorem cellsRead_above {a b : Nat} (l : List Host.Cell) (h : cellsAbove b l) (hab : a < b) : cellsRead l a = Mem.unlisted := by
  induction l with
  | nil => rfl
  | cons c l ih =>
    have h1 := h c (by simp)
    have : ¬ c.1 = a := by omega
    simp only [cellsRead, this, if_false]
    exact ih fun x hx => h x (by simp [hx])

theorem cellsWrite_above {a k : Nat} (l : List Host.Cell) (b : Byte) (h : cellsAbove a l) (hk : a ≤ k) : cellsAbove a (cellsWrite l k b) := by
  induction l with
  | nil =>
    unfold cellsWrite
    split
    · exact h
    · intro x hx; rw [List.mem_singleton.1 hx]; exact hk
  | cons c l ih =>
    have hl : cellsAbove a l := fun x hx => h x (by simp [hx])
    unfold cellsWrite
    split
    · split
      · exact h
      · intro x hx
        rcases List.mem_cons.1 hx with rfl | hx
        · exact hk
        · exact h x hx
    · split
      · split
        · exact hl
        · intro x hx
          rcases List.mem_cons.1 hx with rfl | hx
          · exact hk
          · exact hl x hx
      · intro x hx
        rcases List.mem_cons.1 hx with rfl | hx
        · exact h _ (by simp)
        · exact ih hl x hx

/-- A write of one byte keeps the canonical form. -/
theorem cellsWrite_wf (l : List Host.Cell) (a : Nat) (b : Byte) (h : cellsWf l = true) : cellsWf (cellsWrite l a b) = true := by
  induction l with
  | nil =>
    unfold cellsWrite
    split
    · rfl
    · next hb => simpa [cellsWf] using hb
  | cons c l ih =>
    have hc := (cellsWf_cons c l).1 h
    unfold cellsWrite
    split
    · next hlt =>
      split
      · exact h
      · next hb =>
        refine (cellsWf_cons _ _).2 ⟨hb, ?_, h⟩
        intro x hx
        rcases List.mem_cons.1 hx with rfl | hx
        · exact hlt
        · have := hc.2.1 x hx
          show a + 1 ≤ x.1
          omega
    · next hge =>
      split
      · next he =>
        split
        · exact hc.2.2
        · next hb => exact (cellsWf_cons _ _).2 ⟨hb, by rw [he]; exact hc.2.1, hc.2.2⟩
      · next hne => exact (cellsWf_cons _ _).2 ⟨hc.1, cellsWrite_above l b hc.2.1 (by omega), ih hc.2.2⟩

/-- A byte reads as it was written. -/
theorem cellsRead_write_self (l : List Host.Cell) (a : Nat) (b : Byte) (h : cellsWf l = true) : cellsRead (cellsWrite l a b) a = b := by
  induction l with
  | nil =>
    unfold cellsWrite
    split
    · next hb => simp [cellsRead, hb]
    · simp [cellsRead]
  | cons c l ih =>
    have hc := (cellsWf_cons c l).1 h
    unfold cellsWrite
    split
    · next hlt =>
      split
      · next hb =>
        rw [hb]
        exact cellsRead_above (b := a + 1) _ (fun x hx => by
          rcases List.mem_cons.1 hx with rfl | hx
          · exact hlt
          · have := hc.2.1 x hx; omega) (by omega)
      · simp [cellsRead]
    · next hge =>
      split
      · next he =>
        split
        · next hb => rw [hb, he]; exact cellsRead_above l hc.2.1 (by omega)
        · simp [cellsRead]
      · next hne =>
        have : ¬ c.1 = a := fun e => hne e.symm
        simp only [cellsRead, this, if_false]
        exact ih hc.2.2

/-- Every other byte reads as before. -/
theorem cellsRead_write_ne (l : List Host.Cell) {a x : Nat} (b : Byte) (hx : x ≠ a) : cellsRead (cellsWrite l a b) x = cellsRead l x := by
  have hax : ¬ a = x := fun e => hx e.symm
  induction l with
  | nil =>
    unfold cellsWrite
    split
    · rfl
    · simp [cellsRead, hax]
  | cons c l ih =>
    unfold cellsWrite
    split
    · split
      · rfl
      · simp [cellsRead, hax]
    · split
      · next he =>
        have hc : ¬ c.1 = x := by omega
        split
        · simp [cellsRead, hc]
        · simp [cellsRead, hax, hc]
      · simp only [cellsRead]
        rw [ih]

theorem Mem.write_wf (m : Mem) (a : Nat) (b : Byte) (h : m.wf = true) : (m.write a b).wf = true := cellsWrite_wf _ _ _ h
theorem Mem.read_write_self (m : Mem) (a : Nat) (b : Byte) (h : m.wf = true) : (m.write a b).read a = b := cellsRead_write_self _ _ _ h
theorem Mem.read_write_ne (m : Mem) {a x : Nat} (b : Byte) (hx : x ≠ a) : (m.write a b).read x = m.read x := cellsRead_write_ne _ _ hx

theorem Mem.writeBytes_wf (m : Mem) (a : Nat) (l : List Byte) (h : m.wf = true) : (m.writeBytes a l).wf = true := by
  induction l generalizing m a with
  | nil => exact h
  | cons b l ih => exact ih _ _ (Mem.write_wf m a b h)

/-- Bytes outside the written range stand. -/
theorem Mem.read_writeBytes_out (m : Mem) (a : Nat) (l : List Byte) {x : Nat} (hx : x < a ∨ a + l.length ≤ x) :
    (m.writeBytes a l).read x = m.read x := by
  induction l generalizing m a with
  | nil => rfl
  | cons b l ih =>
    simp only [List.length_cons] at hx
    unfold Mem.writeBytes
    rw [ih _ _ (by omega), Mem.read_write_ne _ _ (by omega)]

/-- Bytes inside the written range read as written. -/
theorem Mem.read_writeBytes_in (m : Mem) (a : Nat) (l : List Byte) (h : m.wf = true) (i : Nat) (hi : i < l.length) :
    (m.writeBytes a l).read (a + i) = l[i] := by
  induction l generalizing m a i with
  | nil => simp at hi
  | cons b l ih =>
    unfold Mem.writeBytes
    cases i with
    | zero =>
      rw [Mem.read_writeBytes_out _ _ _ (by omega)]
      exact Mem.read_write_self m a b h
    | succ i =>
      have := ih (m.write a b) (a + 1) (Mem.write_wf m a b h) i (by simpa using hi)
      rw [show a + (i + 1) = a + 1 + i by omega, this]
      rfl

theorem Mem.store_wf (m : Mem) (a : Nat) (l : List Byte) (h : m.wf = true) : (m.store a l).wf = true := Mem.writeBytes_wf m a l h
theorem Mem.read_store_out (m : Mem) (a : Nat) (l : List Byte) {x : Nat} (hx : x < a ∨ a + l.length ≤ x) :
    (m.store a l).read x = m.read x := Mem.read_writeBytes_out m a l hx
theorem Mem.read_store_in (m : Mem) (a : Nat) (l : List Byte) (h : m.wf = true) (i : Nat) (hi : i < l.length) :
    (m.store a l).read (a + i) = l[i] := Mem.read_writeBytes_in m a l h i hi

theorem cellsAbove_filter (a : Nat) (l : List Host.Cell) (p : Host.Cell → Bool) (h : cellsAbove a l) : cellsAbove a (l.filter p) :=
  fun x hx => h x (List.mem_filter.1 hx).1

theorem cellsWf_filter (l : List Host.Cell) (p : Host.Cell → Bool) (h : cellsWf l = true) : cellsWf (l.filter p) = true := by
  induction l with
  | nil => rfl
  | cons c l ih =>
    have hc := (cellsWf_cons c l).1 h
    by_cases hp : p c = true
    · rw [List.filter_cons_of_pos hp]
      exact (cellsWf_cons _ _).2 ⟨hc.1, cellsAbove_filter _ _ _ hc.2.1, ih hc.2.2⟩
    · rw [List.filter_cons_of_neg hp]
      exact ih hc.2.2

/-- Wiping what lies outside a set of addresses keeps the canonical form. -/
theorem Mem.keep_wf (m : Mem) (p : Nat → Bool) (h : m.wf = true) : (m.keep p).wf = true := cellsWf_filter _ _ h
theorem Mem.wipe_wf (m : Mem) (a n : Nat) (h : m.wf = true) : (m.wipe a n).wf = true := Mem.keep_wf _ _ h

/-- A kept byte reads as before, a wiped byte as what an unlisted address reads as. -/
theorem Mem.read_keep (m : Mem) (p : Nat → Bool) (x : Nat) : (m.keep p).read x = if p x then m.read x else Mem.unlisted := by
  unfold Mem.keep Mem.read
  show cellsRead (m.cells.filter fun c => p c.1) x = _
  induction m.cells with
  | nil => simp [cellsRead]
  | cons c l ih =>
    by_cases hc : c.1 = x
    · by_cases hp : p x = true
      · rw [List.filter_cons_of_pos (by simp [hc, hp])]
        simp [cellsRead, hc, hp]
      · rw [List.filter_cons_of_neg (by simp [hc, hp]), ih]
        simp [hp]
    · by_cases hp : p c.1 = true
      · rw [List.filter_cons_of_pos (by simpa using hp)]
        simp only [cellsRead, hc, if_false]
        exact ih
      · rw [List.filter_cons_of_neg (by simpa using hp), ih]
        simp [cellsRead, hc]

/-- The memory right after reset has the canonical form. -/
theorem Mem.reset_wf : State.reset.mem.wf = true := by decide

end Sys2Proof.Machine
end

