-- ==== Sys2Proof/Laws/Reset.lean ====
section
/-! SUPPORT. What a reset leaves in the registers. -/

namespace Sys2Proof.Machine

theorem RegMap.get_cons_self (m : RegMap) (r : Reg) (v : W64) : RegMap.get ((r, v) :: m) r = v := by
  simp [RegMap.get, RegMap.find]

theorem RegMap.get_cons_ne (m : RegMap) {k r : Reg} (h : k ≠ r) (v : W64) : RegMap.get ((k, v) :: m) r = RegMap.get m r := by
  simp [RegMap.get, RegMap.find, h]

theorem W64.clear_reset (v m : W64) : ((v &&& ~~~m) ||| (v &&& m)) = v := by
  ext i
  simp only [BitVec.getElem_or, BitVec.getElem_and, BitVec.getElem_not]
  cases v[i] <;> cases m[i] <;> rfl

/-- After a clearing, the bits of the mask are at their Reset value, and the others stand. -/
theorem RegMap.get_cleared (m : RegMap) (mask : Reg → W64) (r : Reg) :
    (m.cleared mask).get r = (m.get r &&& ~~~mask r) ||| (r.reset &&& mask r) := by
  induction m with
  | nil => exact (W64.clear_reset _ _).symm
  | cons x m ih =>
    obtain ⟨k, v⟩ := x
    show ((RegMap.cleared m mask).set k ((v &&& ~~~mask k) ||| (k.reset &&& mask k))).get r = _
    by_cases h : k = r
    · subst h
      rw [RegMap.get_set_self, RegMap.get_cons_self]
    · rw [RegMap.get_set_ne _ (Ne.symm h), RegMap.get_cons_ne _ h, ih]

/-- Registers that a filter by name keeps read as before. -/
theorem RegMap.get_filter (m : RegMap) (p : Reg → Bool) {r : Reg} (h : p r = true) :
    RegMap.get (m.filter fun x => p x.1) r = m.get r := by
  induction m with
  | nil => rfl
  | cons x m ih =>
    obtain ⟨k, v⟩ := x
    by_cases hk : k = r
    · subst hk
      rw [List.filter_cons_of_pos (by exact h), RegMap.get_cons_self, RegMap.get_cons_self]
    · rw [RegMap.get_cons_ne _ hk]
      by_cases hp : p k = true
      · rw [List.filter_cons_of_pos (by exact hp), RegMap.get_cons_ne _ hk, ih]
      · rw [List.filter_cons_of_neg (by exact hp), ih]

end Sys2Proof.Machine
end

