-- ==== Sys2Proof/WellFormed.lean ====
section
/-! DEFINITION. When the operands of a command can occur: what the types of Syntax.lean leave open. -/

namespace Sys2Proof

/-- A register access is aligned to the bytes it reaches (R7): the address names the register, so it is a multiple of 8. -/
def Instr.alignedWf (addr : BitVec 26) : Bool := decide (addr.toNat % 8 = 0)

/-- An access that R7 turns away: of a size other than 4 or 8 bytes, or not naturally aligned. -/
def Instr.badSizeWf (addr : BitVec 26) (size : Nat) : Bool :=
  decide (size ≠ 0) && ((decide (size ≠ 4) && decide (size ≠ 8)) || decide (addr.toNat % size ≠ 0))

/-- A doorbell that R254 turns away. -/
def Instr.badDoorbellWf (off : BitVec 20) (size : Nat) : Bool :=
  decide (size ≠ 8) || (decide (off.toNat % 4096 ≠ 0) && decide (off.toNat % 4096 ≠ 8))

/-- A descriptor is 64 bytes (R261). -/
def Instr.descWf (d : Fetched) : Bool := match d with | .bytes l => decide (l.length = 64) | .failed | .hubUe => true

/-- A command whose operands can occur. -/
def Instr.wf : Instr → Bool
  | .registerWrite _ a _ _ => alignedWf a.off
  | .rcRegisterRead _ a _ => alignedWf a.off
  | .badSizeAccess _ _ a n => badSizeWf a n
  | .badDoorbell off n => badDoorbellWf off n
  | .descriptorFetch _ d => descWf d
  | .recommissionOctet _ _ _ recs => decide (recs.length = 8)
  | .i3cWindowRefresh tj ts _ => decide (tj.length = 9) && decide (ts.length = 12)
  | .bootVerificationComplete (some h) => decide (h.hdrDigest.length = 64) && decide (h.packDigest.length = 64)
  | .floorCellReceive a b _ => decide (a ≠ b)
  | .managementTick t => decide ((t.levels.map (·.1)).Nodup)
  | _ => true

end Sys2Proof
end

