-- ==== Sys2Proof/Tests/Slice0.lean ====
section
/-! SUPPORT. Tests of the model: ill-formed commands that the checks refuse, small runs of single commands, and for each statement
a state and operands that meet its hypotheses. -/

namespace Sys2Proof.Tests
open Machine

/-! ### Well-formedness -/

theorem test_wf_misaligned_write : (Instr.registerWrite .host ⟨.bar0, 0x204#26⟩ .full 0).wf = false := by decide
theorem test_wf_misaligned_read : (Instr.rcRegisterRead .host ⟨.bar0, 0x204#26⟩ .full).wf = false := by decide
theorem test_wf_good_size : (Instr.badSizeAccess false false 0x200#26 8).wf = false := by decide
theorem test_wf_good_doorbell : (Instr.badDoorbell 0x1008#20 8).wf = false := by decide
theorem test_wf_short_descriptor : (Instr.descriptorFetch 5 (.bytes [1])).wf = false := by decide
theorem test_wf_recs : (Instr.recommissionOctet 0 0 true []).wf = false := by decide
theorem test_wf_i3c : (Instr.i3cWindowRefresh [] [] 0).wf = false := by decide
theorem test_wf_floor : (Instr.floorCellReceive 1 1 false).wf = false := by decide
theorem test_wf_levels : (Instr.managementTick ⟨[(1, 5), (1, 6)], Four.all 0, Four.all 0, Four.all (true, true)⟩).wf = false := by decide
theorem test_wf_image : (Instr.bootVerificationComplete (some ⟨true, 0, true, true, 0, true, none, 0, 0, 0, [], [], []⟩)).wf = false := by
  decide

/-! ### A small state -/

/-- A chip out of reset: power is good, the data plane is ready, no unit is in FATAL, and one register set. -/
def live (rs : List (Reg × W64)) : State :=
  { State.reset with hw := { Hw.reset with regs := (.hubState, 0x10) :: rs, pwr := { Pwr.reset with porHeld := false } } }

/-- The same chip after `n` slots of every data-plane time base and of the local count. -/
def later (n : Nat) : State :=
  let s := live []
  { s with hw := { s.hw with tim := { s.hw.tim with slot := Four.all n, local_ := n } } }
theorem wit_LevelAndSparWritesReplicate :
    (0xffff#16).toNat < levelSize .rack ∧ (live []).hw.quadReach (3 : Quad) = true ∧ (∀ k, k < 4 → (live []).hw.err.hubLost.get k = false) := by
  decide

theorem wit_SeedAndMirrorWrites : (live []).hw.pwr.porHeld = false ∧ (live []).hw.fwd.gathered = none := by decide

theorem wit_ShaperAndPolicerWritesFill : (live []).hw.portStart (1023 : Port) = true ∧ (live []).hw.quadReach (portDie (1023 : Port)) = true ∧
    (live []).hw.quadReach (0 : Quad) = true := by decide

/-- SPILL_EN is 1 and the write asks for 3 GiB in place of 2; a second write keeps 2 GiB. -/
def spilling : State := live [(.spillCfg 1, 0x140201)]
theorem wit_SpillCfgWriteIsGuarded :
    spilling.hw.quadReach (1 : Quad) = true ∧
    Fld.spillCfg_spillGib.get (spilling.hw.writeWord (.spillCfg 1) .full 0x140301) ≠ spilling.hw.fld (.spillCfg 1) Fld.spillCfg_spillGib ∧
    spilling.hw.bit (.spillCfg 1) Fld.spillCfg_spillEn = true ∧
    Fld.spillCfg_spillGib.get (spilling.hw.writeWord (.spillCfg 1) .full 0x640200) = spilling.hw.fld (.spillCfg 1) Fld.spillCfg_spillGib ∧
    (∀ k, k < 4 → spilling.hw.fld (.spillCfg k) Fld.spillCfg_spillGib ≤ 24 ∧
      spilling.hw.fld .gondolaCfg Fld.gondolaCfg_exportGib + 4 * spilling.hw.fld (.spillCfg k) Fld.spillCfg_spillGib ≤ 368) ∧
    Fld.spillCfg_spillBwPct.get (spilling.hw.writeWord (.spillCfg 1) .full 0x640200) = 100 := by decide

/-- A consumed VENT_NOTICE of SCOPE 0 and STATE 0 waits on port 8. -/
def noticed (op : Nat) (data : W64) : State :=
  let s := live []
  { s with hw := { s.hw with buf := { s.hw.buf with
      taken := [{ id := 7, port := 8, frame := ⟨0, 0, [], 0, [], true⟩, hdr := { VHdr.make 1 op linkLocal linkLocal with opData := data },
                  born := 0, tag := none }] } } }
theorem wit_VentingMovesThePort :
    (live []).hw.portStart (8 : Port) = true ∧ (live []).hw.quadReach (portDie (8 : Port)) = true ∧ (live []).hw.bypass (8 : Port) = false ∧
    (live []).hw.ventState (8 : Port) = 0 ∧ (live [(.portFwd 8, 0x20000)]).hw.ventState (8 : Port) = 1 ∧
    (live [(.portFwd 8, 0x20000)]).hw.quadReach (portDie (8 : Port)) = true ∧ (live [(.portFwd 8, 0x20000)]).hw.portStart (8 : Port) = true ∧
    (live [(.portFwd 8, 0x20000)]).hw.bypass (8 : Port) = false ∧
    (∀ x ∈ (live [(.portFwd 8, 0x20000)]).hw.buf.held, ∀ c ∈ x.copies, c.port ≠ (8 : Port).val) ∧
    (live [(.circuitMap 2, 8), (.circuitCtl 2, 0x100)]).hw.bypass (8 : Port) = true ∧
    ((noticed 0x72 8).hw.takeFrame 8 [0x72]).1.map (·.hdr.dst) = some linkLocal := by decide
theorem wit_VentingMovesThePort_report :
    let s := noticed 0x72 8
    let s : State := { s with hw := { s.hw with buf := { s.hw.buf with taken := s.hw.buf.taken.map fun x => { x with hdr := { x.hdr with dst := 5 } } } } }
    (s.hw.takeFrame 8 [0x72]).1.map (·.hdr.dst) = some 5 ∧ (s.hw.err.quadQ.get (portDie (8 : Port))).length < 4096 := by decide

theorem wit_NoticeReportIsRecorded : ((noticed 0x70 0).hw.takeFrame 8 [0x70, 0x71, 0x73]).1.isSome = true ∧
    ((noticed 0x70 0).hw.err.quadQ.get (portDie (8 : Port))).length < 4096 := by decide

/-- Circuit 2 stands in state `k` on port 16, and 200 µs have passed. -/
def circuitIn (k : Nat) : State :=
  let s := live [(.circuitMap 2, 0x0000000000000010), (.circuitCtl 2, BitVec.ofNat 64 (256 * k))]
  { s with hw := { s.hw with tim := { s.hw.tim with slot := Four.all 128000 } } }
theorem wit_CircuitCommandsMoveTheState :
    (∀ k, k < 6 → (circuitIn k).hw.circuitState 2 = k ∧ (circuitIn k).hw.pwr.porHeld = false ∧ (circuitIn k).hw.fwd.gathered = none) ∧
    (circuitIn 0).hw.bypass ((circuitIn 0).hw.circuitPort 2) = false ∧
    (∀ x ∈ (circuitIn 2).hw.buf.held, ∀ c ∈ x.copies, c.port ≠ (circuitIn 2).hw.circuitPort 2) ∧
    (circuitIn 4).hw.linkUp ((circuitIn 4).hw.circuitPort 2) = false ∧
    100 * slotsUs ≤ (circuitIn 4).hw.linkAge ((circuitIn 4).hw.circuitPort 2) := by decide

theorem wit_OctetCommandsDarkenAndLight :
    (live []).hw.quadReach ((41 : Octet) / 32).val = true ∧ (live []).hw.fatalChip = false ∧ (live []).hw.fatalQ ((41 : Octet) / 32).val = false ∧
    (live []).hw.asleep (41 : Octet) = false ∧ (live []).hw.parked ((41 : Octet) / 32).val = false ∧
    (328 ∈ (live []).hw.octetPorts (41 : Octet)) ∧ (live []).hw.linkState 328 = 0 ∧
    Fld.octetCfg_laneUcwMax.get ((live []).hw.writeWord (.octetCfg 41) .lo 0x03e80434) = 4 ∧
    Fld.octetCfg_lossHoldUs.get ((live []).hw.writeWord (.octetCfg 41) .lo 0x03e80434) = 1000 ∧
    Fld.octetCfg_shape.get ((live []).hw.writeWord (.octetCfg 41) .lo 0x03e80434) = 1 ∧
    Fld.octetCfg_mode.get ((live []).hw.writeWord (.octetCfg 41) .lo 0x03e80434) = 0 ∧
    (live []).hw.fld (.octetCfg 41) Fld.octetCfg_shape = 0 ∧ (live []).hw.fld (.octetCfg 41) Fld.octetCfg_enable = 0 ∧
    (∀ n ∈ (live []).hw.octetPorts (41 : Octet), (live []).hw.linkState n = 0) ∧
    (live [(.octetCfg 41, 0x03e80431)]).hw.fld (.octetCfg 41) Fld.octetCfg_enable = 1 ∧
    Fld.octetCfg_enable.get ((live []).hw.writeWord (.octetCfg 41) .lo 0x03e80434) = 0 ∧
    Fld.octetCfg_enable.get ((live []).hw.writeWord (.octetCfg 41) .lo 0x03e80435) = 1 ∧
    Fld.octetCfg_lossHoldUs.get ((live []).hw.writeWord (.octetCfg 41) .lo 0x00090434) = 9 := by decide
theorem wit_OctetCommandsDarkenAndLight_shape :
    Reshapes (live []).hw (41 : Octet) 0x03e80434 ∧ MayReshape (live []).hw (41 : Octet) 0x03e80434 ∧
      ¬MayReshape (live [(.octetCfg 41, 0x03e80431)]).hw (41 : Octet) 0x03e80434 :=
  ⟨Or.inl (by decide), ⟨by decide, by decide, by decide⟩, fun h => absurd h.off (by decide)⟩

/-- Port 8 in link state `k` with PORT_LINK bits `w`, its link as given, at 60 ms. -/
def linkIn (k : Nat) (w : W64) (l : Link) : State :=
  let s := live [(.portLink 8, BitVec.ofNat 64 k ||| w)]
  { s with hw := { s.hw with lgt := { s.hw.lgt with links := [(8, l)] }, tim := { s.hw.tim with slot := Four.all 38400000 } } }
theorem wit_TrainingEnds :
    ((linkIn 2 0x10000 { Link.fresh with since := 38390000 }).hw.linkLive 8 = true ∧
      (linkIn 2 0x10000 { Link.fresh with since := 38390000 }).hw.capable 8 = true ∧
      (linkIn 2 0x10000 { Link.fresh with since := 38390000 }).hw.lanesSuffice 8 = true ∧
      (linkIn 2 0x10000 { Link.fresh with since := 38390000 }).hw.linkState 8 = 2 ∧
      (linkIn 2 0x10000 { Link.fresh with since := 38390000 }).hw.linkAge 8 ≤ 100 * slotsUs) ∧
    ((linkIn 1 0 Link.fresh).hw.linkLive 8 = true ∧ (linkIn 1 0 Link.fresh).hw.linkState 8 = 1 ∧
      50 * slotsMs ≤ (linkIn 1 0 Link.fresh).hw.linkAge 8) ∧
    ((linkIn 2 0 Link.fresh).hw.linkState 8 = 2 ∧ ((linkIn 2 0 Link.fresh).hw.link 8).lockAt = none ∧
      100 * slotsUs ≤ (linkIn 2 0 Link.fresh).hw.linkAge 8) ∧
    ((linkIn 1 0 { Link.fresh with lockAt := some 5 }).hw.oslux 8 = true ∧ (linkIn 1 0 { Link.fresh with lockAt := some 5 }).hw.capable 8 = false ∧
      ((linkIn 1 0 { Link.fresh with lockAt := some 5 }).hw.link 8).lockAt = some 5 ∧
      5 + slotsMs ≤ (linkIn 1 0 { Link.fresh with lockAt := some 5 }).hw.slot (portDie (8 : Port))) := by decide

/-- The same with octet 1 enabled. -/
def linkOn (k : Nat) (l : Link) : State :=
  let s := linkIn k 0 l
  { s with hw := { s.hw with regs := (.octetCfg 1, 0x03e80431) :: s.hw.regs } }
theorem wit_LinkLossAndReturn :
    ((linkOn 3 Link.fresh).hw.linkLive 8 = true ∧ (linkOn 3 Link.fresh).hw.linkUp 8 = true) ∧
    ((linkOn 4 Link.fresh).hw.linkLive 8 = true ∧ (linkOn 4 Link.fresh).hw.linkState 8 = 4 ∧
      slotsUs * (linkOn 4 Link.fresh).hw.fld (.octetCfg ((8 : Port) / 8)) Fld.octetCfg_lossHoldUs ≤ (linkOn 4 Link.fresh).hw.linkAge 8) ∧
    ((linkOn 5 { Link.fresh with light := true }).hw.linkLive 8 = true ∧ (linkOn 5 { Link.fresh with light := true }).hw.linkState 8 = 5 ∧
      ((linkOn 5 { Link.fresh with light := true }).hw.link 8).light = true ∧
      (linkOn 5 { Link.fresh with light := true }).hw.bit (.octetCfg ((8 : Port) / 8)) Fld.octetCfg_enable = true ∧
      ((linkOn 5 { Link.fresh with light := true }).hw.link 8).lastTry = none) := by decide

theorem wit_LinkCommandsTrain :
    ((linkIn 3 0 Link.fresh).hw.portStart (8 : Port) = true ∧ (linkIn 3 0 Link.fresh).hw.quadReach (portDie (8 : Port)) = true ∧
      (linkIn 3 0 Link.fresh).hw.linkState 8 = 3) ∧
    ((live []).hw.portStart (8 : Port) = true ∧ (live []).hw.quadReach (portDie (8 : Port)) = true ∧ (live []).hw.linkState 8 = 0) := by decide

/-- A four-lane port 8 that is UP with lane 2 out. -/
def narrowed : State :=
  let s := linkIn 3 0xbf00 Link.fresh
  { s with hw := { s.hw with regs := (.octetCfg 1, 0x03e80439) :: s.hw.regs } }
theorem wit_LanesNarrowAndRejoin :
    (narrowed.hw.linkLive 8 = true ∧ narrowed.hw.linkUp 8 = true ∧ narrowed.hw.oslux 8 = true ∧ narrowed.hw.portLanes 8 = 4 ∧
      Nat.testBit (narrowed.hw.fld (.portLink 8) Fld.portLink_rxMask) 0 = true ∧ narrowed.hw.bit (.octetCfg 1) Fld.octetCfg_narrowEn = true ∧
      narrowed.hw.fld (.portLink 8) Fld.portLink_rxMask = 11) ∧
    (Nat.testBit (narrowed.hw.fld (.portLink 8) Fld.portLink_rxMask) 2 = false ∧ (narrowed.hw.link 8).stuck.getLsbD 2 = false) ∧
    ((narrowed.hw.link 8).lsAt + 100 * slotsUs ≤ narrowed.hw.slot (portDie (8 : Port))) ∧
    ((linkIn 3 0x1100 Link.fresh).hw.linkLive 8 = true ∧ (linkIn 3 0x1100 Link.fresh).hw.linkUp 8 = true ∧
      (linkIn 3 0x1100 Link.fresh).hw.oslux 8 = true ∧ (linkIn 3 0x1100 Link.fresh).hw.portLanes 8 = 1 ∧
      Nat.testBit ((linkIn 3 0x1100 Link.fresh).hw.fld (.portLink 8) Fld.portLink_rxMask) 0 = true) := by decide

theorem wit_LinkStateAndRetry :
    ((noticed 0x74 0x0100000000000000).hw.takeFrame 8 [0x74]).1.isSome = true ∧ (noticed 0x74 0x0100000000000000).hw.oslux 8 = true ∧
    ((linkIn 3 0 { Link.fresh with held := [⟨5, ⟨0, 0, [], 0, [], true⟩⟩] }).hw.linkLive 8 = true ∧
      (linkIn 3 0 { Link.fresh with held := [⟨5, ⟨0, 0, [], 0, [], true⟩⟩] }).hw.linkUp 8 = true ∧
      (linkIn 3 0 { Link.fresh with held := [⟨5, ⟨0, 0, [], 0, [], true⟩⟩] }).hw.retryOn 8 = true ∧
      (⟨5, ⟨0, 0, [], 0, [], true⟩⟩ ∈ ((linkIn 3 0 { Link.fresh with held := [⟨5, ⟨0, 0, [], 0, [], true⟩⟩] }).hw.link 8).held)) ∧
    (let s := noticed 0x74 0
     let s : State := { s with hw := { s.hw with regs := (.octetCfg 1, 0x03e8043e) :: s.hw.regs } }
     (s.hw.takeFrame 8 [0x74]).1.isSome = true ∧ s.hw.oslux 8 = false) := by decide

theorem wit_FloorAndHubPaths :
    ((3 : Fin 16).val < pathWidth (5 : FloorPath) ∧ Nat.testBit ((live [(.floorPath 5, 0xffff)]).hw.fld (.floorPath 5) Fld.floorPath_upMask) 3 = true ∧
      (live [(.floorPath 5, 0xffff)]).hw.pwr.porHeld = false ∧ (5, 3) ∉ (live [(.floorPath 5, 0xffff)]).hw.lgt.floorOut) ∧
    (Nat.testBit ((live [(.floorPath 5, 0xfff7)]).hw.fld (.floorPath 5) Fld.floorPath_upMask) 3 = false ∧
      (live [(.floorPath 5, 0xfff7)]).hw.dpReady = true ∧ (live [(.floorPath 5, 0xfff7)]).hw.pathNarrow 5 = false) ∧
    ((linkIn 3 0x1100 Link.fresh).hw.portLanes 8 = 1 ∧ (linkIn 3 0x1100 Link.fresh).hw.linkLive 8 = true) ∧
    ((live []).hw.err.hubLost.get 2 = false) ∧
    (let s := live []
     let s : State := { s with hw := { s.hw with err := { s.hw.err with hubLost := ⟨true, false, true, false⟩ } } }
     s.hw.pwr.porHeld = false ∧ s.hw.err.hubLost.get (2 : Quad) = true ∧ s.hw.err.hubLost.get (1 : Quad) = false ∧
       s.hw.hubLanes 16 ≠ 0 ∧ s.hw.hubLanes 17 ≠ 0 ∧ ∀ j, j < (1 : Quad).val → s.hw.err.hubLost.get j = true) := by decide

/-- Emitter 45 in state `a` and its spare 69 in state `b`, with the hand-overs given; Gliuk runs. -/
def emitters (a b : Nat) (ho : List (Nat × Nat)) : State :=
  let s := live [(.emitStatus 45, BitVec.ofNat 64 (699 + 1024 * a)), (.emitStatus 69, BitVec.ofNat 64 (1024 * b))]
  { s with hw := { s.hw with regs := (.hubState, 0x18) :: s.hw.regs, lgt := { s.hw.lgt with handover := ho } } }
theorem wit_EmittersFailAndHandOver :
    (octetOf (45 : Emitter) = some 41 ∧ (emitters 2 6 []).hw.handoverOf 45 = none ∧ (emitters 2 6 []).hw.emitState 45 = 2 ∧
      (emitters 2 6 []).hw.emitState (spareOf 41) = 6 ∧ (emitters 2 6 []).nv.isRetired (spareOf 41) = false) ∧
    (∀ k, k ∈ [7, 8, 9] → (emitters 3 k [(45, 69)]).hw.handoverOf 45 = some (45, 69) ∧ (emitters 3 k [(45, 69)]).hw.emitState 69 = k ∧
      (emitters 3 k [(45, 69)]).hw.gliuk = true ∧ (emitters 3 k [(45, 69)]).hw.handoverOf 69 = some (45, 69)) ∧
    (octetOf (69 : Emitter) = none ∧ (live []).hw.gliuk = false ∧ (emitters 2 10 []).hw.emitState 69 = 10 ∧
      aget 45 (emitters 2 10 []).hw.lgt.noSpareAt = none) ∧
    ((emitters 2 10 []).hw.gliuk = true ∧ (emitters 2 10 []).hw.emitLevel 45 ≤ (emitters 2 10 []).hw.fld .emitCfg Fld.emitCfg_sparePermil ∧
      (emitters 2 10 []).hw.emitState (spareOf 41) = 10 ∧ ((emitters 2 10 []).hw.err.quadQ.get 1).length < 4096) := by decide

/-- SAVE_OCTET 41 runs and holds one record. -/
def saving : State :=
  let s := live [(.calStatus, 1)]
  { s with hw := { s.hw with lgt := { s.hw.lgt with cal := some (1, 41), calWrites := [(328, 5, 0x8000000000000007)] } } }
theorem wit_CalibrationCommands :
    ((live []).hw.pwr.porHeld = false ∧ (live []).hw.bit .calStatus Fld.calStatus_busy = false ∧ (0 : BitVec 16) ≠ 0xca1b ∧
      (∀ n ∈ (live []).hw.octetPorts (41 : Octet), (live []).hw.linkState n = 0) ∧
      ∀ n ∈ (live []).hw.octetPorts (41 : Octet), (live []).hw.inService n = false) ∧
    (saving.hw.lgt.cal = some (1, 41) ∧ (saving.hw.lgt.calWrites.map (·.1)).Nodup ∧ (328, 5, 0x8000000000000007) ∈ saving.hw.lgt.calWrites) := by
  decide

theorem wit_StepRunsFrontCommand : (live []).pending = [] ∧ (live []).hw.pwr.porHeld = false ∧ (live []).hw.tim.slew = none := by decide

theorem wit_HeaderBytesRoundTrip : (List.replicate 32 (0 : Byte)).length = 32 := by decide

theorem wit_MemoryStaysCanonical : State.reset.mem.wf = true ∧ ∃ t, step State.reset = .next t := ⟨by decide, _, rfl⟩

theorem wit_FencesHoldUntilPowerGoes : ∃ t, exec (.laneFenceWrite .full 8) (live []) = .next t ∧ t.nv.laneFence.getLsbD 3 = true :=
  ⟨_, rfl, by decide⟩

/-- A frame with the given EtherType and body; port 8 is UP in 200G mode, and the exception table sends node 0x012345 to port 24. -/
def rxOf (ty : BitVec 16) (body : List Byte) : RxFrame :=
  { pre := 0, codewords := [], frame := ⟨0, 0, [], ty, body, true⟩ }
def vaethRx (op : Nat) (dst : Node) : RxFrame := rxOf 0x88b5 (padTo 46 (VHdr.make 1 op dst 0x54321).seal.bytes)
def port200 : State :=
  let s := live [(.octetCfg 1, 0x03e8043f), (.portLink 8, 3)]
  { s with hw := { s.hw with fwd := { s.hw.fwd with exc := Four.all [⟨0x012345, true, 0, 24, false, false, 0, false⟩] } } }
/-- Port 8 is UP in Oslux 400 mode; a frame with the expected LSEQ and a right PCHK arrives. -/
def port400 : State := live [(.octetCfg 1, Reg.reset (.octetCfg 1) ||| 1), (.portLink 8, 3)]
def rxNext (f : Frame) : RxFrame := { pre := (Preamble.seal ⟨0, 0, false, false, false, 0, 0, 0⟩).word, codewords := [(0, true)], frame := f }
theorem wit_ReceivedFrames :
    (port200.hw.takesFrames (8 : Port) false = true ∧ (rxOf 0x88cc []).preamble.ctrl = false ∧
      port200.hw.bit .errInject Fld.errInject_arm = false ∧ (port200.hw.err.quadQ.get 0).length < 4096) ∧
    (port200.hw.landingRoom 8 (port200.hw.rxClass 0 (rxOf 0x88cc [1, 2]).frame (port200.hw.isVaeth 0 (rxOf 0x88cc [1, 2]).frame)) 20 = true ∧
      (rxOf 0x88cc [1, 2]).frame.len = 20) ∧
    port200.hw.landingRoom 8 7 49153 = false ∧
    (let f := (rxOf 0x88cc (List.replicate 46 1)).frame
     f.len = 64 ∧ 64 ≤ port200.hw.dieFld 0 .vaethCfg Fld.vaethCfg_maxFrame ∧ port200.hw.isVaeth 0 f = false ∧
       port200.hw.classify 0 f = .lldp ∧ port200.hw.landingRoom 8 (port200.hw.rxClass 0 f false) 64 = true) ∧
    (let f := (vaethRx 0x78 linkLocal).frame
     f.len = 64 ∧ port200.hw.isVaeth 0 f = true) := by decide +kernel
theorem wit_ReceivedFrames_handed (f : Frame) : Handed port200.hw (8 : Port) { pre := 0, codewords := [], frame := f } :=
  ⟨rfl, fun h => absurd h (by decide +kernel), fun h => absurd h (by decide +kernel)⟩
theorem wit_ReceivedFrames_retry (f : Frame) : port400.hw.oslux (8 : Port) = true ∧ Handed port400.hw (8 : Port) (rxNext f) :=
  ⟨by decide +kernel, rfl, fun _ => (by decide +kernel : (rxNext ⟨0, 0, [], 0, [], true⟩).preamble.checkOk = true),
    fun _ => Or.inr (by decide +kernel : (rxNext ⟨0, 0, [], 0, [], true⟩).preamble.lseq = (port400.hw.link (8 : Port)).rxNext)⟩
theorem wit_ReceivedFrames_header :
    (let s : State := { port200 with hw := { port200.hw with regs := (.vaethCfg, Reg.reset .vaethCfg) :: port200.hw.regs } }
     let f := { (vaethRx 0x72 linkLocal).frame with etype := (s.hw.reg .vaethCfg).setWidth 16 }
     s.hw.isVaeth 0 f = true ∧ f.hdr.tc.toNat = 1 ∧ s.hw.headerReason 0 8 f f.hdr = none ∧ s.hw.consumes 0 8 f.hdr = true ∧
       s.hw.landingRoom 8 (s.hw.rxClass 0 f true) f.len = true) := by decide +kernel
theorem wit_ReceivedFrames_passes : PassesIn port200.hw (8 : Port) (vaethRx 0x72 linkLocal).frame.hdr :=
  ⟨Or.inl (by decide +kernel), Or.inl (by decide +kernel)⟩
theorem wit_ReceivedFrames_forward :
    (let f := { (vaethRx 0x80 0x012345).frame with etype := (port200.hw.reg .vaethCfg).setWidth 16 }
     port200.hw.headerReason 0 8 f f.hdr = none ∧ port200.hw.consumes 0 8 f.hdr = false ∧ f.hdr.tc.toNat < 3 ∧
       (port200.hw.excFind 0 f.hdr.dst).map (fun e => (e.kind, e.target)) = some (0, 24) ∧
       port200.hw.tblBad 0 ⟨.exc, f.hdr.dst.toNat⟩ = false ∧
       port200.hw.portStart 24 = true ∧ port200.hw.ventState 24 = 0) := by decide +kernel

/-- P-die[2] has one learn request, and one learned entry has stood for 1,000 s without a hit. -/
def learning : State :=
  let s := live [(.portFwd 520, 0x1001)]
  let fwd := { s.hw.fwd with learnQ := s.hw.fwd.learnQ.set 2 [(0x111, 520)], exc := Four.all [⟨0x222, false, 0, 8, true, false, 0, false⟩] }
  { s with hw := { s.hw with fwd := fwd, tim := { s.hw.tim with slot := Four.all 640000000000 } } }
theorem wit_LearningInsertsAndAges :
    (learning.hw.fwd.learnQ.get (2 : Quad) = [(0x111, 520)] ∧ (∀ k, k < 4 → learning.hw.excFind k 0x111 = none) ∧
      learning.hw.learnCount 520 < learning.hw.fld (.portFwd 520) Fld.portFwd_learnLimit ∧ learning.hw.excPlace 0x111 = some false) ∧
    ((learning.hw.excFind (learning.hw.epochDie.getD 0) 0x222).map (fun e => (e.static, e.lastHit)) = some (false, 0) ∧
      learning.hw.fld .fwdCfg Fld.fwdCfg_learnAge ≠ 0 ∧
      learning.hw.fld .fwdCfg Fld.fwdCfg_learnAge * slotsSec ≤ learning.hw.slot (learning.hw.epochDie.getD 0) ∧
      learning.hw.fwd.gathered = none) ∧
    (learning.hw.learnCount 8 ≥ (live [(.portFwd 8, 0)]).hw.fld (.portFwd 8) Fld.portFwd_learnLimit ∧
      (live []).hw.slot 0 < 0 + (live []).hw.fld .fwdCfg Fld.fwdCfg_learnAge * slotsSec) := by decide +kernel

/-- One frame of class `t` from port 8 toward port 16 waits at `sp`; it is 3 ms old. -/
def waiting (t : Nat) (sp : Spot) (rs : List (Reg × W64)) : State :=
  let s := live rs
  let x : Held :=
    { id := 3, frame := ⟨0, 0, [], 0x88b5, List.replicate 46 0, true⟩, hdr := some (VHdr.make t 0x80 0x12345 0x54321), cls := t, die := 0,
      inPort := some 8, born := 0, route := .port 16, copies := [⟨16, sp, 0, 0, false⟩], mcast := false, deflected := false, ballast := false,
      badTail := false, tag := none }
  let egr := { s.hw.egr with sched := [(16, { Sched.zero with starve := List.replicate 8 640000 })] }
  { s with hw := { s.hw with tim := { s.hw.tim with slot := Four.all 1920000 }, buf := { s.hw.buf with nextId := 4, held := [x] }, egr := egr } }
theorem wit_FramesWaitAndAge :
    (let s := waiting 3 .landing [(.classCfg 0 3, 0xfa00)]
     s.hw.heldAt 3 = s.hw.buf.held.head? ∧ s.hw.quadOk 0 = true ∧ 3 < s.hw.buf.nextId ∧
       s.hw.buf.held.all (fun x => s.hw.landingFirst x && !s.hw.aged x && x.len == 64 && !s.hw.fullFor x 16 && !x.route.multi &&
         x.inPort.isSome) = true ∧
       s.hw.admits 0 3 64 = true ∧ s.hw.bit .errInject Fld.errInject_arm = false) ∧
    (let s := waiting 3 .queue []
     s.hw.buf.held.all (fun x => s.hw.aged x && x.copies.any fun c => c.spot.agePoint.isSome) = true) ∧
    (let s := waiting 5 .spill []
     (firstJoin (s.hw.copiesTo 16 fun y d => y.die == 0 && y.cls == 5 && d.spot == .spill)).isSome = true ∧
       s.hw.admits 0 5 64 = true ∧ s.hw.buf.spillNow.get 0 + 64 ≤ s.hw.spillBudget 0) ∧
    (let s := waiting 3 .queue []
     s.hw.backlogged 16 3 = true ∧ s.hw.starveLimit 16 3 ≠ 0 ∧ s.hw.starveLimit 16 3 ≤ (s.hw.sched 16).starve.getD 3 0 ∧
       3 < (s.hw.sched 16).promoted.length) := by decide +kernel
/-- A consumed MEM_READ of class 5 waits on port 8 past its age. -/
theorem wit_FramesWaitAndAge_taken :
    let s := live []
    let x : Taken := { id := 7, port := 8, frame := ⟨0, 0, [], 0, [], true⟩, hdr := VHdr.make 5 0x41 linkLocal linkLocal, born := 0, tag := none }
    let t : State := { s with hw := { s.hw with tim := { s.hw.tim with slot := Four.all 640000000 }, buf := { s.hw.buf with taken := [x] } } }
    t.hw.heldAt 7 = none ∧ (t.hw.buf.taken.find? fun y => y.id == 7) = some x ∧ t.hw.takenAged x = true := by decide +kernel

theorem wit_SchedulerAndWire :
    (let s := waiting 0 .queue [(.portLink 16, 3), (.classCfg 0 0, 0xfa00)]
     s.hw.portStart 16 = true ∧ s.hw.linkUp 16 = true ∧ s.hw.quadOk (portDie 16) = true ∧
       (s.hw.refillShapers 16).schedPick 16 = some (0, none) ∧
       ((s.hw.refillShapers 16).drrPick 16 0 16 ((s.hw.sched 16).drr.getD 0 ⟨4, List.replicate 5 0⟩)).1.isSome = true ∧
       s.hw.bit .errInject Fld.errInject_arm = false) ∧
    (let s := waiting 0 .staging [(.portLink 16, 3)]
     (s.hw.copiesTo 16 fun _ k => k.spot == .wire) = [] ∧ (s.hw.link 16).replayFrom = none ∧
       (firstJoin (s.hw.copiesTo 16 Held.mayStart)).isSome = true) ∧
    (let s := waiting 0 .wire [(.portLink 16, 3)]
     (s.hw.copiesTo 16 fun _ k => k.spot == .wire && k.left == 0).head?.isSome = true) := by decide +kernel
theorem wit_SchedulerAndWire_floor (n : Nat) (hn : n = 3 ∨ n = 1) :
    let s := waiting 0 .floor [(.floorPath 0, 0xffff)]
    let s : State := { s with hw := { s.hw with buf := { s.hw.buf with held := s.hw.buf.held.map fun x => { x with copies := [⟨300, .floor, 0, n, false⟩] } } } }
    s.hw.quadOk 0 = true ∧ s.hw.quadOk 1 = true ∧ s.hw.pathUp 0 1 = true ∧ s.hw.linkUp 300 = false ∧
      (firstJoin (s.hw.buf.held.flatMap fun y => (y.copies.filter fun k =>
        y.die == 0 && portDie k.port == 1 && (k.spot == .floor || k.spot == .wire) && k.left != 0).map
        fun k => (y, k))).map (·.2.left) = some n := by
  rcases hn with rfl | rfl <;> decide +kernel
theorem wit_SchedulerAndWire_replay :
    let s := waiting 0 .queue [(.portLink 16, 3)]
    let l : Link := { Link.fresh with held := [⟨5, ⟨0, 0, [], 0, [], true⟩⟩], replayFrom := some 5 }
    let s : State := { s with hw := s.hw.setLink 16 l }
    (s.hw.copiesTo 16 fun _ k => k.spot == .wire) = [] ∧
      ((s.hw.link 16).replayFrom.bind fun k => (s.hw.link 16).held.find? fun g => g.lseq == k).isSome = true := by decide +kernel

/-- The PCIe link is up, Request Retry Status is due or not, and the first 64 grant bits are `g`. -/
def linked (rrs : Bool) (g : W64) : State :=
  let s := live [(.counterGrant 0, g)]
  { s with hw := { s.hw with hst := { s.hw.hst with pcieUp := true, rrs := rrs } } }
theorem wit_RegisterAccess :
    (let s := live [(.portHwm 8, 5)]
     s.hw.pwr.porHeld = false ∧ s.hw.dpReady = true ∧ s.hw.portStart 8 = true ∧
       (∃ a : BitVec 26, a = BitVec.ofNat 26 (Reg.addr .vaethSa) ∧ regAt a.toNat = some .vaethSa ∧ accAligned a.toNat .full = true ∧
         accDenied .host a.toNat = false ∧ s.hw.blockLost a.toNat = false ∧ dpBlock a.toNat = false) ∧
       (∃ a : BitVec 26, a = BitVec.ofNat 26 (Reg.addr (.portHwm 8)) ∧ regAt a.toNat = some (.portHwm 8) ∧
         accAligned a.toNat .lo = true ∧ s.hw.blockLost a.toNat = false ∧ accDenied (.core 1) a.toNat = false)) ∧
    regAt (0x7ffff8 : BitVec 26).toNat = none ∧
    (let s := live []
     let s : State := { s with hw := { s.hw with err := { s.hw.err with hubLost := ⟨false, true, false, false⟩ } } }
     s.hw.blockLost (0x1000000 : BitVec 26).toNat = true ∧ accAligned (0x1000000 : BitVec 26).toNat .full = true ∧ s.hw.dpReady = true) ∧
    accDenied .regAccess (0x100000 : BitVec 26).toNat = true ∧
    ((linked true 7).hw.hst.pcieUp = true ∧ (linked true 7).hw.pwr.porHeld = false ∧ (linked true 7).hw.rrsNow = true ∧
      (linked false 7).hw.rrsNow = false ∧ (linked true 7).hw.dpReady = true ∧
      (linked true 7).hw.blockLost (Reg.addr (.cntVal 0 64)) = false ∧
      ((linked true 2).hw.reg (.counterGrant 0)).getLsbD 1 = true ∧ ((linked true 1).hw.reg (.counterGrant 0)).getLsbD 1 = false ∧
      (0xff008 : BitVec 26).toNat / 4096 = (255 : Ring).val ∧ (0x1000 : BitVec 26).toNat = (8 * 0 + 1) * 4096 + 8 * 0) := by
  refine ⟨⟨by decide +kernel, by decide +kernel, by decide +kernel, ⟨_, rfl, by decide +kernel⟩, ⟨_, rfl, by decide +kernel⟩⟩, by decide +kernel,
    by decide +kernel, by decide +kernel, by decide +kernel⟩

theorem wit_RegisterWriteIsTheCommand :
    ∀ r ∈ [Reg.laneFence, .fwdSeed, .gondolaCfg, .tuSetHi, .tuStep, .tuFreq, .histCtl, .errInject, .mirrorCfg 3, .gondolaWin 15, .circuitMap 200],
      regAt (Reg.addr r) = some r ∧ Reg.addr r < 2 ^ 26 ∧ accAligned (Reg.addr r) .full = true ∧
        (live []).hw.blockLost (Reg.addr r) = false ∧
        ¬(0x180000 ≤ Reg.addr r ∧ Reg.addr r < 0x188000) := by decide +kernel

theorem wit_OverbookFollowsTheRates : (live []).hw.portStart (9 : Port) = true ∧ (live []).hw.quadReach (portDie (9 : Port)) = true ∧
    (live []).hw.oslux 9 = true ∧ (live []).hw.portLanes 9 = 1 ∧ (live []).hw.txLanes 9 ≤ 1 := by decide

theorem wit_CircuitMapIsLockedWhileInUse : (circuitIn 1).hw.circuitState 2 = 1 ∧ (circuitIn 1).hw.pwr.porHeld = false ∧
    (let a := Reg.addr (.circuitMap 2)
     accDenied .host a = false ∧ accAligned a .full = true ∧ regAt a = some (.circuitMap 2) ∧ dpBlock a = false ∧
       ¬(0x180000 ≤ a ∧ a < 0x188000) ∧ a < 2 ^ 26) := by decide +kernel

theorem wit_TablesAndRatesFollowTheAgent :
    ((later 6400).hw.pwr.porHeld = false ∧ (later 6400).hw.qdBusy (2 : Quad) = false ∧ (later 6400).hw.railsLow (2 : Quad) = false ∧
      (later 6400).hw.quadOk (2 : Quad) = true ∧ (later 6400).hw.slot (2 : Quad) / 6400 ≠ (later 6400).hw.err.rateNo.get (2 : Quad) ∧
      (later 6399).hw.slot (2 : Quad) / 6400 = (later 6399).hw.err.rateNo.get (2 : Quad) ∧
      (later 640).hw.slot (2 : Quad) / 640 ≠ (later 640).hw.buf.sampledAt.get (2 : Quad) ∧
      (later 639).hw.slot (2 : Quad) / 640 = (later 639).hw.buf.sampledAt.get (2 : Quad)) ∧
    (let s := live []
     let f (l : List (TblRef × Nat)) : State := { s with hw := { s.hw with fwd := { s.hw.fwd with bad := l } } }
     let t : TblRef := ⟨.level .rack, 77⟩
     (f [(t, 2), (t, 0)]).hw.tblBad (2 : Quad) t = true ∧ (f [(t, 2), (t, 0)]).hw.tblBad (1 : Quad) t = false ∧
       (∀ j, j < (1 : Quad).val → (f [(t, 2), (t, 0)]).hw.tblBad j t = true) ∧
       (∀ k, k < 4 → (f [(t, 0), (t, 1), (t, 2), (t, 3)]).hw.tblBad k t = true)) := by decide

theorem wit_FrequencyIsBoundedAndExact :
    (live []).hw.pwr.porHeld = false ∧ ((((live []).hw.writeWord .tuFreq .lo 500000000).setWidth 32).toInt).natAbs = 500000000 ∧
    ((((live []).hw.writeWord .tuFreq .lo 500000001).setWidth 32).toInt).natAbs = 500000001 ∧
    ((((live []).hw.reg .tuFreq).setWidth 32).toInt).natAbs ≤ 500000000 ∧ (live []).hw.tim.slew = none := by decide

theorem wit_TimeCommands :
    (let s := live [(.tuSetNs, 0x000000013b9ac9ff)]
     s.hw.pwr.porHeld = false ∧ s.hw.fld .tuSetNs Fld.tuSetNs_ns = 999999999 ∧ s.hw.bit .tuStatus Fld.tuStatus_setOnce = false ∧
       s.hw.tim.fabric < 2 ^ 48 * 1000000000) ∧
    (let s := live [(.tuStatus, 4), (.tuSetNs, 0x000000053b9ac9ff), (.tuCfg, 0x0000000400000064)]
     s.hw.bit .tuStatus Fld.tuStatus_setOnce = true ∧ s.hw.fld .tuCfg Fld.tuCfg_jumpNs = 100 ∧
       s.hw.fld .tuCfg Fld.tuCfg_jumpNs < (((5 * 1000000000 + 999999999 : Nat) : Int) - (s.hw.tim.fabric : Int)).natAbs ∧
       s.hw.bit .tuCfg Fld.tuCfg_ppsEn = true ∧ s.hw.tim.slew = none ∧
       s.hw.fld .tuCfg Fld.tuCfg_jumpNs < (((accWord .lo 0 101 &&& accMask .lo).setWidth 48).toInt).natAbs ∧
       (((accWord .lo 0 100 &&& accMask .lo).setWidth 48).toInt).natAbs ≤ s.hw.fld .tuCfg Fld.tuCfg_jumpNs) ∧
    999999999 < (live [(.tuSetNs, 0x000000003b9aca00)]).hw.fld .tuSetNs Fld.tuSetNs_ns ∧
    (live []).hw.bit .tuCfg Fld.tuCfg_ppsEn = false := by decide

/-- Gliuk runs as a boundary clock; port 16 is UP with PTP and holds a frame for it. -/
def clocked : State :=
  let s := live [(.hubState, 0x18), (.tuCfg, 0x0000000100000064), (.portLink 16, 3), (.tuPtpEn 0, 0x10000)]
  { s with hw := { s.hw with regs := (.hubState, 0x18) :: s.hw.regs, tim := { s.hw.tim with ptpIn := [(16, 0, ⟨0, 0, [], 0x88f7, [], true⟩)], ptpOut := [(16, 0, 5)] } } }
theorem wit_TimeProtocolAndHistory :
    (clocked.hw.tim.ptpIn.find? fun y => y.1 == (16 : Port).val).isSome = true ∧ clocked.hw.ptpRuns = true ∧
    clocked.hw.portStart (16 : Port) = true ∧ clocked.hw.linkUp (16 : Port) = true ∧
    (clocked.hw.reg (.tuPtpEn ((16 : Port) / 64))).getLsbD ((16 : Port) % 64) = true ∧
    clocked.hw.mayOriginate (portDie (16 : Port)) = true ∧ clocked.hw.gliuk = true ∧ clocked.hw.ptpEventRoom (16 : Port) = true ∧
    ptpFollows .followUp = some 0 ∧ (clocked.hw.tim.ptpOut.find? fun x => x.1 == (16 : Port).val && x.2.1 == 0).isSome = true ∧
    clocked.hw.tim.histSec ≠ some (clocked.hw.tim.local_ / 640000000) ∧ (live []).hw.ptpRuns = false ∧ (live []).hw.gliuk = false ∧
    (clocked.hw.tim.ptpIn.find? fun y => y.1 == (15 : Port).val) = none ∧ clocked.hw.pwr.porHeld = false ∧
    (let w := clocked.hw.writeWord .errInject .full 0x521
     Fld.errInject_arm.get w = 1 ∧ pointOn (Fld.errInject_point.get w) (Fld.errInject_die.get w) = true) ∧
    (let w := clocked.hw.writeWord .errInject .full 0x581
     Fld.errInject_arm.get w = 1 ∧ pointOn (Fld.errInject_point.get w) (Fld.errInject_die.get w) = false) := by decide

theorem wit_CountersWrapAndChain :
    (live [(.cntVal 0 300, 0x0000ffffffffffff), (.cntSel 0 301, BitVec.ofNat 64 (2 ^ Fld.cntSel_chain.lo))]).hw.fld (.cntVal 0 300) Fld.cntVal_value = 2 ^ 48 - 1 ∧
    (live [(.cntVal 0 300, 0x0000ffffffffffff), (.cntSel 0 301, BitVec.ofNat 64 (2 ^ Fld.cntSel_chain.lo))]).hw.bit (.cntSel 0 301) Fld.cntSel_chain = true ∧
    ((live [(.cntVal 0 300, 5)]).hw.regs.map (·.1)).Nodup := by decide

theorem wit_QuadrantFatal :
    (let s := live []
     let s : State := { s with hw := { s.hw with err := { s.hw.err with probes := ⟨0, 0, 2, 0⟩ } } }
     s.hw.pwr.porHeld = false ∧ s.hw.fatalChip = false ∧ s.hw.fatalQ (2 : Quad) = false ∧ s.hw.qdBusy (2 : Quad) = false ∧
       s.hw.err.hubLost.get (2 : Quad) = false ∧ 2 ≤ s.hw.err.probes.get (2 : Quad) ∧ s.hw.railsLow (2 : Quad) = false) ∧
    328 ∈ (live []).hw.octetPorts 41 ∧
    ((live []).hw.err.probes.get (1 : Quad) < 2 ∧ (live []).hw.err.hubLost.get (1 : Quad) = false) ∧
    (live [(.errStatus, 4)]).hw.fatalQ (2 : Quad) = true := by decide

theorem wit_ChipFatal : (live []).hw.pwr.porHeld = false ∧ (live []).hw.fatalChip = false ∧ (live []).hw.pwr.thermTrip = false ∧
    (live [(.errStatus, 16)]).hw.fatalChip = true := by decide

/-- Gliuk runs with the Sweep enabled, and lane 5 has had no pass for 20 s. -/
def sweeping : State :=
  let s := live [(.sweepCfg, 0x03010a01)]
  { s with hw := { s.hw with regs := (.hubState, 0x18) :: s.hw.regs, tim := { s.hw.tim with local_ := 12800000000 }, err := { s.hw.err with passAt := [(5, 0)] } } }
theorem wit_SweepOutcomes : sweeping.sweeps (5 : RedLane) = true ∧ sweeping.nv.laneOff (5 : RedLane) = false ∧
    sweeping.hw.quadOk ((5 : RedLane) / 16).val = true ∧ sweeping.hw.railsLow ((5 : RedLane) / 16).val = false ∧
    aget (5 : RedLane).val sweeping.hw.err.passAt = some 0 ∧ sweeping.nv.overdue (5 : RedLane) = false ∧
    0 + 10 * slotsSec ≤ sweeping.hw.tim.local_ ∧ (live []).sweeps (5 : RedLane) = false := by decide

theorem wit_Withdrawal :
    ((live []).hw.pwr.porHeld = false ∧ (live []).hw.bit .withdrawCtl Fld.withdrawCtl_req = false ∧
      (live [(.withdrawCtl, 0x640003)]).hw.bit .withdrawCtl Fld.withdrawCtl_req = true) ∧
    (let s := live [(.withdrawCtl, 0x640003)]
     let s : State := { s with hw := { s.hw with tim := { s.hw.tim with slot := Four.all 64000 } } }
     s.hw.withdrawState = 1 ∧ s.hw.err.noticeAt + 100 * slotsUs ≤ s.hw.slot 0 ∧ (∀ x ∈ s.hw.buf.held, x.remains = false) ∧ s.hw.buf.taken = [] ∧
       s.hw.err.quietFrom + slotsUs * s.hw.fld .withdrawCtl Fld.withdrawCtl_quietUs ≤ s.hw.slot 0) := by decide

theorem wit_TickClosesRecords : (later 640000).hw.pwr.porHeld = false ∧ (later 640000).hw.gliuk = false ∧ sweeping.hw.gliuk = true ∧
    (later 640000).hw.tim.local_ / 640000 ≠ (later 640000).hw.err.tickNo ∧ (later 639999).hw.tim.local_ / 640000 = (later 639999).hw.err.tickNo ∧
    sweeping.hw.tim.local_ / 640000 ≠ sweeping.hw.err.tickNo ∧
    sweeping.hw.inbandUp = false ∧ sweeping.hw.fld .icCfg Fld.icCfg_routeMode = 0 := by decide

/-- Gliuk runs in OPERATIONAL with a watchdog of 100 ms; management Ethernet port 0 is up with UDP, and 200 ms have passed. -/
def managed (rs : List (Reg × W64)) : State :=
  let s := live (rs ++ [(.wdog, 100), (.mgmtEthCfg 0, 5), (.mgmtCfg, 0x0a0a12b602000000)])
  { s with hw := { s.hw with regs := (.hubState, 0x18) :: s.hw.regs, tim := { s.hw.tim with local_ := 128000000 } },
           nv := { s.nv with otp := { s.nv.otp with lc := ⟨2, 2⟩, seed0Valid := true } } }
/-- The cores are released and Gliuk does not run yet. -/
def booting : State :=
  let s := live [(.mgmtCfg, 0x0a0a12b602000000)]
  { s with hw := { s.hw with mgt := { s.hw.mgt with bootFrom := some 5 }, tim := { s.hw.tim with local_ := 128000000 } } }
theorem wit_RestartAndBoot :
    ((managed []).hw.pwr.porHeld = false ∧ (managed []).hw.gliuk = true ∧ (managed []).hw.wdogPast 2 = true ∧ (managed []).hw.wdogPast 1 = true ∧
      (managed []).hw.bit .hubState Fld.hubState_recovery = false ∧ (live []).hw.gliuk = false ∧ (live []).hw.wdogPast 2 = false ∧
      (live []).hw.wdogPast 1 = false ∧ (live []).hw.mgt.bootFrom = none ∧
      (managed []).hw.mgt.wdogHalf = false ∧ (managed []).hw.fld .icCfg Fld.icCfg_routeMode = 0) ∧
    (booting.hw.mgt.bootFrom = some 5 ∧ booting.hw.gliuk = false ∧
      5 + 10 * slotsMs * booting.hw.fld .mgmtCfg Fld.mgmtCfg_bootLimit10ms ≤ booting.hw.tim.local_) := by decide

/-- Source 200 is enabled and pending with count 3; core 2 is enabled, and `b` says whether it serves source 200. -/
def interrupted (b : Bool) : State :=
  live [(.icSrc 200, if b then 0x201 else 0x30101), (.icTarget 2, if b then BitVec.ofNat 64 (3 + 200 * 4) else 1),
    (.collStatus 0, BitVec.ofNat 64 (2 ^ 50)), (.collStatus 1, BitVec.ofNat 64 (2 ^ 50))]
theorem wit_InterruptController :
    ((interrupted false).hw.pwr.porHeld = false ∧ (interrupted false).hw.fld .icCfg Fld.icCfg_routeMode = 0 ∧ icAssigned 200 = true ∧
      (interrupted false).hw.icServing (2 : Core) = false ∧ (interrupted false).hw.bit (.icTarget (2 : Core)) Fld.icTarget_en = true ∧
      (interrupted false).hw.icNext (2 : Core) = some (200, .icSrc 200) ∧ icAssigned 1 = false ∧
      (live []).hw.icServing (2 : Core) = false ∧ (live []).hw.icNext (2 : Core) = none) ∧
    ((interrupted true).hw.icServing (2 : Core) = true ∧
      (interrupted true).hw.fld (.icTarget (2 : Core)) Fld.icTarget_servingSrc = (200 : BitVec 10).toNat) ∧
    ((∀ c, c < 4 → (interrupted false).hw.icServing c = false) ∧
      Fld.icCfg_routeMode.get ((interrupted true).hw.writeWord .icCfg .full 1) ≠ (interrupted true).hw.fld .icCfg Fld.icCfg_routeMode) ∧
    (let s := interrupted false
     let s : State := { s with hw := { s.hw with regs := (.hubState, 0x18) :: s.hw.regs } }
     s.hw.gliuk = true ∧ s.hw.bit (.collStatus 0) Fld.collStatus_stagePending = true ∧ s.hw.stageFree = some 0 ∧ 0 < s.hw.mgt.stageVer.length) := by
  decide +kernel

/-- A message head with the given type and key number, an empty body and no signature worth the name. -/
def message (typ key : Nat) : List Byte :=
  bytesBE 1 1 ++ bytesBE 1 typ ++ bytesBE 1 key ++ bytesBE 4 0 ++ [1] ++ List.replicate 16 0 ++ bytesBE 3 0x4321 ++ List.replicate 119 0
def queued (m : List Byte) : State :=
  let s := managed [(.mgmtCfg, 0x0a0a12b603000000)]
  { s with hw := { s.hw with mgt := { s.hw.mgt with tetherQ := [⟨2, 0, m, 0⟩], txns := [⟨3, 9, 0, 0x10, 2, [], 0, 0⟩] } } }
theorem wit_TetherReceives :
    ((managed []).hw.bit (.mgmtEthCfg (0 : Fin 2)) Fld.mgmtEthCfg_linkUp = true ∧ (managed []).hw.gliuk = true ∧
      (managed []).hw.bit .mgmtCfg Fld.mgmtCfg_udpEn = true ∧
      (managed []).hw.mgt.tetherQ.length + (managed []).hw.mgt.joins.length < 256 ∧ (managed []).hw.fld .icCfg Fld.icCfg_routeMode = 0) ∧
    (tetherForm (message 1 0xfe) = true ∧ getBE (message 1 0xfe) 2 1 = 0xfe ∧ getBE (message 1 0xfe) 1 1 = 1 ∧ getBE (message 1 0xfe) 28 2 = 0 ∧
      ((message 1 0xfe).getD 3 0).getLsbD 0 = false) ∧
    (tetherForm (message 0x10 3) = true ∧ getBE (message 0x10 3) 2 1 = 3 ∧ aget 3 (managed []).nv.keys = none) ∧
    ((queued (message 1 0xfe)).hw.mgt.tetherQ.length = 1 ∧ (queued []).hw.gliuk = true ∧
      (⟨3, 9, 0, 0x10, 2, [], 0, 0⟩ : TTxn) ∈ (queued []).hw.mgt.txns ∧ 0 + 10 * slotsMs ≤ (queued []).hw.tim.local_) ∧
    (let s := queued []
     let x : Taken := { id := 7, port := 8, frame := ⟨0, 0, [], 0, [], true⟩, hdr := VHdr.make 0 0x78 0x12345 0x1, born := 0, tag := none }
     let s : State := { s with hw := { s.hw with buf := { s.hw.buf with taken := [x] } } }
     (s.hw.takeFrame 8 [0x78]).1 = some x ∧ s.hw.bit .mgmtCfg Fld.mgmtCfg_tetherEn = true ∧ x.hdr.dst ≠ linkLocal) ∧
    (let h := (managed []).hw
     let f : Frame := ⟨0, 0, [], 0x86dd, ip6Packet 5 (h.ownIp6 0) 17 255 (h.dieFld 0 .vaethCfg Fld.vaethCfg_mgmtDscpA) (udp6 5 6 7 0x12b6 [1, 2]), true⟩
     (managed []).hw.udpFrame 0 f = true) := by decide +kernel

/-- One checked message of type `typ` with the given body waits; port 16 is UP. -/
def asked (typ : Nat) (body : List Byte) : State :=
  let s := managed [(.portLink 16, 3)]
  { s with hw := { s.hw with mgt := { s.hw.mgt with reqs := [⟨typ, 3, 0, 5, 0x4321, body, 2, 0⟩], joins := [(16, [1])] } } }
theorem wit_TetherServes :
    ((managed []).hw.gliuk = true ∧ (managed []).nv.inService = true ∧ (managed []).hw.ethUp (0 : Fin 2) = true ∧
      (managed []).hw.nodeValid = false ∧ (managed []).hw.dpReady = true ∧
      (managed []).hw.since (managed []).hw.mgt.heartAt (10 * slotsMs * (managed []).hw.fld .mgmtCfg Fld.mgmtCfg_heartbeat10ms) = true ∧
      (managed []).hw.since (some 127000000) (10 * slotsMs * (managed []).hw.fld .mgmtCfg Fld.mgmtCfg_heartbeat10ms) = false ∧
      (managed []).hw.since (managed []).hw.mgt.joinAt slotsSec = true) ∧
    (∀ typ ∈ [0x01, 0x10, 0x20, 0x31, 0x41, 0x50], ((asked typ []).hw.takeReq typ).isSome = true) ∧
    ((∀ n, aget (0x4321 : Node) (asked 1 []).hw.mgt.helloAt = some n → n + 10 * slotsMs ≤ (asked 1 []).hw.tim.local_)) ∧
    (getLE ([1, 0] : List Byte) 0 2 = 0x001) ∧
    (let b : List Byte := [1, 0, 0, 0, 0, 0, 0, 0] ++ bytesBE 8 0 ++ bytesBE 8 0
     getBE b 0 1 = 1 ∧ b.length = 24 ∧ bits (getBE b 8 8) 63 1 = 0 ∧ accDenied .regAccess (getBE b 8 8 % 2 ^ 26) = false) ∧
    ((asked 0x41 [0, 16]).hw.portStart (getBE ([0, 16] : List Byte) 0 2) = true ∧ (asked 0x41 [0, 16]).hw.linkUp (getBE ([0, 16] : List Byte) 0 2) = true ∧
      (asked 0x41 [0, 16]).hw.mayOriginate (portDie (getBE ([0, 16] : List Byte) 0 2)) = true ∧
      ((asked 0x41 []).hw.mgt.joins.find? fun x => x.1 == (16 : Port).val) = some (16, [1])) := by decide +kernel

/-- A Bridle of KIND 2 on group 7, generation 3, window 1, at home on C-die[0]: member 0 is on port 8, member 1 on port 300, the parent on
port 16 when `up`. Its one position expects sequence 5. -/
def bridle (up : Bool) (st : BState) (ps : PosState) : Bridle :=
  let x : Pos := { Pos.blank 5 with state := ps, data := [1, 2], roff := 64, straggle := some 0 }
  { ix := 2, group := 7, gen := 3, state := st, kind := 2, exact := false, twin := false, winLog2 := 0, home := 0, canon := 56, recipe := 0,
    parentPort := 16, parentEn := up, parentMember := 4, parentNode := 0x99, memberBase := 0,
    members := [⟨8, true, false, 0x11, 0, 8⟩, ⟨300, true, false, 0x22, 8, 8⟩], elements := 64, chunkUnits := 1, straggleUs := 200, abortUs := 5000,
    ranks := 16, ownerShift := 0, rootRank := 0, firstSeq := 5, seqLow := 5, abortSeq := 0, abortReason := 0, abortMember := 0,
    slots := ⟨1, 0, 0, 0⟩, pos := [x], heard := [], repeats := 0, since := 0, stageSet := 0, closers := [] }
/-- A consumed frame of `op` from group 7, generation 3, with MEMBER and the low bits of OP_DATA, waits on port `p`. -/
def collTaken (op p m low : Nat) : Taken :=
  let d : VHdr := { VHdr.make 2 op 0x77 0x11 with seq := 5, roff := 64, plen := 256, opData := BitVec.ofNat 64 (7 * 2 ^ 48 + 3 * 2 ^ 40 + m * 2 ^ 30 + low) }
  { id := 1, port := p, frame := ⟨0, 0, [], 0, d.bytes ++ List.replicate 256 0xab, true⟩, hdr := d, born := 639999000, tag := none }
def collecting (b : Bridle) (x : Taken) : State :=
  let s := live [(.nodeId, 0x8000000000000077), (.floorPath (floorK 1 0), 0xffff)]
  { s with hw := { s.hw with coll := ⟨[b], [], []⟩, buf := { s.hw.buf with taken := [x], nextId := 9 },
                             tim := { s.hw.tim with slot := Four.all 640000000 } } }
theorem collFrame_of (p : Port) (op : Nat) (x : Taken) (b : Bridle) (src : Toward)
    (h : (collecting b x).hw.takeFrame p [op] = (some x, ((collecting b x).hw.takeFrame p [op]).2) ∧
      ((collecting b x).hw.coll.bridles.find? fun y => y.group.toNat == x.hdr.opData.toNat / 2 ^ 48 &&
        (collecting b x).hw.bridleIn (portDie p) y) = some b ∧
      (collecting b x).hw.collBad (portDie p) b x.hdr = [] ∧ x.hdr.gen = b.gen ∧ b.state ≠ .aborted ∧
      (b.state = .pending → op = 0x65 ∧ src = .parent) ∧ b.pos.length = b.win ∧
      (collecting b x).hw.bit .errInject Fld.errInject_arm = false)
    (hs : FromSender b p x.hdr.member src) : CollFrame (collecting b x) p op x b src :=
  ⟨by rw [h.1], h.2.1, h.2.2.1, h.2.2.2.1, h.2.2.2.2.1, h.2.2.2.2.2.1, hs, h.2.2.2.2.2.2.1, h.2.2.2.2.2.2.2⟩
theorem wit_CollectiveFramesMoveTheirPosition :
    (CollFrame (collecting (bridle false .ready .free) (collTaken 0x60 8 0 0)) 8 0x60 (collTaken 0x60 8 0 0) (bridle false .ready .free) (.member 0) ∧
      (collTaken 0x60 8 0 0).hdr.plen.toNat = 256 * 1 ∧ (bridle false .ready .free).contributes 5 ((bridle false .ready .free).mem 0) = true ∧
      (bridle false .ready .free).classify 5 = .current) ∧
    (CollFrame (collecting (bridle true .ready .up) (collTaken 0x61 16 4 0)) 16 0x61 (collTaken 0x61 16 4 0) (bridle true .ready .up) .parent ∧
      ((bridle true .ready .up).at ((bridle true .ready .up).posOf 5)).state = .up ∧ (bridle true .ready .up).receivers 5 = [0, 1]) ∧
    (CollFrame (collecting (bridle false .ready .hold) (collTaken 0x62 300 1 0)) 300 0x62 (collTaken 0x62 300 1 0) (bridle false .ready .hold)
      (.member 1) ∧ (collTaken 0x62 300 1 0).hdr.low30 < 2 ^ 29) ∧
    (CollFrame (collecting (bridle false .ready .hold) (collTaken 0x63 300 1 0)) 300 0x63 (collTaken 0x63 300 1 0) (bridle false .ready .hold)
      (.member 1) ∧ CanSend (collecting (bridle false .ready .hold) (collTaken 0x63 300 1 0)).hw (bridle false .ready .hold) (.member 1)) ∧
    CollFrame (collecting (bridle false .ready .hold) (collTaken 0x64 8 0 0x8000000)) 8 0x64 (collTaken 0x64 8 0 0x8000000)
      (bridle false .ready .hold) (.member 0) ∧
    (CollFrame (collecting (bridle true .pending .free) (collTaken 0x65 16 4 0)) 16 0x65 (collTaken 0x65 16 4 0) (bridle true .pending .free)
      .parent ∧ (collTaken 0x65 16 4 0).hdr.low30 < 2 ^ 28) := by
  refine ⟨⟨collFrame_of _ _ _ _ _ ?_ ?_, ?_⟩, ⟨collFrame_of _ _ _ _ _ ?_ ?_, ?_⟩, ⟨collFrame_of _ _ _ _ _ ?_ ?_, ?_⟩,
    ⟨collFrame_of _ _ _ _ _ ?_ ?_, ⟨?_, ?_, ?_⟩⟩, collFrame_of _ _ _ _ _ ?_ ?_, ⟨collFrame_of _ _ _ _ _ ?_ ?_, ?_⟩⟩ <;>
    first | decide +kernel | (show _ ∧ _; decide +kernel)

/-- The one position of a Bridle holds member 0's contribution in a context of quadrant `q`, which has left for the home die. -/
def bridleWith (q : Nat) (home : Bool) (up : Bool) : Bridle :=
  let b := bridle up .ready .opened
  let y : QCtx := { QCtx.new q false with got := [0, 1], carried := some [7, 8], sent := true, home := home }
  { b with pos := b.pos.map fun x => { x with ctx := [y], straggle := some 0 } }
/-- The one position of a Bridle in twin mode has its contexts on the die and its twin. -/
def twinned (q : Nat) (home : Bool) : Bridle :=
  let b := bridle false .ready .opened
  let y : QCtx := { QCtx.new q false with got := [0, 1], sent := true, home := home }
  { b with kind := 0, twin := true, pos := b.pos.map fun x => { x with ctx := [y, { y with twin := true }] } }
theorem wit_PositionsFinishAndTimeOut_digest :
    stageDigest [1] ≠ stageDigest ((collecting (twinned 0 true) (collTaken 0x60 8 0 0)).hw.finishOutput (twinned 0 true)
      ((twinned 0 true).posOf 5)).1.bytes := by decide +kernel
theorem wit_PositionsFinishAndTimeOut :
    (let s := collecting (bridleWith 1 false false) (collTaken 0x60 8 0 0)
     s.hw.bridleAt 2 = some (bridleWith 1 false false) ∧ (bridleWith 1 false false).pos.length = (bridleWith 1 false false).win ∧
       s.hw.bit .errInject Fld.errInject_arm = false ∧ (((bridleWith 1 false false).at 0).onWay 1).isSome = true ∧
       ((bridleWith 1 false false).at ((bridleWith 1 false false).posOf 5)).expect = 5 ∧ s.hw.pathUp 1 0 = true) ∧
    ((collecting (twinned 1 false) (collTaken 0x60 8 0 0)).hw.pathUp 1 0 = true ∧ (twinned 0 true).complete 0 = true ∧ (twinned 0 true).kind < 2 ∧
      ((bridleWith 1 false false).at ((bridleWith 1 false false).posOf 5)).onWay 2 = none) ∧
    ((bridleWith 0 true false).complete 0 = true ∧ (bridleWith 0 true false).receivers 5 = [0, 1] ∧ (bridleWith 0 true true).complete 0 = true) ∧
    (let s := collecting (bridle false .ready .opened) (collTaken 0x60 8 0 0)
     ((bridle false .ready .opened).at 0).straggle = some 0 ∧ 0 + slotsUs * 200 ≤ s.hw.slot 0 ∧ (s.hw.err.quadQ.get 0).length < 4096 ∧
       ((bridle false .ready .opened).at 0).opened + slotsUs * 5000 ≤ s.hw.slot 0 ∧
       ((bridle false .ready .opened).ixs.filter fun i => !(bridle false .ready .opened).heard.contains i) = [0, 1] ∧
       CanSend s.hw (bridle false .ready .opened) (.member 0)) ∧
    (let s := collecting (bridle true .pending .free) (collTaken 0x60 8 0 0)
     s.hw.bridleAt 2 = some (bridle true .pending .free) ∧ CanSend s.hw (bridle true .pending .free) .parent) := by
  refine ⟨?_, ?_, ?_, ⟨?_, ?_, ?_, ?_, ?_, ⟨?_, ?_, ?_⟩⟩, ⟨?_, ⟨?_, ?_, ?_⟩⟩⟩ <;> decide +kernel

/-- Ring 1 is RUNNING with 64 entries each way and has started the descriptor of these bytes; Bus Master Enable is set. -/
def commanded (bytes : List Byte) (rs : List (Reg × W64)) : State :=
  let s := live ([(.ringStatus 1, BitVec.ofNat 64 (2 ^ Fld.ringStatus_state.lo)), (.ringCtl 1, 0x319)] ++ rs)
  { s with hw := { s.hw with hst := { s.hw.hst with busMaster := true, pcieUp := true, started := [⟨1, 4, padTo 64 bytes, false, [], 0, none⟩] } } }
def descOf (bytes : List Byte) : Desc := ⟨1, 4, padTo 64 bytes, false, [], 0, none⟩
/-- BRIDLE_CREATE of a Bridle of KIND 2 on group 7 with the one member on port 8. -/
def createBytes : List Byte :=
  bytesLE 8 0x30 ++ bytesLE 8 (7 + 3 * 2 ^ 16 + 2 * 2 ^ 28) ++ bytesLE 8 0 ++ bytesLE 8 (2 ^ 18 + 64 * 2 ^ 32 + 2 ^ 48) ++ bytesLE 8 (16 * 2 ^ 32) ++
    bytesLE 8 (5 * 2 ^ 18)
def memberBytes : List Byte := bytesLE 8 (8 + 2 ^ 10 + 0x11 * 2 ^ 16) ++ bytesLE 8 (16 * 2 ^ 32)
def creating : State := commanded createBytes [(.nodeId, 0x8000000000000077), (.octetCfg 1, 1), (.portLink 8, 3)]
theorem wit_BridlesAreCreatedAndClosed_create :
    Runs creating 1 0x030 (descOf createBytes) ∧
    (let a := bridleAskOf (descOf createBytes).bytes memberBytes
     creating.hw.hst.mayRequest = true ∧ a = bridleAskOf (descOf createBytes).bytes (memberBytes.take (16 * a.count)) ∧ a.count = 1 ∧
       16 * a.count ≤ memberBytes.length ∧ creating.hw.nodeValid = true ∧ creating.hw.coll.bridles = [] ∧
       aget (BitVec.ofNat 16 (a.f 0 0 16)) creating.hw.coll.lastGen = none ∧ creating.hw.bridleFields a = true ∧
       (a.list.all fun m => creating.hw.inService m.port) = true ∧ a.parentEn = false ∧ creating.hw.poolPlace a.count = some 0 ∧
       ((List.range 4).all fun c => decide ((a.bridle 0 0 0 0).slots.get c ≤ creating.hw.freeSlots creating.nv.disabled c)) = true ∧
       creating.hw.someLost = false) := by
  refine ⟨⟨?_, ?_, ?_, ?_, ?_⟩, ?_⟩ <;> decide +kernel
def closing (flags : Nat) (b : Bridle) : State :=
  let s := commanded (bytesLE 2 0x31 ++ bytesLE 2 flags ++ bytesLE 4 9 ++ bytesLE 2 2 ++ bytesLE 2 7 ++ bytesLE 1 3) []
  { s with hw := { s.hw with coll := ⟨[b], [], []⟩ } }
theorem wit_BridlesAreCreatedAndClosed :
    (Runs (closing 0 (bridle false .ready .free)) 1 0x031 (descOf (bytesLE 2 0x31 ++ bytesLE 2 0 ++ bytesLE 4 9 ++ bytesLE 2 2 ++ bytesLE 2 7 ++ bytesLE 1 3)) ∧
      (closing 0 (bridle false .ready .free)).hw.closeTarget
        (descOf (bytesLE 2 0x31 ++ bytesLE 2 0 ++ bytesLE 4 9 ++ bytesLE 2 2 ++ bytesLE 2 7 ++ bytesLE 1 3)).bytes = some (bridle false .ready .free)) ∧
    (Runs (closing 1 (bridle false .ready .free)) 1 0x031 (descOf (bytesLE 2 0x31 ++ bytesLE 2 1 ++ bytesLE 4 9 ++ bytesLE 2 2 ++ bytesLE 2 7 ++ bytesLE 1 3)) ∧
      bits (descOf (bytesLE 2 0x31 ++ bytesLE 2 1 ++ bytesLE 4 9)).flags 0 1 = 1) ∧
    (let b := { bridle false .draining .free with closers := [.host 4] }
     (closing 0 b).hw.bridleAt 2 = some b ∧ ((closing 0 b).hw.hst.started.find? fun x => x.ix == 4).isSome = true ∧
       (b.pos.all fun y => y.state == .free) = true ∧ (closing 0 b).hw.someLost = false) ∧
    (let b : List Byte := bytesLE 2 0x38 ++ List.replicate 14 0 ++ bytesLE 8 0 ++ bytesLE 8 0x3f800000 ++ bytesLE 8 0 ++ bytesLE 8 0
     Runs (commanded b []) 1 0x038 (descOf b) ∧ (Rcp.ofWords 1 0x3f800000 0 0).allowed = true) ∧
    Runs (commanded (bytesLE 2 0x39) []) 1 0x039 (descOf (bytesLE 2 0x39)) := by
  refine ⟨⟨⟨?_, ?_, ?_, ?_, ?_⟩, ?_⟩, ⟨⟨?_, ?_, ?_, ?_, ?_⟩, ?_⟩, ?_, ⟨⟨?_, ?_, ?_, ?_, ?_⟩, ?_⟩, ⟨?_, ?_, ?_, ?_, ?_⟩⟩ <;> decide +kernel

theorem wit_LanesTakeContributionsInAnyOrder :
    [(1, [(2 : Byte)]), (3, [4]), (5, [6])].Perm [(5, [6]), (1, [2]), (3, [4])] ∧ aget 3 (QCtx.new 0 false).lanes = none ∧
    (Rcp.ofWords 1 0 0 0).path true = .exact ∧ (Rcp.ofWords 3 0 0 0).op = 1 ∧ (Rcp.ofWords 0xa1 0 0 0).path false = .int := by decide

/-- A Gondola frame of `op` with OP_DATA, an offset and a payload waits on port `p`; the exporter is enabled with 4 GiB in window 0, ATOM_IDLE_MS
and the like as after reset, and the requester 0x11 is on port 24. -/
def gonTaken (op p tc : Nat) (opData : W64) (roff : BitVec 40) (pl : List Byte) : Taken :=
  let d : VHdr := { VHdr.make tc op 0x77 0x11 with seq := 5, roff := roff, plen := BitVec.ofNat 16 pl.length, opData := opData }
  { id := 1, port := p, frame := ⟨0, 0, [], 0, d.bytes ++ pl, true⟩, hdr := d, born := 639999000, tag := none }
def serving (x : List Taken) : State :=
  let s := live [(.nodeId, 0x8000000000000077), (.gondolaCfg, 0x0019180064000401), (.gondolaWin 0, 0x80000000000), (.bufClass 0 5, 0x200020),
    (.bufClass 0 6, 0x200020)] |>.onHw fun h => (List.range 12).foldl (fun h k => h.setReg (.floorPath k) 0xffff) h
  let fwd := { s.hw.fwd with exc := Four.all [⟨0x11, true, 0, 24, false, false, 0, false⟩] }
  { s with hw := { s.hw with fwd := fwd, buf := { s.hw.buf with taken := x, nextId := 9 }, tim := { s.hw.tim with slot := Four.all 640000000 } } }
def w1 : Taken := gonTaken 0x40 8 5 0x8000000000000000 0x100 (List.replicate 64 7)
def r1 : Taken := gonTaken 0x41 8 5 16 0x100 []
def dirBytes : List Byte := bytesLE 8 0x1234 ++ bytesLE 8 0x5678 ++ bytesLE 5 0x4000 ++ bytesLE 3 0x77 ++ bytesLE 8 0
def d1 (op : Nat) : Taken := gonTaken 0x4a 8 6 (BitVec.ofNat 64 (op * 2 ^ 60)) 0 dirBytes
def copyBytes : List Byte := bytesLE 8 (9 * 2 ^ 32) ++ bytesLE 5 0x1000 ++ bytesLE 3 0x77 ++ bytesLE 5 0x2000 ++ bytesLE 3 0x77 ++ bytesLE 4 100 ++ List.replicate 36 0
def k1 : Taken := gonTaken 0x48 8 5 0 0 copyBytes
theorem wit_GondolaServesRequests :
    (((serving [w1]).hw.takeFrame 8 [0x40]).1 = some w1 ∧ w1.hdr.src ≠ linkLocal ∧ (serving [w1]).mem.wf = true ∧
      (serving [w1]).hw.bit .errInject Fld.errInject_arm = false ∧ (serving [w1]).hw.admits 0 (respClass 5) (vframeLen 0) = true ∧
      (serving [w1]).hw.memStatus 0x100 64 false = 0 ∧ w1.hdr.roff.toNat = 0x100 ∧ w1.hdr.plen.toNat = 64 ∧
      (serving [w1]).hw.memStatus 0 0 false ≠ 0 ∧ (serving [w1]).hw.serves 8 (reqQuads 0x100 64) = true) ∧
    (let x : Taken := { w1 with hdr := { w1.hdr with src := linkLocal, opData := 0 } }
     ((serving [x]).hw.takeFrame 8 [0x40]).1 = some x ∧ x.hdr.opData.getLsbD 63 = false ∧ (serving [x]).hw.serves 8 (reqQuads 0x100 64) = true) ∧
    (((serving [r1]).hw.takeFrame 8 [0x41]).1 = some r1 ∧ 16 = r1.hdr.opData.toNat % 16384 ∧ (serving [r1]).hw.memStatus 0x100 16 false = 0 ∧ (serving [r1]).hw.serves 8 (reqQuads 0x100 16) = true ∧
      (serving [r1]).mem.poisoned 0x100 16 = false ∧ (serving [r1]).hw.gon.planted = [] ∧
      (serving [r1]).hw.admits 0 (respClass 5) (vframeLen 16) = true) := by decide +kernel
theorem wit_GondolaServesRequests_route : Routes (serving [r1]).hw (portDie (8 : Port)) 0x11 24 :=
  ⟨by decide, by decide, ⟨⟨0x11, true, 0, 24, false, false, 0, false⟩, by decide, rfl, rfl⟩, by decide, by decide, by decide⟩
theorem wit_GondolaServesRequests_more :
    (((serving [d1 2]).hw.takeFrame 8 [0x4a]).1 = some (d1 2) ∧ (d1 2).hdr.plen = 32 ∧ (serving [d1 2]).hw.admits 0 6 (vframeLen 32) = true ∧
      (serving [d1 2]).hw.bit .gondolaCfg Fld.gondolaCfg_enable = true ∧ (d1 2).hdr.opData.toNat / 2 ^ 60 = 2 ∧
      (let ent := dirEntOf (d1 2).frame.payload
       ((serving [d1 2]).hw.dirDies ent).all (serving [d1 2]).hw.memServes = true ∧ (serving [d1 2]).hw.serves 8 ((serving [d1 2]).hw.dirDies ent) = true ∧ ent.locOffset.toNat % 16384 = 0 ∧ ent.tag = 0 ∧
         (serving [d1 2]).hw.gon.dir.find? ent.same = none ∧ (serving [d1 2]).hw.dirPlace ent = some false ∧ ent.same ent = true)) ∧
    (((serving [k1]).hw.takeFrame 8 [0x48]).1 = some k1 ∧ k1.hdr.plen = 64 ∧ getLE k1.frame.payload 0 2 = 0 ∧
      (let d := copyOf k1.frame.payload 0 (.fabric k1.hdr 0)
       d.len = 100 ∧ (serving [k1]).hw.admits 0 d.cls (vframeLen 0) = true) ∧ (serving [k1]).hw.gon.copies.get 0 = []) ∧
    (let x := gonTaken 0x49 8 5 0 0 []
     ((serving [x]).hw.takeFrame 8 [0x49]).1 = some x ∧ ((serving [x]).hw.regs.all fun r => match r.1 with | .cntSel _ _ => false | _ => true) = true) ∧
    (let x := gonTaken 0x45 8 6 0 0 []
     ((serving [x]).hw.takeFrame 8 [0x45, 0x4b]).1 = some x) := by decide +kernel

def a1 : Taken := gonTaken 0x44 8 6 0x1000000000000000 0x100 (bytesLE 8 3 ++ bytesLE 8 0)
def withRec (done : Bool) : State :=
  let s := serving [a1]
  let r : AtomRec := { die := recDie 0x11, requester := 0x11, high := 6, slots := [(5, ⟨5, done, 0, 41⟩)], poisoned := false, lastUse := 0 }
  { s with hw := { s.hw with gon := { s.hw.gon with recs := [r], atomQ := [⟨a1.hdr, a1.frame.payload, 8, false, []⟩] } } }
theorem wit_AtomicsApplyOnce :
    (((serving [a1]).hw.takeFrame 8 [0x44]).1 = some a1 ∧ a1.hdr.src ≠ linkLocal ∧ (serving [a1]).hw.admits 0 6 (vframeLen 8) = true ∧
      (serving [a1]).hw.memServes (offQuad a1.hdr.roff.toNat) = true ∧ (serving [a1]).hw.memServes (recDie a1.hdr.src) = true ∧
      (serving [a1]).hw.serves 8 [recDie a1.hdr.src, offQuad a1.hdr.roff.toNat] = true ∧
      (serving [a1]).hw.atomRec a1.hdr.src = none ∧ (serving [a1]).hw.gon.recs = []) ∧
    ((withRec true).hw.atomRec 0x11 = some ⟨recDie 0x11, 0x11, 6, [(5, ⟨5, true, 0, 41⟩)], false, 0⟩ ∧
      ((withRec true).hw.takeFrame 8 [0x44]).1 = some a1) ∧
    (let s := withRec true
     let mark (y : AtomRec) : AtomRec := { y with poisoned := true }
     let s : State := { s with hw := { s.hw with gon := { s.hw.gon with recs := s.hw.gon.recs.map mark } } }
     (s.hw.takeFrame 8 [0x44]).1 = some a1 ∧ ((s.hw.atomRec 0x11).any fun y => y.poisoned && decide ((y.high - 5).toNat < 2 ^ 31)) = true) ∧
    (let y : AtomReq := ⟨a1.hdr, a1.frame.payload, 8, false, []⟩
     (withRec false).hw.gon.atomQ = [y] ∧ (y.hdr.src == 0x11 && y.hdr.seq == 5) = true ∧ y.hdr.plen = 16 ∧ y.hdr.opData.toNat / 2 ^ 60 = 1 ∧
       (withRec false).hw.pathBoth (recDie y.hdr.src) (offQuad y.hdr.roff.toNat) = true ∧
       (withRec false).hw.pathUp (recDie y.hdr.src) (portDie y.port) = true ∧
       (withRec false).hw.inWindow y.hdr.roff.toNat 8 = true ∧ (withRec false).mem.poisoned y.hdr.roff.toNat 8 = false ∧
       (withRec false).mem.wf = true ∧ (withRec false).hw.gon.planted = []) := by decide +kernel
theorem wit_AtomicsApplyOnce_route : Routes (withRec true).hw (portDie (8 : Port)) 0x11 24 :=
  ⟨by decide, by decide, ⟨⟨0x11, true, 0, 24, false, false, 0, false⟩, by decide, rfl, rfl⟩, by decide, by decide, by decide⟩

/-- C-die[1] holds copy 3, whose end completes descriptor 4 of ring 1. -/
def copying (k : CopyDesc) (x : List Taken) : State :=
  let s := serving x
  let t := commanded [0] []
  { s with hw := { s.hw with hst := t.hw.hst, regs := s.hw.regs ++ t.hw.regs, gon := { s.hw.gon with copies := s.hw.gon.copies.set 1 [k] } } }
def copyDesc (kind : CopyKind) (segs : List Seg) (cancelled : Bool) : CopyDesc :=
  { id := 3, from_ := .host 1 4, kind := kind, lastAfterAck := false, cls6 := false, tag := 0, srcNode := 0x11, srcOff := 0, dstNode := 0x77,
    dstOff := 0x200, len := 16, hostAddr := 0, cut := if segs.isEmpty then 0 else 16, segs := segs, prefixDone := 0, cancelled := cancelled, turn := none }
def segAt (st : SegState) (n : Nat) : Seg := { off := 0, len := 16, st := st, seq := 5, data := [], reissues := n, sentAt := 0 }
def rresp : Taken := gonTaken 0x42 8 5 0 0 (List.replicate 16 9)
def wack : Taken := { gonTaken 0x43 8 5 0 0 [] with hdr := { (gonTaken 0x43 8 5 0 0 []).hdr with src := 0x77 } }
theorem wit_CopiesMoveBytesAndEnd_commands :
    (let b : List Byte := bytesLE 8 0x40 ++ copyBytes.drop 8
     Runs (commanded b []) 1 0x040 (descOf b) ∧ (copyOf (descOf b).bytes 0 (.host 1 4)).len ≠ 0) ∧
    Runs (commanded (bytesLE 8 0x41) []) 1 0x041 (descOf (bytesLE 8 0x41)) ∧ Runs (commanded (bytesLE 8 0x42) []) 1 0x042 (descOf (bytesLE 8 0x42)) := by
  refine ⟨⟨⟨?_, ?_, ?_, ?_, ?_⟩, ?_⟩, ⟨?_, ?_, ?_, ?_, ?_⟩, ⟨?_, ?_, ?_, ?_, ?_⟩⟩ <;> decide
theorem wit_CopiesMoveBytesAndEnd :
    (let s := copying (copyDesc .fromHost [] false) []
     s.mem.wf = true ∧ s.hw.quadOk 1 = true ∧ s.hw.parked 1 = false ∧ s.hw.gon.copies.get 1 = [copyDesc .fromHost [] false] ∧
       (s.hw.hst.started.find? fun y => y.ix == 4).isSome = true ∧ s.hw.hst.mayRequest = true ∧ s.hw.memStatus 0x200 16 true = 0 ∧
       s.hw.bit .errInject Fld.errInject_arm = false ∧ s.hw.err.hubLost.get 1 = false ∧ s.hw.reaches 1 0x200 16 = true ∧
       s.mem.poison = [] ∧ s.hw.gon.planted = []) ∧
    (let k := copyDesc .copy [segAt .reading 0] false
     let s := copying k [rresp]
     (s.hw.takeFrame 8 [0x42]).1 = some rresp ∧ s.hw.copyDie rresp.hdr.src rresp.hdr.seq false = some 1 ∧
       s.hw.copyFor 1 rresp.hdr.src rresp.hdr.seq false = some (k, segAt .reading 0) ∧ rresp.hdr.plen.toNat = 16 ∧ k.dstNode = s.hw.node ∧
       s.hw.memStatus 0x200 16 false = 0 ∧ s.hw.reaches 1 0x200 16 = true ∧ (s.hw.gon.copies.get 1).all (fun z => z.id != k.id || z == k) = true) ∧
    (let k := copyDesc .copy [segAt .writing 0] false
     let s := copying k [wack]
     (s.hw.takeFrame 8 [0x43]).1 = some wack ∧ s.hw.copyDie wack.hdr.src wack.hdr.seq true = some 1 ∧
       s.hw.copyFor 1 wack.hdr.src wack.hdr.seq true = some (k, segAt .writing 0)) ∧
    (let s := serving [rresp]
     (s.hw.takeFrame 8 [0x42]).1 = some rresp ∧ s.hw.copyDie rresp.hdr.src rresp.hdr.seq false = none) ∧
    (let s := copying (copyDesc .copy [segAt .reading 1] false) []
     (s.hw.copy 1 3).isSome = true ∧ 0 + slotsMs * s.hw.fld .gondolaCfg Fld.gondolaCfg_copyRetryMs ≤ s.hw.slot 1 ∧ s.hw.mayOriginate 1 = true ∧
       s.hw.admits 1 5 (vframeLen 0) = true) := by decide +kernel

def repairing : State :=
  let s := serving []
  { s with hw := { s.hw with gon := { s.hw.gon with repairing := [lineRow ⟨5, 256, 0, 0⟩] } } }
theorem wit_StacksAreKeptAndWritesChecked :
    ((serving []).hw.quadOk (stackQuad (pcStack 5)) = true ∧ (serving []).hw.parked (stackQuad (pcStack 5)) = false ∧
      (serving []).hw.gon.planted = [] ∧ ((serving []).hw.err.quadQ.get 0).length < 4096 ∧
      gondolaOff 5 256 < (serving []).hw.exportBytes) ∧
    (lineRow ⟨5, 256, 0, 0⟩ ∈ repairing.hw.gon.repairing ∧ (serving []).hw.exportBytes ≤ gondolaOff 5 (2 ^ 29)) ∧
    ((serving []).hw.pwr.porHeld = false ∧ (serving []).hw.dpReady = true) ∧
    (let w := (serving []).hw.writeWord .gondolaCfg .full 0x0019180064000401
     Fld.gondolaCfg_exportGib.get w + 4 * (serving []).hw.spillMax ≤ 368 ∧ 1 ≤ Fld.gondolaCfg_atomIdleMs.get w ∧ 1 ≤ Fld.gondolaCfg_scrubH.get w ∧
       1 ≤ Fld.gondolaCfg_copyRetryMs.get w ∧ Fld.gondolaCfg_exportGib.get w = (serving []).hw.fld .gondolaCfg Fld.gondolaCfg_exportGib ∧
       ((List.range 16).all fun i => decide ((serving []).hw.fld (.gondolaWin i) Fld.gondolaWin_base +
         (serving []).hw.fld (.gondolaWin i) Fld.gondolaWin_size ≤ 512 * Fld.gondolaCfg_exportGib.get w)) = true) ∧
    (let w := (serving []).hw.writeWord .gondolaCfg .full 0x0019180064017101
     368 < Fld.gondolaCfg_exportGib.get w + 4 * (serving []).hw.spillMax) ∧
    (let w := (serving []).hw.writeWord (.gondolaWin 3) .full 0x80000000000
     Fld.gondolaWin_base.get w + Fld.gondolaWin_size.get w = 512 * (serving []).hw.fld .gondolaCfg Fld.gondolaCfg_exportGib) ∧
    (let w := (serving []).hw.writeWord (.gondolaWin 3) .full 0x80000000001
     512 * (serving []).hw.fld .gondolaCfg Fld.gondolaCfg_exportGib < Fld.gondolaWin_base.get w + Fld.gondolaWin_size.get w) := by decide +kernel

/-- Ring 1 is in state `st` with 64 entries each way, one completion ahead of the host and one descriptor to fetch. -/
def ringIn (st : Nat) (started : List Desc) (x : RingSt) : State :=
  let word := BitVec.ofNat 64 (st * 2 ^ Fld.ringStatus_state.lo + 3 * 2 ^ Fld.ringStatus_sqTail.lo + 2 ^ Fld.ringStatus_cqTail.lo)
  let s := live [(.ringStatus 1, word), (.ringCtl 1, BitVec.ofNat 64 (0x319 + 2 ^ 41 + 7 * 2 ^ 30))]
  let hst := { s.hw.hst with busMaster := true, pcieUp := true, rings := [(1, x)], started := started, msixPending := [9], nextIx := 5 }
  { s with hw := { s.hw with hst := hst, tim := { s.hw.tim with local_ := 64000000 } } }
def recDesc (begun : Bool) : Desc :=
  ⟨1, 4, bytesLE 8 0x70 ++ bytesLE 8 0x4000 ++ bytesLE 8 4096, begun, if begun then [1, 2] else [], if begun then 1 else 0, if begun then some 5 else none⟩
theorem wit_RingsTakeDoorbellsAndDescriptors :
    (let s := ringIn 1 [] { RingSt.fresh with armed := true, waiting := [0] }
     s.hw.pwr.porHeld = false ∧ s.hw.ringState 1 = 1 ∧ s.hw.sqSize 1 = 64 ∧ (63 : W64).toNat % 65536 < s.hw.sqSize 1 ∧
       s.hw.sqSize 1 ≤ (64 : W64).toNat % 65536 ∧ 1 < s.hw.cqSize 1 ∧
       ringDist (s.hw.cqSize 1) (s.hw.ring 1).cqHead 1 ≤
         ringDist (s.hw.cqSize 1) (s.hw.ring 1).cqHead (s.hw.fld (.ringStatus 1) Fld.ringStatus_cqTail) ∧
       s.hw.hst.mayRequest = true ∧ s.hw.fld (.ringStatus 1) Fld.ringStatus_sqHead ≠ s.hw.fld (.ringStatus 1) Fld.ringStatus_sqTail ∧
       s.hw.cqRoom 1 = true ∧ s.hw.unbegun 1 = none ∧ s.hw.mayTurn 1 = true ∧ s.hw.cqSize 1 ≤ (64 : W64).toNat % 65536 ∧ 0 + slotsUs * s.hw.fld (.ringCtl 1) Fld.ringCtl_coalUs ≤ s.hw.tim.local_ ∧
       s.hw.bit (.ringCtl 1) Fld.ringCtl_irqEn = true ∧ 9 ∈ s.hw.hst.msixPending) ∧
    ((ringIn 0 [] RingSt.fresh).hw.ringState 1 = 0 ∧ (ringIn 3 [] RingSt.fresh).hw.ringState 1 = 3 ∧ (ringIn 4 [] RingSt.fresh).hw.ringState 1 = 4) ∧
    ((ringIn 2 [recDesc true] RingSt.fresh).hw.ringState 1 = 2 ∧ (recDesc true).opcode = 0x070) ∧
    (let d : Desc := ⟨1, 5, padTo 64 (bytesLE 8 1), false, [], 0, none⟩
     d.bytes.length = 64 ∧ d.order = false ∧ opAssigned d.opcode = true ∧ opOnRing d.opcode 0 = true ∧
       (ringIn 1 [] RingSt.fresh).hw.fld (.ringCtl 1) Fld.ringCtl_kind = 0) ∧
    ((ringIn 1 [recDesc false] RingSt.fresh).hw.unbegun 1 = some (recDesc false) ∧ getLE (recDesc false).bytes 16 4 = 4096 ∧
      getLE (recDesc false).bytes 8 8 % 64 = 0 ∧ (ringIn 1 [recDesc false] RingSt.fresh).hw.fatalChip = false) ∧
    ((ringIn 1 [recDesc true] RingSt.fresh).hw.recBufs 1 = [recDesc true] ∧
      5 + slotsUs * (ringIn 1 [] RingSt.fresh).hw.fld .hqCtl Fld.hqCtl_recordFlushUs ≤ (ringIn 1 [] RingSt.fresh).hw.tim.local_) ∧
    ¬(4 = 8 ∧ ((8 : BitVec 20).toNat % 4096 = 0 ∨ (8 : BitVec 20).toNat % 4096 = 8)) := by decide +kernel

/-- Ring 1 has started a command; the exception table holds node 0x222, group 3 the ports 8 and 9, the stage set `l`, and copy 3 runs. -/
def tables (bytes : List Byte) (l : List StageItem) : State :=
  let s := commanded bytes [(.gondolaCfg, 0x0019180064000401)]
  let run : Desc := ⟨1, 7, padTo 64 (bytesLE 2 0x40 ++ bytesLE 2 0 ++ bytesLE 4 99), true, [], 0, none⟩
  let fwd := { s.hw.fwd with exc := Four.all [⟨0x222, true, 0, 8, false, false, 0, false⟩], mcast := Four.all [(3, [8, 9])] }
  let gon := { s.hw.gon with dir := [⟨0x1234, 0x5678, 0x4000, 0x77, 0, 0, false, false⟩] }
  { s with hw := { s.hw with fwd := fwd, gon := gon, hst := { s.hw.hst with started := run :: s.hw.hst.started, stage := l, stageOwner := 1 } } }
/-- The bytes of a command with opcode, FLAGS and what follows. -/
def cmdOf (op flags : Nat) (l : List Byte) : List Byte := bytesLE 2 op ++ bytesLE 2 flags ++ bytesLE 4 0 ++ l
theorem runs_of (s : State) (r : Ring) (op : Nat) (d : Desc)
    (h : s.hw.unbegun r = some d ∧ d.opcode = op ∧ s.hw.mayTurn r = true ∧ s.hw.fatalChip = false ∧ s.hw.dpReady = true) : Runs s r op d :=
  ⟨h.1, h.2.1, h.2.2.1, h.2.2.2.1, h.2.2.2.2⟩
theorem wit_CommandsChangeTablesWholly :
    ((∀ q, q < 4 → (tables (cmdOf 1 0 []) []).hw.err.hubLost.get q = false) ∧ (tables (cmdOf 1 0 []) []).hw.fwd.gathered = none ∧
      (tables (cmdOf 1 0 []) []).hw.unbegun 1 = some (descOf (cmdOf 1 0 [])) ∧
      (tables (cmdOf 0x62 0 []) []).hw.unbegun 1 = some (descOf (cmdOf 0x62 0 []))) ∧
    (Runs (tables (cmdOf 2 0 (bytesLE 4 99)) []) 1 0x002 (descOf (cmdOf 2 0 (bytesLE 4 99))) ∧
      ((tables (cmdOf 2 0 (bytesLE 4 99)) []).hw.hst.started.find? fun x => x.ring == 1 && x.begun && x.tag == 99 &&
        (opStops x.opcode || opCopies x.opcode) && x.opcode != 0x061).isSome = true) ∧
    (Runs (tables (cmdOf 2 0 (bytesLE 4 98)) []) 1 0x002 (descOf (cmdOf 2 0 (bytesLE 4 98))) ∧
      ((tables (cmdOf 2 0 (bytesLE 4 98)) []).hw.hst.started.all fun x => x.tag != 98) = true) := by
  refine ⟨?_, ⟨runs_of _ _ _ _ ?_, ?_⟩, ⟨runs_of _ _ _ _ ?_, ?_⟩⟩ <;> decide +kernel
def newEntry : List Byte := bytesLE 8 (0x333 + 2 ^ 24 + 2 ^ 25 + 24 * 2 ^ 32)
def oldEntry : List Byte := bytesLE 8 (0x222 + 2 ^ 24 + 2 ^ 25 + 24 * 2 ^ 32)
theorem wit_CommandsChangeTablesWholly_entries :
    (Runs (tables (cmdOf 0x20 0 newEntry) []) 1 0x020 (descOf (cmdOf 0x20 0 newEntry)) ∧
      (excOfWord (BitVec.ofNat 64 (getLE (descOf (cmdOf 0x20 0 newEntry)).bytes 8 8))).map (·.node) = some 0x333 ∧
      (tables (cmdOf 0x20 0 newEntry) []).hw.excLook 0x333 = none ∧ (tables (cmdOf 0x20 0 newEntry) []).hw.excPlace 0x333 = some false) ∧
    (Runs (tables (cmdOf 0x20 0 oldEntry) []) 1 0x020 (descOf (cmdOf 0x20 0 oldEntry)) ∧
      ((tables (cmdOf 0x20 0 oldEntry) []).hw.excLook 0x222).isSome = true ∧ bits (descOf (cmdOf 0x20 0 oldEntry)).flags 1 1 = 0) ∧
    (Runs (tables (cmdOf 0x20 1 newEntry) []) 1 0x020 (descOf (cmdOf 0x20 1 newEntry)) ∧ (tables (cmdOf 0x20 1 newEntry) []).hw.stageHeld 1 = false) ∧
    Runs (tables (cmdOf 0x21 0 oldEntry) []) 1 0x021 (descOf (cmdOf 0x21 0 oldEntry)) ∧
    Runs (tables (cmdOf 0x22 0 oldEntry) []) 1 0x022 (descOf (cmdOf 0x22 0 oldEntry)) ∧
    Runs (tables (cmdOf 0x28 0 (bytesLE 2 3)) []) 1 0x028 (descOf (cmdOf 0x28 0 (bytesLE 2 3))) ∧
    Runs (tables (cmdOf 0x29 0 (bytesLE 2 3)) []) 1 0x029 (descOf (cmdOf 0x29 0 (bytesLE 2 3))) := by
  refine ⟨⟨runs_of _ _ _ _ ?_, ?_⟩, ⟨runs_of _ _ _ _ ?_, ?_⟩, ⟨runs_of _ _ _ _ ?_, ?_⟩, runs_of _ _ _ _ ?_, runs_of _ _ _ _ ?_, runs_of _ _ _ _ ?_,
    runs_of _ _ _ _ ?_⟩ <;> decide +kernel
def lookupBytes : List Byte := cmdOf 0x48 1 (bytesLE 8 0x9000 ++ dirBytes)
theorem wit_CommandsChangeTablesWholly_stage :
    (Runs (tables (cmdOf 0x10 1 (bytesLE 8 0 ++ bytesLE 8 0x1008 ++ bytesLE 8 5)) []) 1 0x010
        (descOf (cmdOf 0x10 1 (bytesLE 8 0 ++ bytesLE 8 0x1008 ++ bytesLE 8 5))) ∧
      stageAddr (getLE (descOf (cmdOf 0x10 1 (bytesLE 8 0 ++ bytesLE 8 0x1008 ++ bytesLE 8 5))).bytes 16 8) = true) ∧
    Runs (tables (cmdOf 0x12 0 []) [.excRemove 0x222]) 1 0x012 (descOf (cmdOf 0x12 0 [])) ∧
    (Runs (tables (cmdOf 0x11 0 []) [.excRemove 0x444]) 1 0x011 (descOf (cmdOf 0x11 0 [])) ∧
      (let s := tables (cmdOf 0x11 0 []) [.excRemove 0x444]
       (Hw.stageRun s.nv s.hw.hst.stage { s.hw with fwd := { s.hw.fwd with gathered := some [] } }).1 = 0x11)) ∧
    (Runs (tables (cmdOf 0x11 0 []) [.excRemove 0x222]) 1 0x011 (descOf (cmdOf 0x11 0 [])) ∧
      ((tables (cmdOf 0x11 0 []) [.excRemove 0x222]).hw.excLook 0x222).isSome = true) ∧
    (Runs (tables lookupBytes []) 1 0x048 (descOf lookupBytes) ∧ getLE (descOf lookupBytes).bytes 8 8 ≠ 0 ∧ (descOf lookupBytes).flags % 16 = 1 ∧
      (let s := tables lookupBytes []
       let e := dirEntOf (slice (descOf lookupBytes).bytes 16 32)
       s.hw.hst.mayRequest = true ∧ (s.hw.dirDies e).all s.hw.memServes = true ∧ (s.hw.gon.dir.find? e.same).isSome = true)) := by
  refine ⟨⟨runs_of _ _ _ _ ?_, ?_⟩, runs_of _ _ _ _ ?_, ⟨runs_of _ _ _ _ ?_, ?_⟩, ⟨runs_of _ _ _ _ ?_, ?_⟩, ⟨runs_of _ _ _ _ ?_, ?_⟩⟩ <;> decide +kernel

/-- Operation `k` of descriptor 4 of ring 1 runs. -/
def longRun (k : LongOp) (bytes : List Byte) (stop tested : Bool) (latch : List Nat) : State :=
  let s := tables bytes []
  let started : List Desc := [⟨1, 4, padTo 64 bytes, true, [], 0, none⟩]
  { s with hw := { s.hw with hst := { s.hw.hst with started := started, long := [⟨k, 1, 4, stop, 0, latch, tested⟩], fwStage := [(0, [1, 2, 3])] } } }
def wipeBytes : List Byte := cmdOf 0x50 0 (bytesLE 8 2097152 ++ bytesLE 8 2097152)
def dumpBytes : List Byte := cmdOf 0x23 0 (bytesLE 8 0x4000 ++ bytesLE 8 5)
def stageBytes : List Byte := cmdOf 0x60 0 (bytesLE 8 0x4000 ++ bytesLE 8 4096 ++ bytesLE 8 3)
def commitBytes (f : Nat) : List Byte := cmdOf 0x61 f (bytesLE 8 3)
theorem wit_LongOperationsRunInSteps_begin :
    Runs (tables dumpBytes []) 1 0x023 (descOf dumpBytes) ∧ Runs (tables (cmdOf 0x24 0 []) []) 1 0x024 (descOf (cmdOf 0x24 0 [])) ∧
    Runs (tables (cmdOf 0x49 0 []) []) 1 0x049 (descOf (cmdOf 0x49 0 [])) ∧ Runs (tables wipeBytes []) 1 0x050 (descOf wipeBytes) ∧
    Runs (tables (cmdOf 0x58 1 []) []) 1 0x058 (descOf (cmdOf 0x58 1 [])) ∧ Runs (tables stageBytes []) 1 0x060 (descOf stageBytes) ∧
    (let s := tables (commitBytes 1) []
     let s : State := { s with hw := { s.hw with hst := { s.hw.hst with fwStage := [(0, [1, 2, 3])] } } }
     Runs s 1 0x061 (descOf (commitBytes 1)) ∧ getLE (descOf (commitBytes 1)).bytes 8 3 ≤ s.hw.stagedBytes) ∧
    ((tables dumpBytes []).hw.longOf .excDump = none ∧ getLE (descOf dumpBytes).bytes 8 8 % 64 = 0 ∧ getLE (descOf dumpBytes).bytes 16 4 = 5 ∧
      getLE (descOf wipeBytes).bytes 8 5 % 2097152 = 0 ∧ getLE (descOf wipeBytes).bytes 16 5 % 2097152 = 0 ∧
      getLE (descOf wipeBytes).bytes 8 5 + getLE (descOf wipeBytes).bytes 16 5 ≤ (tables wipeBytes []).hw.exportBytes ∧
      getLE (descOf stageBytes).bytes 16 3 = 4096 ∧ getLE (descOf stageBytes).bytes 24 3 = 3 ∧ bits (descOf (commitBytes 1)).flags 0 1 = 1) := by
  refine ⟨runs_of _ _ _ _ ?_, runs_of _ _ _ _ ?_, runs_of _ _ _ _ ?_, runs_of _ _ _ _ ?_, runs_of _ _ _ _ ?_, runs_of _ _ _ _ ?_,
    ⟨runs_of _ _ _ _ ?_, ?_⟩, ?_⟩ <;> decide +kernel
theorem wit_LongOperationsRunInSteps :
    (let s := longRun .hbmWipe wipeBytes false false []
     (s.hw.longOf .hbmWipe).isSome = true ∧ (s.hw.longOf .hbmWipe).all (fun l => (s.hw.longDesc l).isSome) = true ∧
       s.hw.mayTurn (longItem .hbmWipe) = true ∧
       (∀ q, q < 4 → s.hw.memServes q = true) ∧ 0 < getLE (descOf wipeBytes).bytes 16 5) ∧
    (let s := longRun .excRehash (cmdOf 0x24 0 []) false false [77]
     s.hw.hst.mayRequest = true ∧ s.hw.someLost = false ∧ s.hw.mayTurn (longItem .excRehash) = true ∧
       ((s.hw.fwd.exc.get s.hw.readDie).filter fun e => !e.moved).length = 1 ∧ (s.hw.gon.dir.filter fun e => !e.moved).length = 1 ∧
       bucketsFit ((s.hw.fwd.exc.get s.hw.readDie).map fun e => excBucket e.node 77) 1 4096 = true ∧
       bucketsFit (s.hw.gon.dir.map fun e => dirBucket e.keyHi e.keyLo 77) 4 16384 = true) ∧
    ((longRun .excRehash (cmdOf 0x24 0 []) false true [77]).hw.longOf .excRehash).any (·.tested) = true ∧
    (let s := longRun .fwCommit (commitBytes 0) false false []
     imageFault s.nv (s.hw.stagedImage 3) = some 0x60 ∧ getLE (descOf (commitBytes 0)).bytes 8 3 = 3 ∧
       bits (descOf (commitBytes 0)).flags 0 1 = 0) ∧
    ((longRun .fwStage stageBytes true false []).hw.longOf .fwStage).any (·.stop) = true ∧
    ((longRun .counterSnapshot (cmdOf 0x58 1 []) false false (List.replicate 3 5)).hw.longOf .counterSnapshot).any (·.latch ≠ []) = true ∧
    ((longRun .fwCommit (commitBytes 0) false true []).hw.longOf .fwCommit).any (·.tested) = true := by decide +kernel

def onPcie (up perst d3 : Bool) : State :=
  let s := tables (cmdOf 1 0 []) []
  { s with hw := { s.hw with hst := { s.hw.hst with pcieUp := up, perst := perst, d3hot := d3 } } }
theorem wit_BoardPortsAnswer :
    ((onPcie true false false).hw.hst.pcieUp = true ∧ (onPcie true false false).hw.pwr.porHeld = false ∧
      (onPcie true false false).hw.err.hubQ.length < 1024) ∧
    (onPcie false true false).hw.hst.perst = true ∧ (onPcie false false false).hw.hst.pcieUp = false ∧ (onPcie true false true).hw.hst.d3hot = true ∧
    (onPcie true false false).hw.hst.d3hot = false ∧ (List.replicate 9 (0 : Byte)).length = 9 ∧ (List.replicate 12 (0 : Byte)).length = 12 := by
  decide

/-- A chip in life-cycle state `n` with words in its mailbox. -/
def trusted (n : Nat) (rs : List (Reg × W64)) : State :=
  let s := live rs
  { s with nv := { s.nv with otp := { s.nv.otp with lc := ⟨n, n⟩, owner := ⟨List.replicate 64 7, true, false⟩ :: s.nv.otp.owner.drop 1 }, keys := [(2, [9])] } }
theorem rotIdle_of (s : State) (h : s.hw.pwr.porHeld = false ∧ s.hw.bit .secStatus Fld.secStatus_busy = false ∧ s.nv.transPending = false) :
    RotIdle s := ⟨h.1, h.2.1, h.2.2⟩
theorem wit_RootOfTrustServesItsCommands :
    (RotIdle (trusted 0 []) ∧ (trusted 0 []).nv.lcState = 0) ∧
    (let s := trusted 1 [(.secMbox 0, 0x0102)]
     RotIdle s ∧ s.nv.lcState = 1 ∧ s.unsigned = true ∧ getBE (s.hw.mbox 0 1) 0 1 = 2 ∧ getBE (s.hw.mbox 1 1) 0 1 = 1) ∧
    (let s := trusted 2 [(.secMbox 0, 0x0203)]
     RotIdle s ∧ s.nv.lcState = 2 ∧ s.unsigned = false ∧ getBE (s.hw.mbox 0 1) 0 1 = 3 ∧ getBE (s.hw.mbox 1 1) 0 1 = 2 ∧
       s.nv.ownerIndex = 0 ∧ s.nv.otp.owner.length = 4 ∧ (s.nv.otp.owner[s.nv.ownerIndex]?).isSome = true ∧
       s.nv.otp.minSvn < getBE (s.hw.mbox 0 4) 0 4) ∧
    ((0 : BitVec 16) ≠ 0x5ec1) ∧ (trusted 2 [(.secStatus, 0x10000)]).hw.bit .secStatus Fld.secStatus_busy = true := by
  refine ⟨⟨rotIdle_of _ ?_, ?_⟩, ⟨rotIdle_of _ ?_, ?_⟩, ⟨rotIdle_of _ ?_, ?_⟩, ?_, ?_⟩ <;> decide +kernel

/-- A chip in life-cycle state `start` whose DONE fuses are blown up to `done`, in the reset that `rs` shows. -/
def changing (start done : Nat) (wipe : Bool) (rs : List (Reg × W64)) : State :=
  let s := live rs
  { s with hw := { s.hw with pwr := { s.hw.pwr with lcWipe := wipe, ownerIn := some [1] } },
           nv := { s.nv with otp := { s.nv.otp with lc := ⟨start, done⟩ } } }
theorem wit_ResetsClearTheirScopes :
    (State.reset.hw.pwr.porHeld = true ∧ State.reset.nv.transPending = false ∧ State.reset.nv.inService = false ∧ State.reset.hw.fatalChip = false) ∧
    ((live []).hw.pwr.porHeld = false ∧ (live []).hw.chipBusy = false ∧ (live []).nv.transPending = false ∧ (live []).nv.inService = false ∧
      (live []).hw.scopeBusy 2 0 = false ∧ (live []).hw.scopeBusy 3 2 = false ∧ (live []).hw.scopeBusy 4 127 = false ∧
      (live []).hw.asleep 127 = false) ∧
    ((changing 2 1 false []).hw.chipBusy = false ∧ (changing 2 1 false []).nv.transPending = true) ∧
    ((changing 1 0 true [(.hubState, 0)]).hw.pwr.lcWipe = true ∧ (changing 1 0 true [(.hubState, 0)]).nv.otp.owner.head?.all (fun d => !d.valid) = true) ∧
    (let s : State := { State.reset with hw := { Hw.reset with pwr := { Pwr.reset with porHeld := false, lcWipe := true, ownerIn := some [1] } } }
     s.hw.chipBusy = true ∧ s.hw.pwr.lcWipe = true ∧ s.hw.pwr.porHeld = false) ∧
    (let s : State := { State.reset with hw := { Hw.reset with pwr := { Pwr.reset with porHeld := false } } }
     s.hw.chipBusy = true ∧ s.hw.pwr.lcWipe = false) ∧
    (let s := live [(.resetStatus, 0x20)]
     s.hw.chipBusy = false ∧ s.hw.bit .resetStatus Fld.resetStatus_dpBusy = true) ∧
    (let s := live [(.resetStatus, 0x18)]
     s.hw.chipBusy = false ∧ s.hw.bit .resetStatus Fld.resetStatus_dpBusy = false ∧ s.hw.qdBusy 2 = true ∧ ∀ k, k < 2 → s.hw.qdBusy k = false) := by
  decide +kernel

def bootImage (ok : Bool) (pack : Option Bool) : ImageHdr := ⟨ok, 1, true, true, 3, true, pack, 0x10002, 5, 0x3ff, [], [1], [2]⟩
theorem wit_SleepParkAndBootFollowTheirConditions :
    ((live []).hw.pwr.porHeld = false ∧ (live []).hw.asleep 9 = false ∧ (live []).hw.maySleep 9 = true) ∧
    (live [(.octetSleep 0, 0x200), (.octetCfg 9, 0)]).hw.asleep 9 = true ∧
    (live [(.portLink 72, BitVec.ofNat 64 (3 * 2 ^ Fld.portLink_state.lo))]).hw.maySleep 9 = false ∧
    ((live []).hw.parkReq 2 = false ∧ (live []).hw.mayPark 2 = true ∧ (live [(.octetCfg 64, 1)]).hw.mayPark 2 = false) ∧
    ((live [(.quadPark, 4)]).hw.parkReq 2 = true ∧ (live [(.quadPark, 4)]).hw.parked 2 = false ∧ (live [(.powerStatus, 4)]).hw.parked 2 = true ∧
      (live [(.powerStatus, 4)]).hw.parkReq 2 = false) ∧
    ((live []).hw.mgt.booting = true ∧ (live []).nv.transPending = false ∧ (live []).nv.bootImage (bootImage true (some true)) = bootImage true (some true) ∧ imageOk (live []).nv (bootImage true (some true)) = true ∧
      imageOk (live []).nv (bootImage true (some false)) = true ∧ imageOk (live []).nv (bootImage false none) = false) := by decide +kernel

end Sys2Proof.Tests
end

section
/-! PROOFS. Accesses of the register space (spec/00): what a write that reaches its register does, and what a configuration read
answers; with them O27 and O28. -/

namespace Sys2Proof.Machine

/-! ### Register accesses, said once -/

/-- A BAR0 write that meets a register, in a block that can be reached, is a write of that register (R7, R253). -/
theorem State.busWrite_of_regAt {s : State} {who : Agent} {addr : Nat} {acc : Acc} {v : W64} {r : Reg}
    (aligned : accAligned addr acc = true) (ready : s.hw.dpReady = true) (reached : s.hw.blockLost addr = false)
    (plain : ¬(0x180000 ≤ addr ∧ addr < 0x188000)) (there : regAt addr = some r) :
    s.busWrite who addr acc v = s.writeReg who r acc v := by
  simp [State.busWrite, aligned, ready, reached, plain, there]

/-- Outside a power-on reset every agent that is not denied the address reaches BAR0. -/
theorem exec_registerWrite_bar0 {s : State} {who : Agent} {addr : BitVec 26} {acc : Acc} {v : W64}
    (power : s.hw.pwr.porHeld = false) (allowed : accDenied who addr.toNat = false) :
    exec (.registerWrite who ⟨.bar0, addr⟩ acc v) s = .next (s.busWrite who addr.toNat acc v) := by
  simp [exec, execRegisterWrite, power, allowed, Hw.reachesSpace, State.spaceWrite]

/-- A command that makes the change of a register's write, unless POR_L is held, is that write (R7). -/
theorem next_onLive_eq_next_writeReg {s : State} {who : Agent} {r : Reg} {acc : Acc} {v : W64} {f : Hw → Hw}
    (power : s.hw.pwr.porHeld = false) (same : s.writeReg who r acc v = s.onHw f) :
    (.next (s.onLive f) : Host.Outcome State Fault Refusal) = .next (s.writeReg who r acc v) := by
  rw [State.onLive_of_not_held power, same]

/-- A configuration read over a link that is up answers its word once Request Retry Status is no longer due (R251, R274). -/
theorem exec_rcRegisterRead_config {s : State} {addr : BitVec 26} {acc : Acc} (power : s.hw.pwr.porHeld = false)
    (link : s.hw.hst.pcieUp = true) (noRetry : s.hw.rrsNow = false) (aligned : accAligned addr.toNat acc = true) :
    exec (.rcRegisterRead .host ⟨.config, addr⟩ acc) s =
      .next (s.onHw fun h => h.emit (.readData (readHalf acc (s.hw.cfgRead s.nv.otp addr.toNat)))) := by
  simp [exec, execRcRegisterRead, power, link, noRetry, aligned, accDenied, Hw.reachesSpace, State.spaceRead]

/-! ### The two statements -/

/-- Settles O28: the write reaches `State.writeReg`, whose arm for each of the eleven registers is what the register's command does. -/
theorem registerWriteIsTheCommand : Obligations.RegisterWriteIsTheCommand := by
  unfold Obligations.RegisterWriteIsTheCommand
  intro who addr acc v r c s power allowed aligned there reached ready plain command
  rw [exec_registerWrite_bar0 power allowed, State.busWrite_of_regAt aligned ready reached plain there]
  symm
  rcases command with ⟨rfl, rfl⟩ | ⟨rfl, rfl⟩ | ⟨rfl, rfl⟩ | ⟨rfl, rfl⟩ | ⟨rfl, rfl⟩ | ⟨rfl, rfl⟩ | ⟨rfl, rfl⟩ | ⟨rfl, rfl⟩ |
    ⟨m, rfl, rfl⟩ | ⟨m, rfl, rfl⟩ | ⟨i, rfl, rfl⟩
  case inl => -- LANE_FENCE alone is non-volatile: its write is no change of the volatile part
    simp [exec, execLaneFenceWrite, power, State.writeReg]
  all_goals exact next_onLive_eq_next_writeReg power rfl

/-- A chip out of reset with the PCIe link up, whose list of changed configuration dwords holds dword 0, the identity. No configuration
write makes such an entry (no bit of dword 0 is writable), and the statement does not ask for a state that a run reaches. -/
def identityOverwritten : State :=
  { State.reset with hw := { Hw.reset with
      hst := { Hst.reset with pcieUp := true, cfg := [(0, 0)] }
      pwr := { Pwr.reset with porHeld := false } } }

/-- In that state the dword at offset 0 reads 0. -/
theorem cfgRead_identityOverwritten :
    (identityOverwritten.hw.cfgRead identityOverwritten.nv.otp 0).toNat % 2 ^ 32 = 0 := by decide

/-- Refutes O27: its last clause has a configuration read at offset 0 give the identity 0x10241F6D in every state, and the listed dword of
`identityOverwritten` stands in its place. -/
theorem not_registerAccess : ¬ Obligations.RegisterAccess := by
  unfold Obligations.RegisterAccess
  rintro ⟨-, -, -, -, -, -, -, -, config⟩
  obtain ⟨t, w, ran, answer, -, identity⟩ := (config 0 identityOverwritten rfl rfl).2 (by decide)
  rw [exec_rcRegisterRead_config rfl rfl (by decide) (by decide)] at ran
  obtain rfl := Host.Outcome.next.inj ran
  obtain rfl : identityOverwritten.hw.cfgRead identityOverwritten.nv.otp 0 = w := by
    simpa [readHalf] using answer
  have read : 0 = 0x10241f6d := cfgRead_identityOverwritten.symm.trans (identity rfl).1
  exact absurd read (by decide)

end Sys2Proof.Machine
end

section
/-! PROOFS. The bytes of the Vaeth header (R13, R43) and its HDR_CHECK (R44): O18 and O19. -/

namespace Sys2Proof.Machine

/-! ### Big-endian byte strings (R13) -/

/-- A little-endian byte string as base-256 digits. -/
theorem natLE_eq_ofDigits (l : List Byte) : natLE l = Nat.ofDigits 256 (l.map BitVec.toNat) := by
  induction l with
  | nil => rfl
  | cons b l ih => simp [natLE, Nat.ofDigits_cons, ih]

theorem natLE_append (l m : List Byte) : natLE (l ++ m) = natLE l + 256 ^ l.length * natLE m := by
  simp [natLE_eq_ofDigits, Nat.ofDigits_append]

/-- Two byte strings of one length are equal when their values are. -/
theorem natLE_inj {l m : List Byte} (length : l.length = m.length) (value : natLE l = natLE m) : l = m := by
  rw [natLE_eq_ofDigits, natLE_eq_ofDigits] at value
  have small (k : List Byte) : ∀ d ∈ k.map BitVec.toNat, d < 256 := by
    intro d hd
    obtain ⟨b, -, rfl⟩ := List.mem_map.1 hd
    exact b.isLt
  have digits := Nat.ofDigits_inj_of_len_eq (by decide) (by simpa using length) (small l) (small m) value
  exact List.map_injective_iff.2 (fun _ _ => BitVec.eq_of_toNat_eq) digits

theorem natBE_inj {l m : List Byte} (length : l.length = m.length) (value : natBE l = natBE m) : l = m :=
  List.reverse_injective (natLE_inj (by simpa using length) value)

theorem natLE_lt (l : List Byte) : natLE l < 256 ^ l.length := by
  induction l with
  | nil => simp [natLE]
  | cons b l ih =>
    have := b.isLt
    simp only [natLE, List.length_cons, Nat.pow_succ]
    omega

theorem natBE_lt (l : List Byte) : natBE l < 256 ^ l.length := by
  simpa [natBE] using natLE_lt l.reverse

/-- The low `n` bytes of a word, least significant first, have its value modulo 256^n. -/
theorem natLE_extract {w : Nat} (v : BitVec w) (n : Nat) :
    natLE ((List.range n).map fun i => v.extractLsb' (8 * i) 8) = v.toNat % 256 ^ n := by
  induction n with
  | zero => simp [natLE, Nat.mod_one]
  | succ n ih =>
    rw [List.range_succ, List.map_append, natLE_append, ih]
    simp [natLE, Nat.pow_succ, Nat.mod_mul, Nat.shiftRight_eq_div_pow, Nat.pow_mul]

theorem slice_append_of_length {l m : List Byte} {n : Nat} (length : l.length = n) : slice (l ++ m) 0 n = l := by
  simp [slice, ← length]

/-! ### The header's word and its bytes (R43) -/

/-- The fields stand side by side and cover the word: put together, they give it back. -/
theorem VHdr.word_ofWord (w : BitVec 256) : (VHdr.ofWord w).word = w := by
  simp only [VHdr.ofWord, VHdr.word]
  repeat rw [BitVec.extractLsb'_append_extractLsb'_eq_extractLsb' (by rfl)]
  exact BitVec.extractLsb'_eq_self

theorem bitVec_append_inj {v w : Nat} {a c : BitVec v} {b d : BitVec w} (same : a ++ b = c ++ d) : a = c ∧ b = d :=
  ⟨by simpa [BitVec.extractLsb'_append_eq_left] using congrArg (BitVec.extractLsb' w v) same,
   by simpa [BitVec.extractLsb'_append_eq_right] using congrArg (BitVec.extractLsb' 0 w) same⟩

/-- Headers of one word agree in each field, from the last to the first. -/
theorem VHdr.word_inj {h k : VHdr} (same : h.word = k.word) : h = k := by
  obtain ⟨same, check⟩ := bitVec_append_inj same
  obtain ⟨same, opData⟩ := bitVec_append_inj same
  obtain ⟨same, seq⟩ := bitVec_append_inj same
  obtain ⟨same, rsvd17⟩ := bitVec_append_inj same
  obtain ⟨same, roff⟩ := bitVec_append_inj same
  obtain ⟨same, plen⟩ := bitVec_append_inj same
  obtain ⟨same, src⟩ := bitVec_append_inj same
  obtain ⟨same, dst⟩ := bitVec_append_inj same
  obtain ⟨same, status⟩ := bitVec_append_inj same
  obtain ⟨same, opcode⟩ := bitVec_append_inj same
  obtain ⟨same, defl⟩ := bitVec_append_inj same
  obtain ⟨same, rsvd1⟩ := bitVec_append_inj same
  obtain ⟨same, noSpray⟩ := bitVec_append_inj same
  obtain ⟨same, fence⟩ := bitVec_append_inj same
  obtain ⟨same, tc⟩ := bitVec_append_inj same
  obtain ⟨ver, rsvd0⟩ := bitVec_append_inj same
  cases h
  cases k
  simp_all only

/-- A header's fields, read from its word, are the header's. -/
theorem VHdr.ofWord_word (h : VHdr) : VHdr.ofWord h.word = h := VHdr.word_inj (VHdr.word_ofWord h.word)

@[simp] theorem VHdr.length_bytes (h : VHdr) : h.bytes.length = 32 := by simp [VHdr.bytes]

/-- The bytes of a header spell its word, the most significant byte first. -/
theorem VHdr.natBE_bytes (h : VHdr) : natBE h.bytes = h.word.toNat := by
  have reversed : h.bytes.reverse = (List.range 32).map fun i => h.word.extractLsb' (8 * i) 8 := by
    simp [VHdr.bytes, List.range, List.range.loop]
  have small : h.word.toNat < 256 ^ 32 := h.word.isLt
  rw [natBE, reversed, natLE_extract, Nat.mod_eq_of_lt small]

/-- Settles O19: a header's bytes spell its word, the word's fields are the header's, and a byte string is given by its length and value. -/
theorem headerBytesRoundTrip : Obligations.HeaderBytesRoundTrip := by
  unfold Obligations.HeaderBytesRoundTrip
  constructor
  · intro h l
    simp [VHdr.ofBytes, getBE, slice_append_of_length h.length_bytes, VHdr.natBE_bytes, VHdr.ofWord_word]
  · intro l length
    refine natBE_inj (by simp [length]) ?_
    have whole : slice l 0 32 = l := by simpa using slice_append_of_length (m := []) length
    have small : natBE l < 2 ^ 256 := by simpa [length] using natBE_lt l
    rw [VHdr.natBE_bytes, VHdr.ofBytes, VHdr.word_ofWord, getBE, whole, BitVec.toNat_ofNat, Nat.mod_eq_of_lt small]

/-! ### HDR_CHECK (R44) -/

/-- One bit of R44 as its serial register takes it: a shift left, and the polynomial where the bit shifted out differs from `m`. -/
def crc16Serial (c : BitVec 16) (m : Bool) : BitVec 16 := if c.getLsbD 15 != m then (c <<< 1) ^^^ 0x1021 else c <<< 1

/-- The bits of `b` that are still to come, laid over the register from its top after `i` steps. -/
def crc16Rest (b : Byte) (i : Nat) : BitVec 16 := b.zeroExtend 16 <<< (8 + i)

/-- A serial step on `b`'s next bit is the step of `crc16Bit` on the register with the rest of `b` laid over it. -/
theorem crc16Serial_rest (c : BitVec 16) (b : Byte) {i : Nat} (hi : i < 8) :
    crc16Serial c (b.getLsbD (7 - i)) ^^^ crc16Rest b (i + 1) = crc16Bit (c ^^^ crc16Rest b i) := by
  have top : (c ^^^ crc16Rest b i).getLsbD 15 = (c.getLsbD 15 != b.getLsbD (7 - i)) := by
    have place : 15 - (8 + i) = 7 - i := by omega
    simp [crc16Rest, place, show ¬15 < 8 + i by omega]
  have shifted : (c ^^^ crc16Rest b i) <<< 1 = c <<< 1 ^^^ crc16Rest b (i + 1) := by
    simp [crc16Rest, BitVec.shiftLeft_xor_distrib, BitVec.shiftLeft_add]
  rw [crc16Bit, crc16Serial, top, shifted]
  split <;> ac_rfl

/-- The eight serial steps of a byte are `crc16Byte`. -/
theorem crc16Byte_eq_serial (c : BitVec 16) (b : Byte) :
    crc16Byte c b = (List.range 8).foldl (fun c i => crc16Serial c (b.getLsbD (7 - i))) c := by
  have first : c ^^^ b.zeroExtend 16 <<< 8 = c ^^^ crc16Rest b 0 := rfl
  have last (d : BitVec 16) : d ^^^ crc16Rest b 8 = d := by
    have none : crc16Rest b 8 = 0 := BitVec.shiftLeft_eq_zero (by decide)
    simp [none]
  rw [crc16Byte, first]
  simp only [← crc16Serial_rest, Nat.reduceLT, Nat.reduceAdd, last]
  rfl

/-- The bytes before HDR_CHECK do not depend on it. -/
theorem VHdr.take_bytes_seal (h : VHdr) : h.seal.bytes.take 30 = h.bytes.take 30 := by
  have same {lo : Nat} (above : 16 ≤ lo) : h.seal.word.extractLsb' lo 8 = h.word.extractLsb' lo 8 :=
    (BitVec.extractLsb'_append_eq_of_le above).trans (BitVec.extractLsb'_append_eq_of_le above).symm
  simp only [VHdr.bytes, ← List.map_take, List.take_range]
  refine List.map_congr_left fun i hi => same ?_
  have : i < 30 := by simpa using hi
  omega

/-- HDR_CHECK stands in the last two bytes, the high byte first. -/
theorem VHdr.drop_bytes (h : VHdr) : h.bytes.drop 30 = [h.check.extractLsb' 8 8, h.check.extractLsb' 0 8] := by
  have low {lo : Nat} (below : lo + 8 ≤ 16) : h.word.extractLsb' lo 8 = h.check.extractLsb' lo 8 :=
    BitVec.extractLsb'_append_eq_of_add_le below
  rw [← low (by decide), ← low (by decide)]
  rfl

/-- Settles O18: `crc16Byte` does the eight serial steps of R44 on a byte, the check stands in the last two bytes, and the check value of
the string is computed. -/
theorem headerCheckIsCrc16 : Obligations.HeaderCheckIsCrc16 := by
  unfold Obligations.HeaderCheckIsCrc16
  refine ⟨fun h => ?_, fun h => ⟨VHdr.drop_bytes h.seal, VHdr.take_bytes_seal h⟩, by decide +kernel⟩
  rw [VHdr.checkOf, crc16, funext₂ crc16Byte_eq_serial]
  rfl

end Sys2Proof.Machine
end

section
/-! PROOFS. Notices addressed to the chip (R56): what a consumed frame leaves as it was, and where an error record stands (R326); with
them O6. -/

namespace Sys2Proof.Machine

/-! ### Where an error record stands (R326) -/

@[simp] theorem Four.get_set_self {α : Type} (f : Four α) (q : Nat) (v : α) : (f.set q v).get q = v := by
  unfold Four.set Four.get
  split <;> simp_all

/-- The agent of a port's P-die queues its records. -/
theorem dieQuad_portDie (n : Nat) : dieQuad (portDie n) = some (portDie n) := by
  have die : portDie n < 4 := Nat.mod_lt _ (by decide)
  rw [dieQuad, if_pos (by omega), Nat.mod_eq_of_lt die]

/-- The record tells of this event: its code, its place and its first detail word. -/
structure Rec.Tells (r : Rec) (code die unit : Nat) (d0 : W64) : Prop where
  code : r.code = code
  die : r.die = die
  unit : r.unit = unit
  d0 : r.d0 = d0

/-- A queue with room takes a record, which joins an open one of the same event or is appended. -/
theorem queueRec_tells {cap : Nat} (merge : Bool) (r : Rec) {l : List Rec} (room : l.length < cap) :
    ∃ l' new, queueRec cap merge r l = some (l', new) ∧ ∃ x ∈ l', x.Tells r.code r.die r.unit r.d0 := by
  unfold queueRec
  extract_lets same
  split
  case isTrue merges =>
    obtain ⟨-, x, inL, joins⟩ : merge = true ∧ ∃ x ∈ l, same x = true := by simpa using merges
    refine ⟨_, _, rfl, _, List.mem_map_of_mem inL, ?_⟩
    obtain ⟨⟨⟨⟨-, code⟩, die⟩, unit⟩, d0⟩ :
        (((x.open_ = true ∧ x.code = r.code) ∧ x.die = r.die) ∧ x.unit = r.unit) ∧ x.d0 = r.d0 := by
      simpa [same] using joins
    rw [if_pos joins]
    exact ⟨code, die, unit, d0⟩
  case isFalse =>
    exact ⟨l ++ [r], true, rfl, r, by simp, rfl, rfl, rfl, rfl⟩

/-- While the queue of its agent has room, a record of a quadrant's die stands in it. -/
theorem Hw.record_tells {h : Hw} {a : RecArgs} {q : Nat} (agent : dieQuad a.die = some q) (room : (h.err.quadQ.get q).length < 4096) :
    ∃ r ∈ (h.record a).err.quadQ.get q, r.Tells a.code a.die a.unit a.d0 := by
  obtain ⟨l, new, queued, r, inL, tells⟩ := queueRec_tells (recInfo a.code).2.2 (h.mkRec a).1 (l := (h.mkRec a).2.err.quadQ.get q) room
  refine ⟨r, ?_, tells⟩
  have event (h : Hw) (n : Nat) : (h.icEvent n).err = h.err := (Hw.icEvent_only h n).parts .err (by simp)
  simp only [Hw.record, agent, queued]
  split
  · simpa [event] using inL
  · simpa using inL

/-! ### Consumed frames (R52, R97) -/

/-- The consumed frame `x` is taken out of its landing zone. -/
def Hw.takeOut (h : Hw) (x : Taken) : Hw := { h with buf := { h.buf with taken := h.buf.taken.filter fun y => y.id != x.id } }

theorem Hw.takeFrame_of_some {h : Hw} {p : Nat} {ops : List Nat} {x : Taken} (oldest : (h.takeFrame p ops).1 = some x) :
    h.takeFrame p ops = (some x, h.takeOut x) := by
  unfold Hw.takeFrame at oldest ⊢
  split at oldest
  · simp at oldest
  · split at oldest
    · simp at oldest
    · obtain rfl := Option.some.inj oldest
      simp_all [Hw.takeOut]

theorem Hw.takenEnd_host (h : Hw) (x : Taken) (ks : List Nat) (outcome : Nat) :
    Only hostParts Reg.isHostNote h (h.takenEnd x ks outcome) := by
  unfold Hw.takenEnd
  split
  · exact Only.refl _ _ _
  · unfold Hw.sampleEnd
    dsimp only
    split
    · exact Hw.toRing_host _ _ _
    · exact Hw.emit_host _ _

theorem Hw.consumed_host (h : Hw) (x : Taken) : Only hostParts Reg.isHostNote h (h.consumed x) := Hw.takenEnd_host h x _ _

/-! ### Reports (R56) -/

theorem Hw.reportNotice_only (h : Hw) (n : Nat) : Only [.free, .err, .mgt] Reg.isNote h (h.reportNotice n) :=
  (Only.draw h (by simp)).trans (Hw.record_only _ _)

/-- A report leaves a record of the port and its P-die while the agent's queue has room; its code is a free value. -/
theorem Hw.reportNotice_record {h : Hw} {n : Nat} (room : (h.err.quadQ.get (portDie n)).length < 4096) :
    ∃ r ∈ (h.reportNotice n).err.quadQ.get (portDie n), r.die = portDie n ∧ r.unit = n := by
  obtain ⟨r, queued, tells⟩ := Hw.record_tells (h := h.draw.2)
    (a := { code := h.draw.1.toNat % 65536, die := portDie n, unit := n, cls := some 3 }) (dieQuad_portDie n) room
  exact ⟨r, queued, tells.die, tells.unit⟩

/-- Settles O6: the frame is taken out, its sample record reaches the host alone, and the report is an error record. -/
theorem noticeReportIsRecorded : Obligations.NoticeReportIsRecorded := by
  unfold Obligations.NoticeReportIsRecorded
  intro p x s oldest room
  have run : s.hw.noticeReport p = ((s.hw.takeOut x).consumed x).reportNotice p := by rw [Hw.noticeReport, Hw.takeFrame_of_some oldest]
  have ended := Hw.consumed_host (s.hw.takeOut x) x
  have reported := Hw.reportNotice_only ((s.hw.takeOut x).consumed x) p
  refine ⟨s.onHw fun h => h.noticeReport p, rfl, ?_, ?_, OnlyHw.of_onHw ?_⟩
  · have kept : (((s.hw.takeOut x).consumed x).reportNotice p).buf = (s.hw.takeOut x).buf :=
      (reported.parts .buf (by simp)).trans (ended.parts .buf (by simp [hostParts]))
    rw [State.onHw_hw, run, kept]
    rfl
  · have kept : ((s.hw.takeOut x).consumed x).err = (s.hw.takeOut x).err := ended.parts .err (by simp [hostParts])
    rw [State.onHw_hw, run]
    exact Hw.reportNotice_record (kept ▸ room)
  · rw [run]
    have taken : Only (.hst :: .out :: sendParts) (fun r => r.isRing = true ∨ r.isNote) s.hw (s.hw.takeOut x) :=
      Only.buf _ _ (by simp [sendParts])
    refine (taken.trans (ended.mono ?_ ?_)).trans (reported.mono ?_ ?_)
    · simp [hostParts]
    · exact fun r note => note.imp_right Or.inl
    · simp [sendParts]
    · exact fun _ => Or.inr

end Sys2Proof.Machine
end

section
/-! PROOFS. FRAME_RECEIVE (R62) where the number that a frame is given stands on a held frame already: O23. -/

namespace Sys2Proof.Machine

/-- A TC3 frame from port 8 in its landing zone, at its last deflection (DEFL_CNT 4), that carries the number 0. -/
def lastDeflection : Held :=
  { id := 0, frame := ⟨0, 0, [], 0x88b5, [], true⟩, hdr := some { VHdr.make 3 0x80 0x012345 0x54321 with defl := 4 }, cls := 3,
    die := 0, inPort := some 8, born := 0, route := .port 24, copies := [⟨24, .landing, 0, 0, false⟩], mcast := false, deflected := false,
    ballast := false, badTail := false, tag := none }

/-- A chip that serves: port 8 is UP in 200G mode, the exception table sends node 0x012345 to port 24, the TC3 queues of P-die 0 take
nothing, and the next arrival number is that of the frame in the landing zone. No run leads here, for `Hw.freshId` counts the numbers
up; the statement does not ask for a state that a run reaches. -/
def numberTaken : State :=
  { State.reset with hw := { Hw.reset with
      regs := [(.hubState, 0x10), (.octetCfg 1, 0x03e8043f), (.portLink 8, 3), (.voqCfg 0 3, 0)]
      fwd := { Fwd.reset with exc := Four.all [⟨0x012345, true, 0, 24, false, false, 0, false⟩] }
      buf := { Buf.reset with held := [lastDeflection], nextId := 0 }
      pwr := { Pwr.reset with porHeld := false } } }

/-- A Vaeth frame of TC1 to node 0x012345, of 64 bytes. -/
def arrival : RxFrame :=
  { pre := 0, codewords := [], frame := ⟨0, 0, [], 0x88b5, padTo 46 (VHdr.make 1 0x80 0x012345 0x54321).seal.bytes, true⟩ }

theorem exec_frameReceive (p : Port) (rx : RxFrame) (upset : Option TblRef) (s : State) :
    exec (.frameReceive p rx upset) s = .next (s.onHw fun h => h.frameReceive p rx upset) := rfl

/-- The attempt to admit the new frame looks its number up, finds the older frame, whose deflections are exhausted (R105), and drops every
frame of that number. -/
theorem held_frameReceive_numberTaken : (numberTaken.hw.frameReceive (8 : Port) arrival none).buf.held = [] := by decide +kernel

theorem arrival_handed : Handed numberTaken.hw 8 arrival :=
  ⟨rfl, fun oslux => absurd oslux (by decide +kernel), fun retry => absurd retry (by decide +kernel)⟩

/-- Refutes O23: in `numberTaken` the frame for which the exception table names a port is not held afterwards. The statement lacks the
premise that held frames are numbered below `nextId`. -/
theorem not_receivedFrames : ¬ Obligations.ReceivedFrames := by
  unfold Obligations.ReceivedFrames
  intro h
  obtain ⟨-, room⟩ := h 8 arrival numberTaken (by decide +kernel) arrival_handed (by decide +kernel)
  obtain ⟨-, whole⟩ := room (by decide +kernel)
  obtain ⟨-, vaeth⟩ := whole (by decide +kernel) (by decide +kernel) (by decide +kernel)
  obtain ⟨-, forwarded⟩ := vaeth (by decide +kernel) (by decide +kernel)
  obtain ⟨t, x, ran, held, -⟩ := forwarded ⟨0x012345, true, 0, 24, false, false, 0, false⟩ (by decide +kernel) (by decide +kernel)
    (by decide +kernel) (by decide +kernel) rfl (by decide +kernel) (by decide +kernel)
  rw [exec_frameReceive] at ran
  obtain rfl := Host.Outcome.next.inj ran
  rw [State.onHw_hw, held_frameReceive_numberTaken] at held
  exact List.not_mem_nil held

end Sys2Proof.Machine
end

section
/-! PROOFS. What the proofs below share: a field after a write of it, a latched host event, and the registers that a re-route leaves. -/

namespace Sys2Proof.Machine

/-! ### Fields and host events -/

/-- A field that was set reads as the value it was set to, cut to its width. -/
theorem Hw.fld_setFld_self (h : Hw) (r : Reg) {f : Fld} (n : Nat) (inside : f.lo + f.width ≤ 64 := by decide) :
    (h.setFld r f n).fld r f = n % 2 ^ f.width := by
  rw [Hw.fld, Hw.reg_setFld_self]
  exact Fld.get_put_self f inside _ _

/-- A field of the same register that does not overlap keeps its value. -/
theorem Hw.fld_setFld_apart (h : Hw) (r : Reg) {f g : Fld} (n : Nat) (inside : f.lo + f.width ≤ 64 := by decide)
    (apart : f.lo + f.width ≤ g.lo ∨ g.lo + g.width ≤ f.lo := by decide) : (h.setFld r g n).fld r f = h.fld r f := by
  rw [Hw.fld, Hw.reg_setFld_self]
  exact Fld.get_put_ne f g inside apart _ _

theorem Hw.fld_setFld_ne (h : Hw) {r x : Reg} (other : x ≠ r) (f g : Fld) (n : Nat) : (h.setFld r g n).fld x f = h.fld x f := by
  rw [Hw.fld, Hw.reg_setFld_ne h other, Hw.fld]

/-- A host event stands in HOST_IRQ_STS (R271). -/
theorem Hw.hostEvent_latched (h : Hw) {i : Nat} (small : i < 64) : ((h.hostEvent i).reg .hostIrqSts).getLsbD i = true := by
  have stands : ((h.setReg .hostIrqSts (h.reg .hostIrqSts ||| BitVec.ofNat 64 (2 ^ i))).reg .hostIrqSts).getLsbD i = true := by
    rw [Hw.reg_setReg_self, BitVec.getLsbD_or, BitVec.getLsbD_ofNat, Nat.testBit_two_pow_self]
    simp [small]
  unfold Hw.hostEvent
  extract_lets was g
  split
  · rw [(Hw.msix_only noRegs g _).regs .hostIrqSts id]
    exact stands
  · exact stands

/-- Events of the interrupt controller leave HOST_IRQ_STS. -/
theorem Hw.icEvent_hostIrqSts (h : Hw) (n : Nat) : (h.icEvent n).reg .hostIrqSts = h.reg .hostIrqSts :=
  (Hw.icEvent_only h n).regs _ (by simp [Reg.isIcSrc])

/-- A command that changes nothing in the volatile part changes nothing. -/
theorem State.onHw_eq_self {s : State} {f : Hw → Hw} (same : f s.hw = s.hw) : s.onHw f = s := by rw [State.onHw, same]

/-- Outside a power-on reset a command's change reaches the volatile part. -/
theorem next_onLive {s : State} (power : s.hw.pwr.porHeld = false) (f : Hw → Hw) :
    (.next (s.onLive f) : Host.Outcome State Fault Refusal) = .next (s.onHw f) := by rw [State.onLive_of_not_held power]

/-! ### Registers in which no event is noted -/

theorem Reg.circuitCtl_not_isEpoch (i : Nat) : ¬(Reg.circuitCtl i).isEpoch := by simp [Reg.isEpoch, Reg.isNote, Reg.isCnt, Reg.isIcSrc]
theorem Reg.hostIrqSts_not_isEpoch : ¬Reg.hostIrqSts.isEpoch := by simp [Reg.isEpoch, Reg.isNote, Reg.isCnt, Reg.isIcSrc]
theorem Reg.circuitMap_not_isEpoch (i : Nat) : ¬(Reg.circuitMap i).isEpoch := by simp [Reg.isEpoch, Reg.isNote, Reg.isCnt, Reg.isIcSrc]
theorem Reg.portFwd_not_isEpoch (n : Nat) : ¬(Reg.portFwd n).isEpoch := by simp [Reg.isEpoch, Reg.isNote, Reg.isCnt, Reg.isIcSrc]

/-- Sending leaves a register that a re-route leaves. -/
theorem Only.reg_of_send {a b : Hw} {r : Reg} (sent : Only sendParts Reg.isNote a b) (kept : ¬r.isEpoch) : b.reg r = a.reg r :=
  sent.regs r fun note => kept (Or.inr note)

theorem Hw.reroute_reg (h : Hw) (ks : List RouteKey) {r : Reg} (kept : ¬r.isEpoch) : (h.reroute ks).reg r = h.reg r :=
  (Hw.reroute_only h ks).regs r kept

/-- Setting a hub register changes it, and the words that P-dies without a hub path still hold (R21). -/
theorem Hw.setHubReg_only {ps : List Part} {P : Reg → Prop} (h : Hw) (r : Reg) (v : W64) (part : Part.fwd ∈ ps) (allowed : P r) :
    Only ps P h (h.setHubReg r v) :=
  (Only.fwd h _ part).trans (Only.setReg _ r v allowed)

@[simp] theorem Hw.reg_setHubReg_self (h : Hw) (r : Reg) (v : W64) : (h.setHubReg r v).reg r = v := Hw.reg_setReg_self _ r v

end Sys2Proof.Machine
end

section
/-! PROOFS. Writes of the replicated tables (R64, R66, R256), of FWD_SEED (R83) and of the mirror sessions (R87): O1 and O2. -/

namespace Sys2Proof.Machine

/-! ### The four replicas of a word (R256) -/

/-- A word stands in the replica of quadrant `q`, and is good there (R70). -/
def Hw.setReplica (h : Hw) (mk : Nat → Reg) (t : TblRef) (v : W64) (q : Nat) : Hw :=
  { h.setReg (mk q) v with fwd := { h.fwd with bad := h.fwd.bad.filter fun x => !(x.1 == t && x.2 == q) } }

/-- While the hub reaches every quadrant, a replicated write sets all four replicas. -/
theorem Hw.replicate_eq_setReplica {h : Hw} (mk : Nat → Reg) (t : TblRef) (v : W64) (reached : ∀ k, k < 4 → h.err.hubLost.get k = false) :
    h.replicate mk t v = (List.range 4).foldl (fun h q => h.setReplica mk t v q) h := by
  simp [Hw.replicate, Hw.setReplica, List.range, List.range.loop, reached]

theorem Hw.reg_foldl_setReplica (mk : Nat → Reg) (t : TblRef) (v : W64) (qs : List Nat) (h : Hw) (r : Reg) :
    (qs.foldl (fun h q => h.setReplica mk t v q) h).reg r = if r ∈ qs.map mk then v else h.reg r := by
  induction qs generalizing h with
  | nil => rfl
  | cons q qs ih =>
    have one : (h.setReplica mk t v q).reg r = if r = mk q then v else h.reg r := Hw.reg_setReg h (mk q) r v
    rw [List.foldl_cons, ih, one]
    simp only [List.map_cons, List.mem_cons]
    split <;> split <;> simp_all

/-- A replicated write sets the word in each quadrant. -/
theorem Hw.replicate_reg {h : Hw} (mk : Nat → Reg) (t : TblRef) (v : W64) (reached : ∀ k, k < 4 → h.err.hubLost.get k = false)
    {k : Nat} (small : k < 4) : (h.replicate mk t v).reg (mk k) = v := by
  rw [Hw.replicate_eq_setReplica mk t v reached, Hw.reg_foldl_setReplica, if_pos]
  exact List.mem_map_of_mem (List.mem_range.2 small)

/-- A replicated write changes the four words, and the marks of bad entries. -/
theorem Hw.replicate_only {h : Hw} (mk : Nat → Reg) (t : TblRef) (v : W64) (reached : ∀ k, k < 4 → h.err.hubLost.get k = false) :
    Only [.fwd] (fun r => ∃ k, k < 4 ∧ r = mk k) h (h.replicate mk t v) where
  regs r other := by
    rw [Hw.replicate_eq_setReplica mk t v reached, Hw.reg_foldl_setReplica, if_neg]
    intro replica
    obtain ⟨k, small, rfl⟩ := List.mem_map.1 replica
    exact other ⟨k, List.mem_range.1 small, rfl⟩
  parts := by
    rw [Hw.replicate_eq_setReplica mk t v reached]
    refine (Only.foldl (P := fun _ => True) _ _ (fun g q => ?_) h).parts
    exact (Only.setReg g (mk q) v trivial).trans (Only.fwd _ _ (by simp))

/-- A replicated word of a table in which no event is noted stands in all four quadrants, whether or not a re-route follows (R83). -/
theorem Hw.replicated_word {h : Hw} (mk : Nat → Reg) (t : TblRef) (v : W64) (ks : List RouteKey) (same : Prop) [Decidable same]
    (reached : ∀ k, k < 4 → h.err.hubLost.get k = false) (table : ∀ k, ¬(mk k).isEpoch) :
    (∀ k, k < 4 → (if same then h.replicate mk t v else (h.replicate mk t v).reroute ks).reg (mk k) = v) ∧
      Only pathParts (fun r => r.isEpoch ∨ ∃ k, k < 4 ∧ r = mk k) h
        (if same then h.replicate mk t v else (h.replicate mk t v).reroute ks) := by
  have word : ∀ k, k < 4 → (h.replicate mk t v).reg (mk k) = v := fun k small => Hw.replicate_reg mk t v reached small
  have frame : Only pathParts (fun r => r.isEpoch ∨ ∃ k, k < 4 ∧ r = mk k) h (h.replicate mk t v) :=
    (Hw.replicate_only mk t v reached).mono (by simp [pathParts]) fun _ => Or.inr
  split
  · exact ⟨word, frame⟩
  · refine ⟨fun k small => (Hw.reroute_reg _ ks (table k)).trans (word k small), frame.trans ?_⟩
    exact (Hw.reroute_only _ ks).mono (by simp [pathParts, sendParts]) fun _ => Or.inl

theorem levelReg_not_isEpoch (l : Level) (k i : Nat) : ¬(levelReg l k i).isEpoch := by
  cases l <;> simp [levelReg, Reg.isEpoch, Reg.isNote, Reg.isCnt, Reg.isIcSrc]

theorem sparTbl_not_isEpoch (k i : Nat) : ¬(Reg.sparTbl k i).isEpoch := by simp [Reg.isEpoch, Reg.isNote, Reg.isCnt, Reg.isIcSrc]

/-- What a write of a level table does while every quadrant can be reached (R64, R256). -/
theorem Hw.levelWrite_replicates {h : Hw} {l : Level} {q i : Nat} (acc : Acc) (v : W64) (inside : i < levelSize l)
    (reach : h.quadReach q = true) (reached : ∀ k, k < 4 → h.err.hubLost.get k = false) :
    (∀ k, k < 4 → (h.levelWrite l q i acc v).reg (levelReg l k i) = withParity (h.writeWord (levelReg l q i) acc v)) ∧
      Only pathParts (fun r => r.isEpoch ∨ ∃ k, k < 4 ∧ r = levelReg l k i) h (h.levelWrite l q i acc v) := by
  unfold Hw.levelWrite
  rw [if_neg (by simp [inside, reach])]
  exact Hw.replicated_word (fun k => levelReg l k i) _ _ _ _ reached fun k => levelReg_not_isEpoch l k i

/-- What a write of a Spar does while every quadrant can be reached (R66, R256). -/
theorem Hw.sparWrite_replicates {h : Hw} {q : Nat} (spar w : Nat) (acc : Acc) (v : W64)
    (reach : h.quadReach q = true) (reached : ∀ k, k < 4 → h.err.hubLost.get k = false) :
    (∀ k, k < 4 → (h.sparWrite q spar w acc v).reg (.sparTbl k (32 * spar + w)) =
        withParity (h.writeWord (.sparTbl q (32 * spar + w)) acc v)) ∧
      Only pathParts (fun r => r.isEpoch ∨ ∃ k, k < 4 ∧ r = .sparTbl k (32 * spar + w)) h (h.sparWrite q spar w acc v) := by
  unfold Hw.sparWrite
  rw [if_neg (by simp [reach])]
  exact Hw.replicated_word (fun k => .sparTbl k (32 * spar + w)) _ _ _ _ reached fun k => sparTbl_not_isEpoch k _

/-- Settles O1: both writes set the word in all four replicas, and at most a re-route follows. -/
theorem levelAndSparWritesReplicate : Obligations.LevelAndSparWritesReplicate := by
  unfold Obligations.LevelAndSparWritesReplicate
  constructor
  · intro l q i acc v s inside reach reached
    obtain ⟨word, frame⟩ := Hw.levelWrite_replicates acc v inside reach reached
    exact ⟨_, rfl, word, OnlyHw.of_onHw frame⟩
  · intro q spar w acc v s reach reached
    obtain ⟨word, frame⟩ := Hw.sparWrite_replicates spar.toNat w acc v reach reached
    exact ⟨_, rfl, word, OnlyHw.of_onHw frame⟩

/-! ### FWD_SEED and the mirror sessions -/

theorem aget_adel_self {κ α : Type} [DecidableEq κ] (k : κ) (l : List (κ × α)) : aget k (adel k l) = none := by
  induction l with
  | nil => rfl
  | cons x l ih => by_cases here : x.1 = k <;> simp_all [adel, aget]

theorem Reg.fwdSeed_not_isEpoch : ¬Reg.fwdSeed.isEpoch := by simp [Reg.isEpoch, Reg.isNote, Reg.isCnt, Reg.isIcSrc]

/-- Setting FWD_SEED leaves EPOCH. -/
theorem Hw.setHubReg_fwdSeed_epoch (h : Hw) (v : W64) :
    (h.setHubReg .fwdSeed v).fld .epochStatus Fld.epochStatus_epoch = h.fld .epochStatus Fld.epochStatus_epoch :=
  Only.fld (Hw.setHubReg_only (ps := [.fwd]) (P := fun r => r = .fwdSeed) h .fwdSeed v (by simp) rfl) (by simp) _

/-- A write of FWD_SEED that keeps PIN_SEED sets the word; one that changes it is a re-route too (R83). -/
theorem Hw.pinSeedWrite_eq (h : Hw) (acc : Acc) (v : W64) :
    h.pinSeedWrite acc v = if (h.setHubReg .fwdSeed (h.writeWord .fwdSeed acc v)).fld .fwdSeed Fld.fwdSeed_pinSeed =
      h.fld .fwdSeed Fld.fwdSeed_pinSeed then h.setHubReg .fwdSeed (h.writeWord .fwdSeed acc v)
      else (h.setHubReg .fwdSeed (h.writeWord .fwdSeed acc v)).reroute ((List.range 16).map zoneKey) := rfl

theorem Hw.pinSeedWrite_reg (h : Hw) (acc : Acc) (v : W64) : (h.pinSeedWrite acc v).reg .fwdSeed = h.writeWord .fwdSeed acc v := by
  rw [Hw.pinSeedWrite_eq]
  split
  · exact Hw.reg_setHubReg_self h _ _
  · exact (Hw.reroute_reg _ _ Reg.fwdSeed_not_isEpoch).trans (Hw.reg_setHubReg_self h _ _)

theorem Hw.pinSeedWrite_epoch {h : Hw} (acc : Acc) (v : W64) (outside : h.fwd.gathered = none) :
    (h.pinSeedWrite acc v).fld .epochStatus Fld.epochStatus_epoch =
      if (h.pinSeedWrite acc v).fld .fwdSeed Fld.fwdSeed_pinSeed = h.fld .fwdSeed Fld.fwdSeed_pinSeed then
        h.fld .epochStatus Fld.epochStatus_epoch else (h.fld .epochStatus Fld.epochStatus_epoch + 1) % 2 ^ 32 := by
  have seed : (h.pinSeedWrite acc v).fld .fwdSeed Fld.fwdSeed_pinSeed =
      (h.setHubReg .fwdSeed (h.writeWord .fwdSeed acc v)).fld .fwdSeed Fld.fwdSeed_pinSeed := by
    rw [Hw.fld, Hw.pinSeedWrite_reg, Hw.fld, Hw.reg_setHubReg_self]
  rw [seed, Hw.pinSeedWrite_eq]
  split
  · exact Hw.setHubReg_fwdSeed_epoch h _
  · have outside' : (h.setHubReg .fwdSeed (h.writeWord .fwdSeed acc v)).fwd.gathered = none := outside
    rw [Hw.reroute_epoch _ outside', Hw.setHubReg_fwdSeed_epoch]

theorem Hw.pinSeedWrite_only (h : Hw) (acc : Acc) (v : W64) :
    Only pathParts (fun r => r = .fwdSeed ∨ r.isEpoch) h (h.pinSeedWrite acc v) := by
  have seed := Hw.setHubReg_only (ps := pathParts) (P := fun r => r = .fwdSeed ∨ r.isEpoch) h .fwdSeed (h.writeWord .fwdSeed acc v)
    (by simp [pathParts]) (Or.inl rfl)
  rw [Hw.pinSeedWrite_eq]
  split
  · exact seed
  · exact seed.trans (Hw.reroute_path _ _)

/-- Settles O2: FWD_SEED takes the written word, and a changed PIN_SEED is a re-route; MIRROR_CFG takes its word and drops the count. -/
theorem seedAndMirrorWrites : Obligations.SeedAndMirrorWrites := by
  unfold Obligations.SeedAndMirrorWrites
  constructor
  · intro acc v s power outside
    exact ⟨s.onHw fun h => h.pinSeedWrite acc v, next_onLive power _, Hw.pinSeedWrite_reg s.hw acc v,
      Hw.pinSeedWrite_epoch acc v outside, OnlyHw.of_onHw (Hw.pinSeedWrite_only s.hw acc v)⟩
  · intro m acc v s power
    refine ⟨s.onHw fun h => h.mirrorCfgWrite m acc v, next_onLive power _, Hw.reg_setReg_self s.hw _ _,
      aget_adel_self m.val s.hw.fwd.mirror, OnlyHw.of_onHw ?_⟩
    exact (Only.setReg (P := fun r => r = .mirrorCfg m) s.hw _ _ rfl).trans (Only.fwd _ _ (List.mem_singleton.2 rfl))

end Sys2Proof.Machine
end

section
/-! PROOFS. Learning (R69, R72, R74): what an insertion and a visit of the ager do, case by case; with them O24. -/

namespace Sys2Proof.Machine

/-! ### The four replicas of the exception table (R68) -/

@[simp] theorem Four.get_map {α β : Type} (f : Four α) (g : α → β) (q : Nat) : (f.map g).get q = g (f.get q) := by
  unfold Four.get Four.map
  split <;> rfl

/-- The node has an entry in no replica. -/
def Hw.Unlisted (h : Hw) (node : Node) : Prop := ∀ k, k < 4 → h.excFind k node = none

/-- Dropping the entries of a node that has none changes nothing. -/
theorem Hw.dropEntry_of_unlisted {h : Hw} {node : Node} (absent : h.Unlisted node) : h.dropEntry node = h := by
  have kept (k : Nat) (small : k < 4) : ((h.fwd.exc.get k).filter fun e => e.node != node) = h.fwd.exc.get k := by
    have : ∀ e ∈ h.fwd.exc.get k, ¬e.node = node := by simpa [Hw.excFind] using absent k small
    simpa [List.filter_eq_self] using this
  have same : (h.fwd.exc.map fun l => l.filter fun e => e.node != node) = h.fwd.exc := by
    have q0 := kept 0 (by decide)
    have q1 := kept 1 (by decide)
    have q2 := kept 2 (by decide)
    have q3 := kept 3 (by decide)
    exact congr (congr (congr (congrArg Four.mk q0) q1) q2) q3
  rw [Hw.dropEntry, Hw.mapExc, same]

/-- Nor does an insertion find an entry of it. -/
theorem Hw.excForInsert_of_unlisted {h : Hw} {node : Node} {q : Nat} (small : q < 4) (absent : h.Unlisted node) :
    h.excForInsert q node = (none, h) := by
  have unread : h.excRead q node = (none, h) := by rw [Hw.excRead, absent q small]
  have elsewhere : (((List.range 4).find? fun k => !h.tblBad k ⟨.exc, node.toNat⟩).bind fun k => h.excFind k node) = none := by
    rw [Option.bind_eq_none_iff]
    intro k found
    exact absent k (List.mem_range.1 (List.mem_of_find?_eq_some found))
  rw [Hw.excForInsert, unread]
  exact congrArg (·, h) elsewhere

/-! ### LEARN_INSERT (R74) -/

/-- The oldest learn request of P-die `q` has been taken; `rest` still wait. -/
def Hw.learnTaken (h : Hw) (q : Nat) (rest : List (Node × Nat)) : Hw :=
  { h with fwd := { h.fwd with learnQ := h.fwd.learnQ.set q rest } }

/-- The learned entry of a node toward port `p`, in its bucket or in the overflow store (R68, R69). -/
def Hw.learnedEntry (h : Hw) (q : Nat) (src : Node) (p : Nat) (ovf : Bool) : ExcEnt :=
  h.excNew { node := src, static := false, kind := 0, target := p, hit := true, ovf := ovf, lastHit := h.slot q, moved := false } ovf

theorem Hw.learnTaken_only (h : Hw) (q : Nat) (rest : List (Node × Nat)) : Only [.fwd] noRegs h (h.learnTaken q rest) :=
  Only.fwd h _ (by simp)

/-- What the oldest request does for a node without an entry (R69, R73, R74): toward a port at its limit it is counted as learn excess,
without a place as an overflow, and otherwise the learned entry stands in every replica. -/
theorem Hw.learnInsert_of_unlisted {h : Hw} {q : Nat} {src : Node} {p : Nat} {rest : List (Node × Nat)}
    (oldest : h.fwd.learnQ.get q = (src, p) :: rest) (small : q < 4) (absent : h.Unlisted src) :
    h.learnInsert q = if h.learnCount p < h.fld (.portFwd p) Fld.portFwd_learnLimit then
        (h.excPlace src).elim (((h.learnTaken q rest).excGood src).count q 0x025 0 1) fun o =>
          ((h.learnTaken q rest).excGood src).excAdd (h.learnedEntry q src p o)
      else (h.learnTaken q rest).count q 0x023 p 1 := by
  have found : (h.learnTaken q rest).excForInsert q src = (none, h.learnTaken q rest) := Hw.excForInsert_of_unlisted small absent
  have dropped : (h.learnTaken q rest).dropEntry src = h.learnTaken q rest := Hw.dropEntry_of_unlisted absent
  have placed : ((h.learnTaken q rest).excGood src).excPlace src = h.excPlace src := rfl
  unfold Hw.learnTaken at found dropped placed ⊢
  rw [Hw.learnInsert, oldest]
  dsimp only
  rw [found]
  dsimp only
  by_cases room : h.learnCount p < h.fld (.portFwd p) Fld.portFwd_learnLimit
  · have roomLeft : ¬(!decide (h.learnCount p < h.fld (.portFwd p) Fld.portFwd_learnLimit)) = true := by simp [room]
    rw [if_pos room]
    refine (if_neg roomLeft).trans ?_
    rw [dropped, placed]
    cases h.excPlace src <;> rfl
  · have full : (!decide (h.learnCount p < h.fld (.portFwd p) Fld.portFwd_learnLimit)) = true := by simp [room]
    rw [if_neg room]
    exact if_pos full

/-- Such a request leaves no trace but in the counters while the port is at its limit or R69 finds no place. -/
theorem Hw.learnInsert_refused {h : Hw} {q : Nat} {src : Node} {p : Nat} {rest : List (Node × Nat)}
    (oldest : h.fwd.learnQ.get q = (src, p) :: rest) (small : q < 4) (absent : h.Unlisted src)
    (refused : h.fld (.portFwd p) Fld.portFwd_learnLimit ≤ h.learnCount p ∨ h.excPlace src = none) :
    ∃ g d ev n, h.learnInsert q = g.count d ev n 1 ∧ Only [.fwd] noRegs h g ∧ g.fwd.exc = h.fwd.exc ∧
      g.fwd.learnQ = h.fwd.learnQ.set q rest := by
  rw [Hw.learnInsert_of_unlisted oldest small absent]
  split
  case isTrue room =>
    rw [refused.resolve_left (Nat.not_le.2 room)]
    exact ⟨_, _, _, _, rfl, (Hw.learnTaken_only h q rest).trans (Only.fwd _ _ (by simp)), rfl, rfl⟩
  case isFalse => exact ⟨_, _, _, _, rfl, Hw.learnTaken_only h q rest, rfl, rfl⟩

/-! ### LEARN_AGE_EXPIRE (R72) -/

section
variable {h : Hw} {node : Node} {e : ExcEnt}

/-- A visit within LEARN_AGE of the last hit clears HIT. -/
theorem Hw.learnAgeExpire_of_recent (entry : h.excFind (h.epochDie.getD 0) node = some e) (learned : e.static = false)
    (ages : h.fld .fwdCfg Fld.fwdCfg_learnAge ≠ 0)
    (recent : h.slot (h.epochDie.getD 0) < e.lastHit + h.fld .fwdCfg Fld.fwdCfg_learnAge * slotsSec) :
    h.learnAgeExpire node = h.mapEntry node fun e => { e with hit := false } := by
  rw [Hw.learnAgeExpire]
  simp only [entry]
  rw [if_neg (by simp [learned, ages]), if_pos recent]

/-- An entry that was not hit for LEARN_AGE goes, which is a re-route. -/
theorem Hw.learnAgeExpire_of_old (entry : h.excFind (h.epochDie.getD 0) node = some e) (learned : e.static = false)
    (ages : h.fld .fwdCfg Fld.fwdCfg_learnAge ≠ 0)
    (old : e.lastHit + h.fld .fwdCfg Fld.fwdCfg_learnAge * slotsSec ≤ h.slot (h.epochDie.getD 0)) :
    h.learnAgeExpire node = ((h.dropEntry node).excGood node).reroute [nodeKey node] := by
  rw [Hw.learnAgeExpire]
  simp only [entry]
  rw [if_neg (by simp [learned, ages]), if_neg (Nat.not_lt.2 old)]

end

/-- Outside a STAGE_COMMIT a re-route leaves the forwarding tables (R83). -/
theorem Hw.reroute_fwd {h : Hw} (outside : h.fwd.gathered = none) (ks : List RouteKey) : (h.reroute ks).fwd = h.fwd := by
  have notices (l : List RouteKey) (g : Hw) : Only sendParts Reg.isEpoch g (l.foldl (fun h k => h.epochNotice k) g) :=
    Only.foldl _ _ Hw.epochNotice_only g
  unfold Hw.reroute
  rw [outside]
  exact (notices _ _).parts .fwd (by simp [sendParts])

/-- An entry and its marks go from every replica, and nothing else does. -/
theorem Hw.dropped_only (h : Hw) (node : Node) : Only [.fwd] noRegs h ((h.dropEntry node).excGood node) :=
  (Only.fwd h _ (by simp)).trans (Only.fwd _ _ (by simp))

/-- Settles O24: the cases of `Hw.learnInsert` for a node without an entry, and those of `Hw.learnAgeExpire` for a learned one. -/
theorem learningInsertsAndAges : Obligations.LearningInsertsAndAges := by
  unfold Obligations.LearningInsertsAndAges
  constructor
  · intro q src p rest s oldest absent
    constructor
    · intro o room place
      have run : s.hw.learnInsert q = ((s.hw.learnTaken q rest).excGood src).excAdd (s.hw.learnedEntry q src p o) := by
        rw [Hw.learnInsert_of_unlisted oldest q.isLt absent, if_pos room, place]
        rfl
      refine ⟨_, s.hw.learnedEntry q src p o, rfl, rfl, rfl, rfl, rfl, rfl, fun k _ => ?_, ?_, OnlyHw.of_onHw ?_⟩
      · rw [State.onHw_hw, run]
        exact Four.get_map _ _ k
      · rw [State.onHw_hw, run]
        exact Four.get_set_self _ _ _
      · rw [run]
        exact ((Hw.learnTaken_only s.hw q rest).trans (Only.fwd _ _ (by simp))).trans (Only.fwd _ _ (by simp))
    · intro refused
      obtain ⟨g, d, ev, n, run, frame, exc, queue⟩ := Hw.learnInsert_refused oldest q.isLt absent refused
      have fwd : (s.hw.learnInsert q).fwd = g.fwd := run ▸ (Hw.count_only [] g d ev n 1).parts .fwd (by simp)
      refine ⟨_, rfl, fun k _ => ?_, ?_, OnlyHw.of_onHw ?_⟩
      · rw [State.onHw_hw, fwd, exc]
      · rw [State.onHw_hw, fwd, queue, Four.get_set_self]
      · rw [run]
        exact (frame.mono (fun _ => id) fun _ => False.elim).trans (Hw.count_only _ g d ev n 1)
  · intro node e s entry learned ages
    constructor
    · intro old outside
      have run := Hw.learnAgeExpire_of_old entry learned ages old
      have outside' : ((s.hw.dropEntry node).excGood node).fwd.gathered = none := outside
      have tables (k : Nat) : (s.hw.learnAgeExpire node).fwd.exc.get k = (s.hw.fwd.exc.get k).filter fun x => x.node != node := by
        rw [run, Hw.reroute_fwd outside']
        exact Four.get_map _ _ k
      refine ⟨_, rfl, fun k _ x stays => ?_, fun k _ x stood other => ?_, ?_, OnlyHw.of_onHw ?_⟩
      · rw [State.onHw_hw, tables] at stays
        simpa using (List.mem_filter.1 stays).2
      · rw [State.onHw_hw, tables]
        exact List.mem_filter.2 ⟨stood, by simpa using other⟩
      · rw [State.onHw_hw, run, Hw.reroute_epoch _ outside']
        rfl
      · rw [run]
        refine ((Hw.dropped_only s.hw node).mono (by simp [pathParts]) fun _ => False.elim).trans ?_
        exact (Hw.reroute_only _ _).mono (by simp [pathParts, sendParts]) fun _ => id
    · intro recent
      have run := Hw.learnAgeExpire_of_recent entry learned ages recent
      refine ⟨_, rfl, fun k _ => ?_, OnlyHw.of_onHw ?_⟩
      · rw [State.onHw_hw, run]
        exact Four.get_map _ _ k
      · rw [run]
        exact Only.fwd _ _ (by simp)

end Sys2Proof.Machine
end

section
/-! PROOFS. Consumed frames that wait (R97): what the chip sends, a re-route and a change of ports leave them as they are. -/

namespace Sys2Proof.Machine

/-- What each step of a fold keeps, the fold keeps. -/
theorem foldl_keeps {α β γ : Type} (read : α → γ) {step : α → β → α} (kept : ∀ a x, read (step a x) = read a) (l : List β) (a : α) :
    read (l.foldl step a) = read a := by
  induction l generalizing a with
  | nil => rfl
  | cons x l ih => rw [List.foldl_cons, ih, kept]

/-! ### Counts, records and lookups leave the packet buffer -/

@[simp] theorem Hw.count_buf (h : Hw) (d ev qual n : Nat) : (h.count d ev qual n).buf = h.buf :=
  (Hw.count_only [] h d ev qual n).parts .buf (by simp)

@[simp] theorem Hw.record_buf (h : Hw) (a : RecArgs) : (h.record a).buf = h.buf := (Hw.record_only h a).parts .buf (by simp)

@[simp] theorem Hw.parityMiss_buf (h : Hw) (q : Nat) (t : TblRef) : (h.parityMiss q t).buf = h.buf := by simp [Hw.parityMiss]

@[simp] theorem Hw.unreachable_buf (h : Hw) (q : Nat) (dst : Node) : (h.unreachable q dst).buf = h.buf := by simp [Hw.unreachable]

@[simp] theorem Hw.levelLookup_buf (ls : List Level) (h : Hw) (q : Nat) (dst : Node) : (h.levelLookup q dst ls).2.buf = h.buf := by
  induction ls generalizing h with
  | nil => rfl
  | cons l ls ih =>
    unfold Hw.levelLookup
    dsimp only
    split
    · rw [ih, Hw.parityMiss_buf]
    · split
      · rfl
      · exact ih h

@[simp] theorem Hw.lookup_buf (h : Hw) (q : Nat) (a : Ask) : (h.lookup q a).2.buf = h.buf := by
  have circuits (l : List Nat) (g : Hw) : (l.foldl (fun h i => h.parityMiss q ⟨.circuit, i⟩) g).buf = g.buf :=
    foldl_keeps Hw.buf (fun g i => Hw.parityMiss_buf g q ⟨.circuit, i⟩) l g
  have exc : (if (h.excFind q a.dst).isSome && h.tblBad q ⟨.exc, a.dst.toNat⟩ then h.parityMiss q ⟨.exc, a.dst.toNat⟩ else h).buf =
      h.buf := by
    split <;> simp
  unfold Hw.lookup
  dsimp only
  split
  · exact exc
  · split
    · rw [Hw.levelLookup_buf, circuits, exc]
    · rw [circuits, exc]

@[simp] theorem Hw.sparParity_buf (h : Hw) (q s : Nat) : (h.sparParity q s).buf = h.buf :=
  foldl_keeps Hw.buf (fun g w => by split <;> simp) _ h

theorem Hw.sprayMember_buf (h : Hw) (q : Nat) (sl : List (Nat × Nat)) (a : Ask) : (h.sprayMember q sl a).2.buf = h.buf :=
  (Hw.draw_buf h.draw.2).trans (Hw.draw_buf h)

@[simp] theorem Hw.sparPick_buf (h : Hw) (q s : Nat) (a : Ask) : (h.sparPick q s a).2.buf = h.buf := by
  have parity := Hw.sparParity_buf h q s
  unfold Hw.sparPick
  generalize h.sparParity q s = g at parity ⊢
  dsimp only
  split
  · exact parity
  · split
    · exact (Hw.sprayMember_buf g q (g.sparSlots q s) a).trans parity
    · exact parity

@[simp] theorem Hw.targets_buf (h : Hw) (q : Nat) (a : Ask) (r : Route) : (h.targets q a r).2.buf = h.buf := by
  cases r with
  | none => rfl
  | port n => rfl
  | spar s => simp [Hw.targets]
  | flood s => simp [Hw.targets]
  | mcast g =>
    unfold Hw.targets
    dsimp only
    split
    · exact Hw.parityMiss_buf _ _ _
    · dsimp only
      split <;> simp

/-! ### Frames of the chip's own join the held frames, not the consumed ones -/

@[simp] theorem Hw.joinCopy_taken (h : Hw) (id n t : Nat) (spot : Spot) : (h.joinCopy id n t spot).buf.taken = h.buf.taken := by
  unfold Hw.joinCopy
  dsimp only
  split <;> rfl

theorem Hw.joinAll_taken (h : Hw) (id t : Nat) (ports : List Nat) (spot : Spot) : (h.joinAll id t ports spot).buf.taken = h.buf.taken :=
  foldl_keeps (fun g : Hw => g.buf.taken) (fun g n => Hw.joinCopy_taken g id n t spot) ports h

theorem Hw.joinOwn_taken (h : Hw) (id q n t len : Nat) (src : Option Node) : (h.joinOwn id q n t len src).buf.taken = h.buf.taken := by
  have noted (g : Hw) : (g.noteSource q n t src).buf.taken = g.buf.taken := rfl
  have moved (g : Hw) : (g.spillMoved q len).buf.taken = g.buf.taken := rfl
  unfold Hw.joinOwn
  dsimp only
  split <;> split <;> simp [noted, moved]

theorem Hw.originateTo_taken (h : Hw) (q : Nat) (f : Frame) (hd : Option VHdr) (t : Nat) (route : Route) (ports : List Nat)
    (ballast : Bool) : (h.originateTo q f hd t route ports ballast).buf.taken = h.buf.taken := by
  unfold Hw.originateTo
  dsimp only
  split
  · rw [Hw.joinAll_taken]
    rfl
  · split
    · rw [foldl_keeps (fun g : Hw => g.buf.taken) fun g n => Hw.joinOwn_taken g _ q n t _ _]
      rfl
    · rw [Hw.count_buf]
      rfl

theorem Hw.originate_taken (h : Hw) (q : Nat) (hd : VHdr) (payload : List Byte) : (h.originate q hd payload).buf.taken = h.buf.taken := by
  unfold Hw.originate
  split
  · rfl
  · dsimp only
    split <;> simp [Hw.originateTo_taken]

theorem Hw.originateOn_taken (h : Hw) (q n : Nat) (hd : VHdr) (payload : List Byte) (ballast : Bool) :
    (h.originateOn q n hd payload ballast).buf.taken = h.buf.taken := by
  unfold Hw.originateOn
  split
  · rfl
  · exact Hw.originateTo_taken _ _ _ _ _ _ _ _

/-! ### Re-routes, aborts and changes of ports -/

theorem Hw.epochNotice_taken (h : Hw) (k : RouteKey) : (h.epochNotice k).buf.taken = h.buf.taken := by
  unfold Hw.epochNotice
  split
  · rfl
  · dsimp only
    split
    · simp
    · split
      · rfl
      · split
        · simp
        · exact Hw.originate_taken _ _ _ _

theorem Hw.reroute_taken (h : Hw) (ks : List RouteKey) : (h.reroute ks).buf.taken = h.buf.taken := by
  unfold Hw.reroute
  split
  · rfl
  · exact foldl_keeps (fun g : Hw => g.buf.taken) Hw.epochNotice_taken _ _

theorem Hw.sendColl_taken (h : Hw) (b : Bridle) (dst : Toward) (op : Nat) (s : BitVec 32) (roff : BitVec 40) (low : Nat) (replay : Bool)
    (payload : List Byte) : (h.sendColl b dst op s roff low replay payload).buf.taken = h.buf.taken := by
  unfold Hw.sendColl
  dsimp only
  split
  · rfl
  · exact Hw.originateOn_taken _ _ _ _ _ _

theorem Hw.bridleAbort_taken (h : Hw) (b : Bridle) (reason : Nat) (s : BitVec 32) (member : Nat) (except : Option Nat) :
    (h.bridleAbort b reason s member except).buf.taken = h.buf.taken := by
  unfold Hw.bridleAbort
  split
  · rfl
  · dsimp only
    rw [foldl_keeps (fun g : Hw => g.buf.taken) fun g t => Hw.sendColl_taken g _ t _ s _ _ _ _, Hw.bridleRec, Hw.record_buf, Hw.count_buf]
    rfl

theorem Hw.bridlesLosePort_taken (h : Hw) (n : Nat) : (h.bridlesLosePort n).buf.taken = h.buf.taken := by
  refine foldl_keeps (fun g : Hw => g.buf.taken) (fun g b => ?_) _ h
  dsimp only
  split
  · exact Hw.bridleAbort_taken _ _ _ _ _ _
  · rfl

/-- What follows a change of ports leaves the consumed frames as the change left them. -/
theorem Hw.withPorts_taken (h : Hw) (ns : List Nat) (f : Hw → Hw) : (h.withPorts ns f).buf.taken = (f h).buf.taken := by
  have rerouted : (h.portsChange ns f).buf.taken = (f h).buf.taken := by
    unfold Hw.portsChange
    dsimp only
    split
    · rfl
    · exact Hw.reroute_taken _ _
  unfold Hw.withPorts
  dsimp only
  rw [foldl_keeps (fun g : Hw => g.buf.taken) Hw.bridlesLosePort_taken, rerouted]

end Sys2Proof.Machine
end

section
/-! PROOFS. Venting (R88, R90): how VENT_REQ and VENT_STATE of a port move, and what a VENT_NOTICE does; with them O5. -/

namespace Sys2Proof.Machine

/-! ### PORT_VENT and PORT_UNVENT (R88) -/

/-- VENT_REQ of port `n` becomes `req` and VENT_STATE `st`, and the peer is told with STATE `told`. -/
def Hw.ventMove (h : Hw) (n req st told : Nat) : Hw :=
  ((h.setFld (.portFwd n) Fld.portFwd_ventReq req).withPorts [n] fun h => h.setFld (.portFwd n) Fld.portFwd_ventState st).ventNotice n 0 told

theorem Hw.ventState_setVentReq (h : Hw) (n req : Nat) : (h.setFld (.portFwd n) Fld.portFwd_ventReq req).ventState n = h.ventState n :=
  Hw.fld_setFld_apart h _ req

theorem Hw.ventMove_reg (h : Hw) (n req st told : Nat) : (h.ventMove n req st told).reg (.portFwd n) =
    ((h.setFld (.portFwd n) Fld.portFwd_ventReq req).setFld (.portFwd n) Fld.portFwd_ventState st).reg (.portFwd n) :=
  (Only.reg_of_send (Hw.ventNotice_send _ _ _ _) (Reg.portFwd_not_isEpoch n)).trans
    (Hw.withPorts_reg _ [n] _ (Reg.portFwd_not_isEpoch n))

/-- The port stands as the move left it; a re-route, aborts of Bridles and the notice may follow. -/
theorem Hw.ventMove_spec (h : Hw) (n told : Nat) {req st : Nat} (bit : req < 2) (small : st < 4) :
    (h.ventMove n req st told).fld (.portFwd n) Fld.portFwd_ventReq = req ∧ (h.ventMove n req st told).ventState n = st ∧
      LinkOnly h (h.ventMove n req st told) := by
  refine ⟨?_, ?_, ?_⟩
  · rw [Hw.fld, Hw.ventMove_reg, ← Hw.fld, Hw.fld_setFld_apart, Hw.fld_setFld_self]
    exact Nat.mod_eq_of_lt bit
  · rw [Hw.ventState, Hw.fld, Hw.ventMove_reg, ← Hw.fld, Hw.fld_setFld_self]
    exact Nat.mod_eq_of_lt small
  · refine LinkOnly.trans ?_ (LinkOnly.of_send (Hw.ventNotice_send _ _ _ _))
    exact (LinkOnly.setFld _ _ _ _ rfl).trans (LinkOnly.withPorts _ _ _ (LinkOnly.setFld _ _ _ _ rfl))

/-- VENT_REQ alone moves where VENT_STATE has nothing to follow. -/
theorem Hw.setVentReq_spec (h : Hw) (n : Nat) {req : Nat} (bit : req < 2) :
    (h.setFld (.portFwd n) Fld.portFwd_ventReq req).fld (.portFwd n) Fld.portFwd_ventReq = req ∧
      (h.setFld (.portFwd n) Fld.portFwd_ventReq req).ventState n = h.ventState n ∧
      Only [] (fun r => r = .portFwd n) h (h.setFld (.portFwd n) Fld.portFwd_ventReq req) :=
  ⟨(Hw.fld_setFld_self h _ req).trans (Nat.mod_eq_of_lt bit), Hw.ventState_setVentReq h n req,
    Only.setFld (P := fun r => r = .portFwd n) _ _ _ _ rfl⟩

section
variable {h : Hw} {n : Nat}

theorem Hw.portVent_eq (start : h.portStart n = true) (reach : h.quadReach (portDie n) = true) (usual : h.bypass n = false) :
    h.portVent n = if h.ventState n ≠ 0 then h.setFld (.portFwd n) Fld.portFwd_ventReq 1 else h.ventMove n 1 1 0 := by
  unfold Hw.portVent
  rw [if_neg (by simp [start, reach, usual])]
  simp only [Hw.ventState_setVentReq]
  rfl

theorem Hw.portUnvent_eq (start : h.portStart n = true) (reach : h.quadReach (portDie n) = true) (usual : h.bypass n = false) :
    h.portUnvent n = if h.ventState n = 0 then h.setFld (.portFwd n) Fld.portFwd_ventReq 0 else h.ventMove n 0 0 2 := by
  unfold Hw.portUnvent
  rw [if_neg (by simp [start, reach, usual])]
  simp only [Hw.ventState_setVentReq]
  rfl

/-- A bypass port ignores both (R75). -/
theorem Hw.portVent_of_bypass (bypass : h.bypass n = true) : h.portVent n = h := by simp [Hw.portVent, bypass]
theorem Hw.portUnvent_of_bypass (bypass : h.bypass n = true) : h.portUnvent n = h := by simp [Hw.portUnvent, bypass]

/-! ### VENT_COMPLETE (R88) -/

/-- No copy of a held frame is toward the port. -/
theorem Hw.portEmpty_of_no_copy (noCopy : ∀ x ∈ h.buf.held, ∀ c ∈ x.copies, c.port ≠ n) : h.portEmpty n = true := by
  simpa [Hw.portEmpty] using noCopy

theorem Hw.ventComplete_eq (start : h.portStart n = true) (venting : h.ventState n = 1) (empty : h.portEmpty n = true) :
    h.ventComplete n = (((h.setFld (.portFwd n) Fld.portFwd_ventState 2).ventNotice n 0 1).hostEvent (1 + portDie n)).icEvent
      (80 + portDie n) := by
  rw [Hw.ventComplete, if_pos ⟨start, venting, empty⟩]

end

/-- A host event and its interrupt source leave every register but HOST_IRQ_STS and those in which events are noted. -/
theorem Hw.reg_events (h : Hw) (i j : Nat) {r : Reg} (other : r ≠ .hostIrqSts) (kept : ¬r.isEpoch) :
    ((h.hostEvent i).icEvent j).reg r = h.reg r :=
  ((Hw.icEvent_only _ j).regs r fun src => kept (Or.inr (Or.inr src))).trans ((Hw.hostEvent_only h i).regs r other)

theorem Hw.events_latched (h : Hw) {i : Nat} (j : Nat) (small : i < 64) :
    (((h.hostEvent i).icEvent j).reg .hostIrqSts).getLsbD i = true := by
  rw [Hw.icEvent_hostIrqSts]
  exact Hw.hostEvent_latched h small

theorem Hw.events_link (h : Hw) (i j : Nat) : LinkOnly h ((h.hostEvent i).icEvent j) :=
  (LinkOnly.of_event (Hw.hostEvent_only h i)).trans (LinkOnly.of_ic (Hw.icEvent_only _ j))

/-! ### VENT_NOTICE (R90) -/

/-- PEER_VENT of each of the ports `ns` becomes `v`. -/
def Hw.setPeerVent (h : Hw) (ns : List Nat) (v : Nat) : Hw := ns.foldl (fun h m => h.setFld (.portFwd m) Fld.portFwd_peerVent v) h

theorem Hw.setPeerVent_fld (h : Hw) (ns : List Nat) (v : Nat) (m : Nat) : (h.setPeerVent ns v).fld (.portFwd m) Fld.portFwd_peerVent =
    if m ∈ ns then v % 2 else h.fld (.portFwd m) Fld.portFwd_peerVent := by
  induction ns generalizing h with
  | nil => rfl
  | cons n ns ih =>
    have first : (h.setFld (.portFwd n) Fld.portFwd_peerVent v).fld (.portFwd m) Fld.portFwd_peerVent =
        if m = n then v % 2 else h.fld (.portFwd m) Fld.portFwd_peerVent := by
      split
      case isTrue same =>
        rw [same]
        exact Hw.fld_setFld_self h _ v
      case isFalse other => exact Hw.fld_setFld_ne h (by simpa using other) _ _ v
    rw [Hw.setPeerVent, List.foldl_cons, ← Hw.setPeerVent, ih, first]
    by_cases later : m ∈ ns <;> simp [later]

theorem Hw.setPeerVent_link (h : Hw) (ns : List Nat) (v : Nat) : LinkOnly h (h.setPeerVent ns v) :=
  LinkOnly.foldl _ _ (fun g _ => LinkOnly.setFld g _ _ _ rfl) h

theorem Hw.setPeerVent_buf (h : Hw) (ns : List Nat) (v : Nat) : (h.setPeerVent ns v).buf = h.buf :=
  foldl_keeps Hw.buf (fun g m => Hw.setFld_buf g (.portFwd m) Fld.portFwd_peerVent v) ns h

/-- The ports that face a chip are known from the links. -/
theorem Hw.facing_congr {h h' : Hw} (lgt : h'.lgt = h.lgt) (regs : ∀ m, h'.reg (.portLink m) = h.reg (.portLink m)) (n : Nat) :
    h'.facing n = h.facing n := by
  simp only [Hw.facing, Hw.link, Hw.linkUp, Hw.linkState, Hw.fld, lgt, regs]

/-- The consumed frame `x` has been taken out of its landing zone and has ended (R52, R97). -/
def Hw.servedTaken (h : Hw) (x : Taken) : Hw := (h.takeOut x).consumed x

theorem Hw.servedTaken_buf (h : Hw) (x : Taken) : (h.servedTaken x).buf = (h.takeOut x).buf :=
  (Hw.consumed_host (h.takeOut x) x).parts .buf (by simp [hostParts])

theorem Hw.servedTaken_facing (h : Hw) (x : Taken) (n : Nat) : (h.servedTaken x).facing n = h.facing n := by
  have ended := Hw.consumed_host (h.takeOut x) x
  exact Hw.facing_congr (ended.parts .lgt (by simp [hostParts])) (fun m => ended.regs (.portLink m)
    (by simp [Reg.isHostNote, Reg.isRing, Reg.isCnt])) n

theorem Hw.servedTaken_done (h : Hw) (x : Taken) : Only doneParts Reg.isDone h (h.servedTaken x) := by
  have taken : Only doneParts Reg.isDone h (h.takeOut x) := Only.buf _ _ (by simp [doneParts, sendParts])
  refine taken.trans ((Hw.consumed_host (h.takeOut x) x).mono ?_ ?_)
  · simp [hostParts, doneParts]
  · rintro r (ring | cnt)
    · exact Or.inr ring
    · exact Or.inl (Or.inl cnt)

theorem LinkOnly.of_done {a b : Hw} (h : Only doneParts Reg.isDone a b) : LinkOnly a b := by
  refine h.mono (by simp [doneParts, linkParts, pathParts, sendParts]) ?_
  rintro r (note | ring)
  · exact Or.inr (Or.inr (Or.inr note))
  · exact Or.inr (Or.inl ring)

section
variable {h : Hw} {n : Nat} {x : Taken}

/-- The ports that a VENT_NOTICE on port `n` speaks of: the port, or with SCOPE 1 all that face its chip. -/
def Hw.ventScope (h : Hw) (n : Nat) (x : Taken) : List Nat := if bits x.hdr.opData.toNat 62 2 = 1 then h.facing n else [n]

theorem Hw.ventNoticeReceive_of_peer (oldest : (h.takeFrame n [0x72]).1 = some x) (peer : x.hdr.dst = linkLocal)
    (known : bits x.hdr.opData.toNat 60 2 ≠ 3) :
    h.ventNoticeReceive n = (h.servedTaken x).withPorts (h.ventScope n x) fun g =>
      g.setPeerVent (h.ventScope n x) (if bits x.hdr.opData.toNat 60 2 = 2 then 0 else 1) := by
  unfold Hw.ventNoticeReceive
  rw [Hw.takeFrame_of_some oldest]
  dsimp only
  rw [if_neg (not_not_intro peer), if_neg known]
  simp only [Hw.ventScope, ← Hw.servedTaken_facing h x n]
  rfl

theorem Hw.ventNoticeReceive_of_report (oldest : (h.takeFrame n [0x72]).1 = some x) (own : x.hdr.dst ≠ linkLocal) :
    h.ventNoticeReceive n = (h.servedTaken x).reportNotice n := by
  unfold Hw.ventNoticeReceive
  rw [Hw.takeFrame_of_some oldest]
  exact if_pos own

end

/-- Settles O5: the equations of the commands above; a notice from the peer sets PEER_VENT, and one addressed to the chip is recorded. -/
theorem ventingMovesThePort : Obligations.VentingMovesThePort := by
  unfold Obligations.VentingMovesThePort
  refine ⟨?moves, ?bypass, ?complete, ?notice⟩
  case moves =>
    intro p s start reach usual
    have vent := Hw.portVent_eq start reach usual
    have unvent := Hw.portUnvent_eq start reach usual
    refine ⟨fun serving => ?_, fun vented => ?_, fun vented => ?_, fun serving => ?_⟩
    · obtain ⟨req, state, frame⟩ := Hw.ventMove_spec s.hw p 0 (req := 1) (st := 1) (by decide) (by decide)
      rw [if_neg (not_not_intro serving)] at vent
      rw [← vent] at req state frame
      exact ⟨_, rfl, req, state, OnlyHw.of_onHw frame⟩
    · obtain ⟨req, state, frame⟩ := Hw.setVentReq_spec s.hw p (req := 1) (by decide)
      rw [if_pos vented] at vent
      rw [← vent] at req state frame
      exact ⟨_, rfl, req, state, OnlyHw.of_onHw frame⟩
    · obtain ⟨req, state, frame⟩ := Hw.ventMove_spec s.hw p 2 (req := 0) (st := 0) (by decide) (by decide)
      rw [if_neg vented] at unvent
      rw [← unvent] at req state frame
      exact ⟨_, rfl, req, state, OnlyHw.of_onHw frame⟩
    · obtain ⟨req, state, frame⟩ := Hw.setVentReq_spec s.hw p (req := 0) (by decide)
      rw [if_pos serving] at unvent
      rw [← unvent] at req state frame
      exact ⟨_, rfl, req, state.trans serving, OnlyHw.of_onHw frame⟩
  case bypass =>
    intro p s bypass
    exact ⟨congrArg Host.Outcome.next (State.onHw_eq_self (f := fun h => h.portVent p) (Hw.portVent_of_bypass bypass)),
      congrArg Host.Outcome.next (State.onHw_eq_self (f := fun h => h.portUnvent p) (Hw.portUnvent_of_bypass bypass))⟩
  case complete =>
    intro p s start venting empty
    have run := Hw.ventComplete_eq start venting (Hw.portEmpty_of_no_copy empty)
    refine ⟨_, rfl, ?_, ?_, OnlyHw.of_onHw ?_⟩
    all_goals simp only [State.onHw_hw, run]
    · rw [Hw.ventState, Hw.fld, Hw.reg_events _ _ _ (by simp) (Reg.portFwd_not_isEpoch p),
        Only.reg_of_send (Hw.ventNotice_send _ _ _ _) (Reg.portFwd_not_isEpoch p), ← Hw.fld]
      exact Hw.fld_setFld_self _ _ _
    · have die : portDie p < 4 := Nat.mod_lt _ (by decide)
      exact Hw.events_latched _ _ (by omega)
    · exact ((LinkOnly.setFld _ _ _ _ rfl).trans (LinkOnly.of_send (Hw.ventNotice_send _ _ _ _))).trans (Hw.events_link _ _ _)
  case notice =>
    intro p x s oldest
    have served := Hw.servedTaken_done s.hw x
    constructor
    · intro peer known
      have run := Hw.ventNoticeReceive_of_peer oldest peer known
      refine ⟨_, rfl, fun m (named : m ∈ s.hw.ventScope p x) => ?_, ?_, OnlyHw.of_onHw ?_⟩
      all_goals simp only [State.onHw_hw, run]
      · rw [Hw.bit, Hw.fld, Hw.withPorts_reg _ _ _ (Reg.portFwd_not_isEpoch m), ← Hw.fld, Hw.setPeerVent_fld, if_pos named]
        split <;> simp_all
      · rw [Hw.withPorts_taken, Hw.setPeerVent_buf, Hw.servedTaken_buf]
        rfl
      · exact (LinkOnly.of_done served).trans (LinkOnly.withPorts _ _ _ (Hw.setPeerVent_link _ _ _))
    · intro own room
      have run := Hw.ventNoticeReceive_of_report oldest own
      have reported := Hw.reportNotice_only (s.hw.servedTaken x) p
      refine ⟨_, rfl, ?_, ?_, OnlyHw.of_onHw ?_⟩
      all_goals simp only [State.onHw_hw, run]
      · rw [show ((s.hw.servedTaken x).reportNotice p).buf = (s.hw.servedTaken x).buf from reported.parts .buf (by simp), Hw.servedTaken_buf]
        rfl
      · have queue : (s.hw.servedTaken x).err = s.hw.err := (Hw.consumed_host (s.hw.takeOut x) x).parts .err (by simp [hostParts])
        exact Hw.reportNotice_record (queue ▸ room)
      · exact served.trans (reported.mono (qs := doneParts) (by simp [doneParts, sendParts]) fun _ => Or.inl)

end Sys2Proof.Machine
end

section
/-! PROOFS. Circuit states (R93) where a link is lost or trains: the training of a port and the loss of its frames move no circuit, and
a circuit in RETRAINING stays there when its port leaves UP. -/

namespace Sys2Proof.Machine

/-- Every CIRCUIT_CTL reads as before. -/
def CircuitsStand (h h' : Hw) : Prop := ∀ i, h'.reg (.circuitCtl i) = h.reg (.circuitCtl i)

namespace CircuitsStand

theorem refl (h : Hw) : CircuitsStand h h := fun _ => rfl

theorem trans {a b c : Hw} (first : CircuitsStand a b) (second : CircuitsStand b c) : CircuitsStand a c :=
  fun i => (second i).trans (first i)

theorem foldl {α : Type} (l : List α) (g : Hw → α → Hw) (each : ∀ h x, CircuitsStand h (g h x)) (h : Hw) :
    CircuitsStand h (l.foldl g h) := fun i => foldl_keeps (fun k : Hw => k.reg (.circuitCtl i)) (fun k x => each k x i) l h

theorem of_only {ps : List Part} {P : Reg → Prop} {a b : Hw} (frame : Only ps P a b) (other : ∀ i, ¬P (.circuitCtl i)) :
    CircuitsStand a b := fun i => frame.regs _ (other i)

theorem of_send {a b : Hw} (frame : Only sendParts Reg.isNote a b) : CircuitsStand a b :=
  fun i => Only.reg_of_send frame (Reg.circuitCtl_not_isEpoch i)

theorem of_host {a b : Hw} (frame : Only hostParts Reg.isHostNote a b) : CircuitsStand a b :=
  of_only frame fun i => by simp [Reg.isHostNote, Reg.isRing, Reg.isCnt]

theorem setFld (h : Hw) {r : Reg} (f : Fld) (n : Nat) (other : ∀ i, .circuitCtl i ≠ r) : CircuitsStand h (h.setFld r f n) :=
  fun i => Hw.reg_setFld_ne h (other i) f n

theorem setLink (h : Hw) (n : Nat) (l : Link) : CircuitsStand h (h.setLink n l) := fun _ => rfl

theorem events (h : Hw) (i j : Nat) : CircuitsStand h ((h.hostEvent i).icEvent j) :=
  fun k => Hw.reg_events h i j (by simp) (Reg.circuitCtl_not_isEpoch k)

theorem reroute (h : Hw) (ks : List RouteKey) : CircuitsStand h (h.reroute ks) :=
  fun i => Hw.reroute_reg h ks (Reg.circuitCtl_not_isEpoch i)

theorem withPorts (h : Hw) (ns : List Nat) {f : Hw → Hw} (change : CircuitsStand h (f h)) : CircuitsStand h (h.withPorts ns f) :=
  fun i => (Hw.withPorts_reg h ns f (Reg.circuitCtl_not_isEpoch i)).trans (change i)

end CircuitsStand

/-! ### A training starts (R229) -/

theorem Hw.setLinkState_circuits (h : Hw) (n st : Nat) : CircuitsStand h (h.setLinkState n st) := by
  unfold Hw.setLinkState
  split
  · exact .refl h
  · exact (CircuitsStand.setFld h _ st (by simp)).trans (.events _ _ _)

theorem Hw.mirrorOne_circuits (h : Hw) (m n dir t : Nat) (f : Frame) : CircuitsStand h (h.mirrorOne m n dir t f) := by
  unfold Hw.mirrorOne
  extract_lets r every k w g b ring g'
  have seen : CircuitsStand h g := fun _ => rfl
  have dropped : CircuitsStand h g' := by
    show CircuitsStand h (if g.ringTakes ring b.length then g else g.count (portDie n) 0x027 m 1)
    split
    · exact seen
    · exact seen.trans (.of_send (Hw.count_send _ _ _ _ _))
  split
  · exact .refl h
  · split
    · exact seen
    · split
      · exact dropped.trans (.of_host (Hw.toRing_host _ _ _))
      · exact seen.trans (.of_host (Hw.emit_host _ _))

theorem Hw.preambleSent_circuits (h : Hw) (p : Nat) (ctrl : Bool) : CircuitsStand h (h.preambleSent p ctrl) := by
  have nak : CircuitsStand h (h.nakSent p) := by
    unfold Hw.nakSent
    split
    · exact .setLink _ _ _
    · exact .refl h
  unfold Hw.preambleSent
  dsimp only
  split
  · exact nak
  · exact nak.trans (.setLink _ _ _)

theorem Hw.frameOut_circuits (h : Hw) (p : Nat) (pre : Option (BitVec 56)) (f : Frame) : CircuitsStand h (h.frameOut p pre f) :=
  (CircuitsStand.of_host (Hw.emit_host _ _)).trans (.of_send ((Hw.count_send _ _ _ _ _).trans (Hw.count_send _ _ _ _ _)))

theorem Hw.sendLinkState_circuits (h : Hw) (n : Nat) : CircuitsStand h (h.sendLinkState n) := by
  unfold Hw.sendLinkState
  split
  · exact .refl h
  · dsimp only
    refine CircuitsStand.trans ?_ (.foldl _ _ (fun g m => Hw.mirrorOne_circuits g m n 1 1 _) _)
    refine CircuitsStand.trans ?_ (.setLink _ _ _)
    exact (Hw.frameOut_circuits _ _ _ _).trans (Hw.preambleSent_circuits _ _ _)

theorem Hw.reloadLanes_circuits (h : Hw) (v : Nv) (ns : List Nat) : CircuitsStand h (h.reloadLanes v ns) :=
  .foldl _ _ (fun g _ => .of_send (Hw.record_send g _)) _

theorem Hw.startTraining_circuits (h : Hw) (v : Nv) (n : Nat) (fast : Bool) : CircuitsStand h (h.startTraining v n fast) := by
  have loaded : CircuitsStand h (if fast then h.reloadLanes v (h.lanesOf n) else h) := by
    split
    · exact Hw.reloadLanes_circuits _ _ _
    · exact .refl h
  unfold Hw.startTraining
  extract_lets h1 ok told h2 h3 h4 w h5
  have begun : CircuitsStand h h5 := by
    refine CircuitsStand.trans ?_ (.setLink _ _ _)
    refine CircuitsStand.trans ?_ (.setFld _ _ _ (by simp))
    refine CircuitsStand.trans ?_ (.setFld _ _ _ (by simp))
    refine CircuitsStand.trans ?_ (.setFld _ _ _ (by simp))
    refine CircuitsStand.trans ?_ (Hw.setLinkState_circuits _ _ _)
    exact loaded.trans (.of_send (Hw.count_send _ _ _ _ _))
  split
  · exact begun.trans (Hw.sendLinkState_circuits _ _)
  · exact begun

/-! ### Frames toward a lost port (R102) -/

theorem Hw.sampleHeld_circuits (h : Hw) (x : Held) (out : Option Nat) (o d : Nat) : CircuitsStand h (h.sampleHeld x out o d) := by
  unfold Hw.sampleHeld Hw.sampleEnd
  dsimp only
  split
  · split
    · exact .of_host (Hw.toRing_host _ _ _)
    · exact .of_host (Hw.emit_host _ _)
  · exact .refl h

theorem Hw.sampleCopy_circuits (h : Hw) (x : Held) (n o : Nat) : CircuitsStand h (h.sampleCopy x n o) := by
  unfold Hw.sampleCopy
  split
  · split
    · exact (Hw.sampleHeld_circuits _ _ _ _ _).trans (.of_send (Hw.mapHeld_send _ _ _))
    · exact .refl h
  · exact .refl h

theorem Hw.exhausted_circuits (h : Hw) (x : Held) : CircuitsStand h (h.exhausted x) := by
  refine CircuitsStand.trans ?_ (.of_send (Hw.notice_send _ _ _ _ _))
  refine CircuitsStand.trans ?_ (.of_send (Hw.dropFrame_send _ _))
  exact (CircuitsStand.of_send (Hw.count_send _ _ _ _ _)).trans (Hw.sampleHeld_circuits _ _ _ _ _)

theorem Hw.findsFull_circuits (h : Hw) (x : Held) (chosen : Nat) : CircuitsStand h (h.findsFull x chosen) := by
  unfold Hw.findsFull
  split
  · exact .refl h
  · next d _ =>
    split
    · exact .refl h
    · split
      · exact Hw.exhausted_circuits _ _
      · have tried := Hw.deflectPort_send h x d.dst chosen
        generalize h.deflectPort x d.dst chosen = r at tried ⊢
        rcases r with ⟨_ | n, g⟩
        · exact .of_send tried
        · refine .of_send (Only.trans tried ?_)
          refine Only.trans ?_ (Hw.onEmpty_send _ _ _)
          refine Only.trans ?_ (Hw.enterAt_send _ _ _)
          exact (Hw.count_send _ _ _ _ _).trans (Hw.mapHeld_send _ _ _)

theorem Hw.linkLossDiscard_circuits (h : Hw) (x : Held) (c : Sys2Proof.Machine.Copy) : CircuitsStand h (h.linkLossDiscard x c) := by
  unfold Hw.linkLossDiscard
  dsimp only
  refine CircuitsStand.trans ?_ (Hw.sampleCopy_circuits _ _ _ _)
  split
  · exact (CircuitsStand.of_send (Hw.count_send _ _ _ _ _)).trans (.of_host (Hw.emit_host _ _))
  · exact .of_send (Hw.count_send _ _ _ _ _)

theorem Hw.linkLoss_circuits (h : Hw) (n : Nat) : CircuitsStand h (h.linkLoss n) := by
  refine .foldl _ _ (fun g x => ?_) _
  split
  · exact .refl g
  · split
    · exact (Hw.linkLossDiscard_circuits _ _ _).trans (.of_send (Hw.dropCopies_send _ _ _))
    · split
      · exact Hw.findsFull_circuits _ _ _
      · exact .refl g

/-! ### The port of a circuit in RETRAINING leaves UP (R93) -/

theorem CircuitsStand.circuitState {h h' : Hw} (stand : CircuitsStand h h') (i : Nat) : h'.circuitState i = h.circuitState i := by
  rw [Hw.circuitState, Hw.fld, stand i, Hw.circuitState, Hw.fld]

/-- The loss of a link takes circuits DOWN that are LIVE or VENTING, not one in RETRAINING. -/
theorem Hw.circuitLost_of_retraining {h : Hw} {i : Nat} (n : Nat) (retraining : h.circuitState i = 4) :
    (h.circuitLost n).circuitState i = 4 := by
  unfold Hw.circuitLost
  split
  · exact retraining
  · next j _ =>
    by_cases same : j = i
    · subst same
      simp [retraining]
    · have down : (((h.setFld (.circuitCtl j) Fld.circuitCtl_state 5).hostEvent 5).icEvent 84).circuitState i = 4 := by
        rw [(CircuitsStand.events _ 5 84).circuitState i, Hw.circuitState, Hw.fld_setFld_ne h (by simpa using Ne.symm same)]
        exact retraining
      dsimp only
      split
      · split
        · exact ((CircuitsStand.reroute _ _).circuitState i).trans down
        · exact down
      · exact retraining

/-- A change that moves no circuit and takes a port out of UP leaves a circuit in RETRAINING. -/
theorem Hw.leaveUp_of_retraining {h : Hw} {i : Nat} (n : Nat) {f : Hw → Hw} (change : CircuitsStand h (f h))
    (retraining : h.circuitState i = 4) : (h.leaveUp n f).circuitState i = 4 := by
  unfold Hw.leaveUp
  split
  · refine ((Hw.linkLoss_circuits _ n).circuitState i).trans (Hw.circuitLost_of_retraining n ?_)
    exact ((CircuitsStand.withPorts h [n] change).circuitState i).trans retraining
  · exact (change.circuitState i).trans retraining

end Sys2Proof.Machine
end

section
/-! PROOFS. Circuits (R91 to R93): what each command does in each state of its circuit, and what it refuses; with them O7 and O30. -/

namespace Sys2Proof.Machine

/-! ### CIRCUIT_CTL -/

theorem Hw.setCircuit_state (h : Hw) (i : Nat) {st : Nat} (small : st < 8) : (h.setCircuit i st).circuitState i = st :=
  (Hw.fld_setFld_self h _ st).trans (Nat.mod_eq_of_lt small)

theorem Hw.setCircuit_only {ps : List Part} {P : Reg → Prop} (h : Hw) (i st : Nat) (allowed : P (.circuitCtl i)) :
    Only ps P h (h.setCircuit i st) := Only.setFld h _ _ _ allowed

theorem Hw.setCircuit_link (h : Hw) (i st : Nat) : LinkOnly h (h.setCircuit i st) := LinkOnly.setFld h _ _ _ rfl

/-- A refused command sets CMD_ERR (R92, R93). -/
theorem Hw.circuitErr_cmdErr (h : Hw) (i : Nat) : (h.circuitErr i).bit (.circuitCtl i) Fld.circuitCtl_cmdErr = true := by
  rw [Hw.bit, Hw.circuitErr, Hw.fld_setFld_self]
  rfl

theorem Hw.circuitErr_only (h : Hw) (i : Nat) : Only [] (fun r => r = .circuitCtl i) h (h.circuitErr i) :=
  Only.setFld (P := fun r => r = .circuitCtl i) h _ _ _ rfl

/-! ### CIRCUIT_MAP (R92) -/

/-- The circuit is LIVE, VENTING or RETRAINING: its map entry is locked. -/
def Hw.CircuitInUse (h : Hw) (i : Nat) : Prop := h.circuitState i = 1 ∨ h.circuitState i = 2 ∨ h.circuitState i = 4

/-- The entry of the circuit map takes a word, and is good again in every P-die (R70). -/
def Hw.setCircuitMap (h : Hw) (i : Nat) (v : W64) : Hw :=
  { h.setHubReg (.circuitMap i) v with fwd := { (h.setHubReg (.circuitMap i) v).fwd with
      bad := (h.setHubReg (.circuitMap i) v).fwd.bad.filter fun x => !(x.1 == ⟨.circuit, i⟩) } }

theorem Hw.circuitMapWrite_of_inUse {h : Hw} {i : Nat} (acc : Acc) (v : W64) (inUse : h.CircuitInUse i) :
    h.circuitMapWrite i acc v = h.circuitErr i := if_pos inUse

theorem Hw.setCircuitMap_only (h : Hw) (i : Nat) (v : W64) :
    Only linkParts (fun r => r = .circuitMap i ∨ r.isLink) h (h.setCircuitMap i v) :=
  (Hw.setHubReg_only h (.circuitMap i) v (by simp [linkParts, pathParts]) (Or.inl rfl)).trans
    (Only.fwd _ _ (by simp [linkParts, pathParts]))

/-- What follows a change of ports is among what a change of a link's state can change. -/
theorem Hw.withPorts_after_link (h : Hw) (ns : List Nat) (f : Hw → Hw) : LinkOnly (f h) (h.withPorts ns f) := by
  refine (Hw.withPorts_after (P := noRegs) h ns f).mono (by simp +contextual [linkParts]) ?_
  rintro r (never | epoch)
  · exact never.elim
  · exact Or.inr (Or.inr epoch)

/-- The map of a circuit that is not in use takes the written word, with its PARITY (R92). -/
theorem Hw.circuitMapWrite_of_unused {h : Hw} {i : Nat} (acc : Acc) (v : W64) (unused : ¬h.CircuitInUse i) :
    (h.circuitMapWrite i acc v).reg (.circuitMap i) = withParity (h.writeWord (.circuitMap i) acc v) ∧
      Only linkParts (fun r => r = .circuitMap i ∨ r.isLink) h (h.circuitMapWrite i acc v) := by
  have run : h.circuitMapWrite i acc v = h.withPorts
      [h.circuitPort i, Fld.circuitMap_port.get (withParity (h.writeWord (.circuitMap i) acc v))].dedup fun g =>
        g.setCircuitMap i (withParity (h.writeWord (.circuitMap i) acc v)) := if_neg unused
  generalize withParity (h.writeWord (.circuitMap i) acc v) = word at run ⊢
  rw [run]
  constructor
  · rw [Hw.withPorts_reg _ _ _ (Reg.circuitMap_not_isEpoch i)]
    exact Hw.reg_setHubReg_self _ _ _
  · exact (Hw.setCircuitMap_only h i word).trans ((Hw.withPorts_after_link h _ fun g => g.setCircuitMap i word).mono (fun _ => id)
      fun _ => Or.inr)

/-! ### The port of a circuit trains (R93) -/

theorem Hw.circuitTrain_link (h : Hw) (v : Nv) (i : Nat) : LinkOnly h (h.circuitTrain v i) := by
  unfold Hw.circuitTrain
  dsimp only
  split
  · exact Hw.leaveUp_link _ _ _ (Hw.startTraining_link _ _ _ _)
  · exact .refl h

theorem Hw.circuitTrain_of_retraining {h : Hw} {i : Nat} (v : Nv) (retraining : h.circuitState i = 4) :
    (h.circuitTrain v i).circuitState i = 4 := by
  unfold Hw.circuitTrain
  dsimp only
  split
  · exact Hw.leaveUp_of_retraining _ (Hw.startTraining_circuits _ _ _ _) retraining
  · exact retraining

theorem Hw.withPorts_setCircuit_state (h : Hw) (ns : List Nat) (i : Nat) {st : Nat} (small : st < 8) :
    (h.withPorts ns fun h => h.setCircuit i st).circuitState i = st := by
  rw [Hw.circuitState, Hw.fld, Hw.withPorts_reg h ns _ (Reg.circuitCtl_not_isEpoch i)]
  exact Hw.setCircuit_state h i small

theorem Hw.withPorts_setCircuit_link (h : Hw) (ns : List Nat) (i st : Nat) : LinkOnly h (h.withPorts ns fun h => h.setCircuit i st) :=
  LinkOnly.withPorts h ns _ (Hw.setCircuit_link h i st)

/-! ### The commands, case by case -/

section
variable {h : Hw} {i : Nat}

theorem Hw.circuitEnable_of_off (v : Nv) (off : h.circuitState i = 0) (unheld : h.bypass (h.circuitPort i) = false) :
    h.circuitEnable v i = (h.withPorts [h.circuitPort i] fun h => h.setCircuit i 4).circuitTrain v i := by
  simp [Hw.circuitEnable, off, unheld]

theorem Hw.circuitEnable_refused (v : Nv) (refused : h.circuitState i ≠ 0 ∨ h.bypass (h.circuitPort i) = true) :
    h.circuitEnable v i = h.circuitErr i := if_pos refused

theorem Hw.circuitVent_of_live (live : h.circuitState i = 1) :
    h.circuitVent i = ((h.setCircuit i 2).ventNotice (h.circuitPort i) 0 0).reroute
      [rackKey (h.fld (.circuitMap i) Fld.circuitMap_remoteRack)] := by
  unfold Hw.circuitVent
  simp only [live]

theorem Hw.circuitVent_of_down (down : h.circuitState i = 5) : h.circuitVent i = h.setCircuit i 2 := by
  unfold Hw.circuitVent
  simp only [down]

theorem Hw.circuitVent_refused (notLive : h.circuitState i ≠ 1) (notDown : h.circuitState i ≠ 5) : h.circuitVent i = h.circuitErr i := by
  unfold Hw.circuitVent
  split
  · contradiction
  · contradiction
  · rfl

theorem Hw.circuitRetrain_of_empty_or_down (v : Nv) (rests : h.circuitState i = 3 ∨ h.circuitState i = 5) :
    h.circuitRetrain v i = (h.setCircuit i 4).circuitTrain v i := if_pos rests

theorem Hw.circuitRetrain_refused (v : Nv) (notEmpty : h.circuitState i ≠ 3) (notDown : h.circuitState i ≠ 5) :
    h.circuitRetrain v i = h.circuitErr i := if_neg (not_or.2 ⟨notEmpty, notDown⟩)

theorem Hw.circuitDisable_of_empty_or_down (rests : h.circuitState i = 3 ∨ h.circuitState i = 5) :
    h.circuitDisable i = h.withPorts [h.circuitPort i] fun h => h.setCircuit i 0 := if_pos rests

theorem Hw.circuitDisable_refused (notEmpty : h.circuitState i ≠ 3) (notDown : h.circuitState i ≠ 5) :
    h.circuitDisable i = h.circuitErr i := if_neg (not_or.2 ⟨notEmpty, notDown⟩)

theorem Hw.circuitEmpty_of_venting (venting : h.circuitState i = 2) (empty : h.portEmpty (h.circuitPort i) = true) :
    h.circuitEmpty i = (((h.setCircuit i 3).ventNotice (h.circuitPort i) 0 1).hostEvent 5).icEvent 84 := if_pos ⟨venting, empty⟩

theorem Hw.circuitRetrainTimeout_of_late (retraining : h.circuitState i = 4) (unlit : h.linkUp (h.circuitPort i) = false)
    (late : h.linkState (h.circuitPort i) = 0 ∨ h.linkState (h.circuitPort i) = 1 ∨ 100 * slotsUs ≤ h.linkAge (h.circuitPort i)) :
    h.circuitRetrainTimeout i = (((h.setCircuit i 5).hostEvent 5).icEvent 84).trainFail (h.circuitPort i) :=
  if_pos ⟨retraining, unlit, late⟩

/-- A live circuit vents: its state, its re-route, and what else the command can change. -/
theorem Hw.circuitVent_live_spec (live : h.circuitState i = 1) :
    (h.circuitVent i).circuitState i = 2 ∧
      (h.fwd.gathered = none → (h.circuitVent i).fld .epochStatus Fld.epochStatus_epoch =
        (h.fld .epochStatus Fld.epochStatus_epoch + 1) % 2 ^ 32) ∧
      Only pathParts (fun r => r = .circuitCtl i ∨ r.isEpoch) h (h.circuitVent i) := by
  have told := Hw.ventNotice_send (h.setCircuit i 2) (h.circuitPort i) 0 0
  rw [Hw.circuitVent_of_live live]
  refine ⟨?_, fun outside => ?_, ?_⟩
  · rw [(CircuitsStand.reroute _ _).circuitState i, (CircuitsStand.of_send told).circuitState i]
    exact Hw.setCircuit_state h i (by decide)
  · have fwd : ((h.setCircuit i 2).ventNotice (h.circuitPort i) 0 0).fwd = h.fwd := told.parts .fwd (by simp [sendParts])
    rw [Hw.reroute_epoch _ (by rw [fwd, outside]), Only.fld told (by simp [Reg.isNote, Reg.isCnt, Reg.isIcSrc]), Hw.setCircuit,
      Hw.fld_setFld_ne h (by simp)]
  · exact ((Hw.setCircuit_only h i 2 (Or.inl rfl)).trans (Only.pathSend told)).trans (Hw.reroute_path _ _)

end

/-- Settles O7: the equations of the commands above, with the state that each leaves. -/
theorem circuitCommandsMoveTheState : Obligations.CircuitCommandsMoveTheState := by
  unfold Obligations.CircuitCommandsMoveTheState
  refine ⟨?mapWrite, ?enable, ?ventLive, ?ventDown, ?rests, ?empty, ?timeout, ?refused⟩
  case mapWrite =>
    intro i acc v s power unused
    obtain ⟨word, frame⟩ := Hw.circuitMapWrite_of_unused (h := s.hw) (i := i) acc v fun inUse => by
      rcases inUse with st | st | st <;> omega
    exact ⟨s.onHw fun h => h.circuitMapWrite i acc v, next_onLive power _, word, OnlyHw.of_onHw frame⟩
  case enable =>
    intro i s power off unheld
    have run := Hw.circuitEnable_of_off s.nv off unheld
    refine ⟨s.onHw fun h => h.circuitEnable s.nv i, next_onLive power _, ?_, OnlyHw.of_onHw ?_⟩
    all_goals simp only [State.onHw_hw, run]
    · exact Hw.circuitTrain_of_retraining _ (Hw.withPorts_setCircuit_state _ _ _ (by decide))
    · exact (Hw.withPorts_setCircuit_link _ _ _ _).trans (Hw.circuitTrain_link _ _ _)
  case ventLive =>
    intro i s power live
    obtain ⟨state, epoch, frame⟩ := Hw.circuitVent_live_spec live
    exact ⟨s.onHw fun h => h.circuitVent i, next_onLive power _, state, epoch, OnlyHw.of_onHw frame⟩
  case ventDown =>
    intro i s power down
    have run := Hw.circuitVent_of_down down
    refine ⟨s.onHw fun h => h.circuitVent i, next_onLive power _, ?_, OnlyHw.of_onHw ?_⟩
    all_goals simp only [State.onHw_hw, run]
    · exact Hw.setCircuit_state _ _ (by decide)
    · exact Hw.setCircuit_only _ _ _ rfl
  case rests =>
    intro i s power rests
    constructor
    · have run := Hw.circuitRetrain_of_empty_or_down s.nv rests
      refine ⟨s.onHw fun h => h.circuitRetrain s.nv i, next_onLive power _, ?_, OnlyHw.of_onHw ?_⟩
      all_goals simp only [State.onHw_hw, run]
      · exact Hw.circuitTrain_of_retraining _ (Hw.setCircuit_state _ _ (by decide))
      · exact (Hw.setCircuit_link _ _ _).trans (Hw.circuitTrain_link _ _ _)
    · have run := Hw.circuitDisable_of_empty_or_down rests
      refine ⟨s.onHw fun h => h.circuitDisable i, next_onLive power _, ?_, OnlyHw.of_onHw ?_⟩
      all_goals simp only [State.onHw_hw, run]
      · exact Hw.withPorts_setCircuit_state _ _ _ (by decide)
      · exact Hw.withPorts_setCircuit_link _ _ _ _
  case empty =>
    intro i s venting noCopy
    have run := Hw.circuitEmpty_of_venting venting (Hw.portEmpty_of_no_copy noCopy)
    have told := Hw.ventNotice_send (s.hw.setCircuit i 3) (s.hw.circuitPort i) 0 1
    refine ⟨_, rfl, ?_, ?_, OnlyHw.of_onHw ?_⟩
    all_goals simp only [State.onHw_hw, run]
    · rw [(CircuitsStand.events _ 5 84).circuitState i, (CircuitsStand.of_send told).circuitState i]
      exact Hw.setCircuit_state _ _ (by decide)
    · exact Hw.events_latched _ 84 (by decide)
    · exact ((Hw.setCircuit_link _ _ _).trans (LinkOnly.of_send told)).trans (Hw.events_link _ 5 84)
  case timeout =>
    intro i s retraining unlit late
    have run := Hw.circuitRetrainTimeout_of_late retraining unlit late
    have failed : Only sendParts Reg.isNote (((s.hw.setCircuit i 5).hostEvent 5).icEvent 84)
        ((((s.hw.setCircuit i 5).hostEvent 5).icEvent 84).trainFail (s.hw.circuitPort i)) := Hw.record_send _ _
    refine ⟨_, rfl, ?_, ?_, OnlyHw.of_onHw ?_⟩
    all_goals simp only [State.onHw_hw, run]
    · rw [(CircuitsStand.of_send failed).circuitState i, (CircuitsStand.events _ 5 84).circuitState i]
      exact Hw.setCircuit_state _ _ (by decide)
    · rw [Only.reg_of_send failed Reg.hostIrqSts_not_isEpoch]
      exact Hw.events_latched _ 84 (by decide)
    · exact ((Hw.setCircuit_link _ _ _).trans (Hw.events_link _ 5 84)).trans (LinkOnly.of_send failed)
  case refused =>
    intro i acc v c s power refusal
    have refused {f : Hw → Hw} (run : f s.hw = s.hw.circuitErr i) (command : exec c s = .next (s.onLive f)) :
        ∃ t, exec c s = .next t ∧ t.hw.bit (.circuitCtl i) Fld.circuitCtl_cmdErr = true ∧ OnlyHw [] (fun r => r = .circuitCtl i) s t := by
      refine ⟨s.onHw f, command.trans (next_onLive power f), ?_, OnlyHw.of_onHw ?_⟩
      · rw [State.onHw_hw, run]
        exact Hw.circuitErr_cmdErr _ _
      · rw [run]
        exact Hw.circuitErr_only _ _
    rcases refusal with ⟨rfl, inUse⟩ | ⟨rfl, held⟩ | ⟨rfl, notLive, notDown⟩ | ⟨rfl | rfl, notEmpty, notDown⟩
    · exact refused (Hw.circuitMapWrite_of_inUse acc v inUse) rfl
    · exact refused (Hw.circuitEnable_refused s.nv held) rfl
    · exact refused (Hw.circuitVent_refused notLive notDown) rfl
    · exact refused (Hw.circuitRetrain_refused s.nv notEmpty notDown) rfl
    · exact refused (Hw.circuitDisable_refused notEmpty notDown) rfl

/-! ### A map entry in use (R92) -/

/-- A BAR0 write that meets a register outside the blocks of the data plane is a write of that register, ready or not (R253, R255). -/
theorem State.busWrite_of_hubBlock {s : State} {who : Agent} {addr : Nat} {acc : Acc} {v : W64} {r : Reg}
    (aligned : accAligned addr acc = true) (hub : dpBlock addr = false) (plain : ¬(0x180000 ≤ addr ∧ addr < 0x188000))
    (there : regAt addr = some r) : s.busWrite who addr acc v = s.writeReg who r acc v := by
  have below : addr < 0x800000 := by simpa [dpBlock] using hub
  have reached : s.hw.blockLost addr = false := by simp [Hw.blockLost, blockQuad, below]
  simp [State.busWrite, aligned, hub, reached, plain, there]

/-- Settles O30: either way of writing ends in `Hw.circuitMapWrite`, which only sets CMD_ERR. -/
theorem circuitMapIsLockedWhileInUse : Obligations.CircuitMapIsLockedWhileInUse := by
  unfold Obligations.CircuitMapIsLockedWhileInUse
  intro i acc v s power inUse c write
  have command : exec c s = .next (s.onHw fun h => h.circuitMapWrite i acc v) := by
    rcases write with rfl | ⟨who, addr, rfl, allowed, aligned, there, hub, plain⟩
    · exact next_onLive power _
    · rw [exec_registerWrite_bar0 power allowed, State.busWrite_of_hubBlock aligned hub plain there]
      rfl
  have run := Hw.circuitMapWrite_of_inUse acc v inUse
  refine ⟨_, command, ?_, ?_, OnlyHw.of_onHw ?_⟩
  all_goals simp only [State.onHw_hw, run]
  · exact (Hw.circuitErr_only s.hw i).regs (.circuitMap i) (by simp)
  · exact Hw.circuitErr_cmdErr s.hw i
  · exact Hw.circuitErr_only s.hw i

end Sys2Proof.Machine
end

section
/-! PROOFS. Writes of shapers and policers (R117 to R120) and of SPILL_CFG (R104, R190): O3, O29 and O4. -/

namespace Sys2Proof.Machine

/-! ### OVERBOOK (R118) -/

/-- CIR summed over the eight shapers of port `n`, in units of 100 Mb/s. -/
def Hw.cirSum (h : Hw) (n : Nat) : Nat := ((List.range 8).map fun k => h.fld (.shaper n k 0) Fld.shaper_rate).sum

theorem Hw.overbook_only (ps : List Part) (h : Hw) (n : Nat) : Only ps (fun r => r = .schedPort n) h (h.overbook n) :=
  Only.setFld (P := fun r => r = .schedPort n) h (.schedPort n) _ _ rfl

theorem Hw.overbook_reg (h : Hw) (n : Nat) {r : Reg} (other : r ≠ .schedPort n) : (h.overbook n).reg r = h.reg r :=
  (Hw.overbook_only [] h n).regs r other

@[simp] theorem Hw.overbook_egr (h : Hw) (n : Nat) : (h.overbook n).egr = h.egr := rfl

theorem Hw.overbook_cirSum (h : Hw) (n : Nat) : (h.overbook n).cirSum n = h.cirSum n := by
  simp only [Hw.cirSum, Hw.fld, Hw.overbook_reg h n (r := .shaper n _ 0) (by simp)]

theorem Hw.overbook_lineRate (h : Hw) (n : Nat) : (h.overbook n).lineRate n = h.lineRate n := by
  have shape : (h.overbook n).shape (n / 8) = h.shape (n / 8) := by
    simp only [Hw.shape, Hw.fld, Hw.overbook_reg h n (r := .octetCfg (n / 8)) (by simp)]
  have lanes : (h.overbook n).txLanes n = h.txLanes n := by
    simp only [Hw.txLanes, Hw.fld, Hw.overbook_reg h n (r := .portLink n) (by simp)]
  simp only [Hw.lineRate, Hw.portLanes, shape, lanes]

/-- OVERBOOK reads 1 just when the CIRs sum to more than nine tenths of the line rate. -/
theorem Hw.overbook_bit (h : Hw) (n : Nat) : (h.overbook n).bit (.schedPort n) Fld.schedPort_overbook =
    decide (9 * (h.overbook n).lineRate n < 10 * (h.overbook n).cirSum n) := by
  rw [Hw.overbook_lineRate, Hw.overbook_cirSum, Hw.bit, Hw.overbook, Hw.fld_setFld_self h (.schedPort n) _]
  show ((if 9 * h.lineRate n < 10 * h.cirSum n then 1 else 0) % 2 ^ Fld.schedPort_overbook.width != 0) = _
  split <;> simp_all

/-! ### Buckets (R120) -/

/-- Setting a word and filling its buckets changes nothing else. -/
theorem Hw.setFilled_only (h : Hw) (r : Reg) (v : W64) (b : BucketRef) :
    Only [.egr] (fun x => x = r) h ((h.setReg r v).fillBucket b) :=
  (Only.setReg (P := fun x => x = r) h r v rfl).trans (Only.egr _ _ (List.mem_singleton.2 rfl))

theorem Hw.aget_fillBucket (h : Hw) (b : BucketRef) : aget b (h.fillBucket b).egr.buckets = none := aget_adel_self b h.egr.buckets

/-- A bucket pair that is not listed is full to its burst sizes. -/
theorem Hw.shaperNow_of_unlisted {h : Hw} {n t : Nat} (unlisted : aget (.shaper n t) h.egr.buckets = none) :
    (h.shaperNow n t).c = ((max (h.fld (.shaper n t 0) Fld.shaper_burst) 16 * 1024 * 80 : Nat) : Int) ∧
    (h.shaperNow n t).p = ((max (h.fld (.shaper n t 1) Fld.shaper_burst) 16 * 1024 * 80 : Nat) : Int) := by
  simp only [Hw.shaperNow, Hw.bucket, unlisted]
  exact ⟨rfl, rfl⟩

/-! ### The writes -/

theorem Hw.shaperWrite_eq {h : Hw} {n : Nat} (t w : Nat) (acc : Acc) (v : W64) (start : h.portStart n = true)
    (reach : h.quadReach (portDie n) = true) : h.shaperWrite n t w acc v =
      ((h.setReg (.shaper n t w) (h.writeWord (.shaper n t w) acc v)).fillBucket (.shaper n t)).overbook n := by
  simp [Hw.shaperWrite, start, reach]

/-- After the write both buckets of the shaper are full. -/
theorem Hw.shaperWrite_unlisted {h : Hw} {n : Nat} (t w : Nat) (acc : Acc) (v : W64) (start : h.portStart n = true)
    (reach : h.quadReach (portDie n) = true) : aget (.shaper n t) (h.shaperWrite n t w acc v).egr.buckets = none := by
  rw [Hw.shaperWrite_eq t w acc v start reach, Hw.overbook_egr, Hw.aget_fillBucket]

theorem Hw.policerWrite_eq {h : Hw} {q : Nat} (k w : Nat) (acc : Acc) (v : W64) (reach : h.quadReach q = true) :
    h.policerWrite q k w acc v = (h.setReg (.policer q k w) (h.writeWord (.policer q k w) acc v)).fillBucket (.policer q k) := by
  simp [Hw.policerWrite, reach]

/-- Settles O3: a shaper's write is the word, full buckets and then OVERBOOK, which reads no bucket; a policer's ends with the buckets. -/
theorem shaperAndPolicerWritesFill : Obligations.ShaperAndPolicerWritesFill := by
  unfold Obligations.ShaperAndPolicerWritesFill
  constructor
  · intro p c peak acc v s start reach
    have run := Hw.shaperWrite_eq c (if peak then 1 else 0) acc v start reach
    have unlisted := Hw.shaperWrite_unlisted c (if peak then 1 else 0) acc v start reach
    refine ⟨_, rfl, ?word, ?committed, ?excess, ?overbook, OnlyHw.of_onHw ?frame⟩
    case word => rw [State.onHw_hw, run, Hw.overbook_reg _ _ (by simp), Hw.fillBucket_reg, Hw.reg_setReg_self]
    case committed => exact (Hw.shaperNow_of_unlisted unlisted).1
    case excess => exact (Hw.shaperNow_of_unlisted unlisted).2
    case overbook => rw [State.onHw_hw, run]; exact Hw.overbook_bit _ _
    case frame =>
      rw [run]
      refine Only.trans ?_ ((Hw.overbook_only _ _ _).mono (fun _ => id) fun _ => Or.inr)
      exact (Hw.setFilled_only _ _ _ _).mono (fun _ => id) fun _ => Or.inl
  · intro q k peak acc v s reach
    have run := Hw.policerWrite_eq k (if peak then 1 else 0) acc v reach
    refine ⟨_, rfl, ?_, ?_, OnlyHw.of_onHw ?_⟩
    all_goals simp only [State.onHw_hw, run]
    · rw [Hw.fillBucket_reg, Hw.reg_setReg_self]
    · exact Hw.aget_fillBucket _ _
    · exact Hw.setFilled_only _ _ _ _

/-- The line rate of an Oslux port of one lane is 400 Gb/s. -/
theorem Hw.lineRate_of_one_lane {h : Hw} {n : Nat} (oslux : h.oslux n = true) (one : h.portLanes n = 1) (active : h.txLanes n ≤ 1) :
    h.lineRate n = 4000 := by
  have shape : h.shape (n / 8) ≠ 3 := by simpa [Hw.oslux] using oslux
  rw [Hw.lineRate, if_neg shape]
  split <;> omega

/-- Settles O29: OVERBOOK is computed last, from the words as they then stand; nine tenths of 4,000 units are 3,600. -/
theorem overbookFollowsTheRates : Obligations.OverbookFollowsTheRates := by
  unfold Obligations.OverbookFollowsTheRates
  intro p c peak acc v s start reach
  have bit : (s.hw.shaperWrite p c (if peak then 1 else 0) acc v).bit (.schedPort p) Fld.schedPort_overbook = true ↔
      9 * (s.hw.shaperWrite p c (if peak then 1 else 0) acc v).lineRate p <
        10 * (s.hw.shaperWrite p c (if peak then 1 else 0) acc v).cirSum p := by
    rw [Hw.shaperWrite_eq c _ acc v start reach, Hw.overbook_bit, decide_eq_true_iff]
  refine ⟨_, rfl, bit, fun oslux one active => bit.trans ?_⟩
  have rate := Hw.lineRate_of_one_lane oslux one active
  rw [State.onHw_hw] at rate ⊢
  rw [rate, Hw.cirSum]
  omega

/-! ### SPILL_CFG (R104, R190) -/

/-- A write that moves SPILL_GIB while the region is in use only sets CFG_ERR. -/
theorem Hw.spillCfgWrite_refused {h : Hw} {q : Nat} {acc : Acc} {v : W64} (reach : h.quadReach q = true)
    (moves : Fld.spillCfg_spillGib.get (h.writeWord (.spillCfg q) acc v) ≠ h.fld (.spillCfg q) Fld.spillCfg_spillGib)
    (busy : h.bit (.spillCfg q) Fld.spillCfg_spillEn = true ∨ h.spillUsed q ≠ 0) :
    h.spillCfgWrite q acc v = h.setFld (.bufStatus q) Fld.bufStatus_cfgErr 1 := by
  have inUse : (h.bit (.spillCfg q) Fld.spillCfg_spillEn || decide (h.spillUsed q ≠ 0)) = true := by simpa using busy
  simp only [Hw.spillCfgWrite, Hw.spillGib, reach, inUse, bne_iff_ne.2 moves, Bool.not_true, Bool.and_self, Bool.true_or, if_true,
    Bool.false_eq_true, if_false]

/-- The largest of some numbers is bounded where each of them is. -/
theorem foldl_max_le {l : List Nat} {a b : Nat} (first : a ≤ b) (rest : ∀ x ∈ l, x ≤ b) : l.foldl max a ≤ b := by
  induction l generalizing a with
  | nil => exact first
  | cons x l ih => exact ih (max_le first (rest x (by simp))) fun y hy => rest y (by simp [hy])

/-- A write that leaves SPILL_GIB, with its fields in range, sets the word. -/
theorem Hw.spillCfgWrite_taken {h : Hw} {q : Nat} {acc : Acc} {v : W64} (quad : q < 4) (reach : h.quadReach q = true)
    (stays : Fld.spillCfg_spillGib.get (h.writeWord (.spillCfg q) acc v) = h.fld (.spillCfg q) Fld.spillCfg_spillGib)
    (fits : ∀ k, k < 4 → h.fld (.spillCfg k) Fld.spillCfg_spillGib ≤ 24 ∧
      h.fld .gondolaCfg Fld.gondolaCfg_exportGib + 4 * h.fld (.spillCfg k) Fld.spillCfg_spillGib ≤ 368)
    (nonzero : 1 ≤ Fld.spillCfg_spillBwPct.get (h.writeWord (.spillCfg q) acc v))
    (most : Fld.spillCfg_spillBwPct.get (h.writeWord (.spillCfg q) acc v) ≤ 100) :
    h.spillCfgWrite q acc v = h.setReg (.spillCfg q) (h.writeWord (.spillCfg q) acc v) := by
  have within (k : Nat) (hk : k < 4) : h.spillGib k ≤ (368 - h.fld .gondolaCfg Fld.gondolaCfg_exportGib) / 4 := by
    have := (fits k hk).2
    unfold Hw.spillGib
    omega
  have largest := foldl_max_le (within q quad) (l := ((List.range 4).filter fun k => k != q).map h.spillGib)
    (List.forall_mem_map.2 fun k hk => within k (List.mem_range.1 (List.mem_filter.1 hk).1))
  have room := (fits q quad).2
  have size := (fits q quad).1
  unfold Hw.spillCfgWrite
  rw [if_neg (by simp [reach])]
  refine if_neg ?_
  rw [stays]
  simp only [Hw.spillGib] at largest ⊢
  simp only [bne_self_eq_false, Bool.false_and, Bool.false_or, Bool.or_eq_true, decide_eq_true_eq, beq_iff_eq]
  omega

/-- Settles O4: the two equations of `Hw.spillCfgWrite` above. -/
theorem spillCfgWriteIsGuarded : Obligations.SpillCfgWriteIsGuarded := by
  unfold Obligations.SpillCfgWriteIsGuarded
  intro q acc v s reach
  constructor
  · intro moves busy
    have run := Hw.spillCfgWrite_refused reach moves busy
    refine ⟨_, rfl, ?_, ?_, OnlyHw.of_onHw ?_⟩
    all_goals simp only [State.onHw_hw, run]
    · exact Hw.reg_setFld_ne _ (by simp) _ _
    · rw [Hw.bit, Hw.fld_setFld_self]
      decide
    · exact Only.setFld (P := fun r => r = .bufStatus q) s.hw _ _ _ rfl
  · intro stays fits nonzero most
    have run := Hw.spillCfgWrite_taken q.isLt reach stays fits nonzero most
    refine ⟨_, rfl, ?_, OnlyHw.of_onHw ?_⟩
    all_goals simp only [State.onHw_hw, run]
    · exact Hw.reg_setReg_self _ _ _
    · exact Only.setReg (P := fun r => r = .spillCfg q) s.hw _ _ rfl

end Sys2Proof.Machine
end

section
/-! PROOFS. Held frames by their numbers (R82, R96): where the copies of one stand after a move, and that what the chip sends of its own
leaves the frames numbered before it. -/

namespace Sys2Proof.Machine

/-! ### A frame and its copies -/

/-- A held frame numbered `id` has the bytes `f` and the copies `cs`. -/
def Hw.Holds (h : Hw) (id : Nat) (f : Frame) (cs : List Copy) : Prop := ∃ y ∈ h.buf.held, y.id = id ∧ y.frame = f ∧ y.copies = cs

/-- A change of a frame that leaves its number, its bytes and its copies. -/
def Held.Keeps (F : Held → Held) : Prop := ∀ x, (F x).id = x.id ∧ (F x).frame = x.frame ∧ (F x).copies = x.copies

section
variable {h h' : Hw} {id i : Nat} {f : Frame} {cs : List Copy} {F : Held → Held}

theorem Hw.holds_of_mem {x : Held} (held : x ∈ h.buf.held) : h.Holds x.id x.frame x.copies := ⟨x, held, rfl, rfl, rfl⟩

theorem Hw.mem_of_heldAt {x : Held} (found : h.heldAt id = some x) : x ∈ h.buf.held ∧ x.id = id :=
  ⟨List.mem_of_find?_eq_some found, by simpa using List.find?_some found⟩

theorem Hw.holds_of_heldAt {x : Held} (found : h.heldAt id = some x) : h.Holds id x.frame x.copies :=
  let ⟨held, number⟩ := Hw.mem_of_heldAt found
  number ▸ Hw.holds_of_mem held

theorem Hw.holds_congr (same : h'.buf.held = h.buf.held) : h'.Holds id f cs ↔ h.Holds id f cs := by rw [Hw.Holds, same, Hw.Holds]

theorem Hw.mapHeld_holds (h : Hw) (i : Nat) (F : Held → Held) : (h.mapHeld i F).Holds id f cs ↔
    ∃ x ∈ h.buf.held, (if x.id = i then F x else x).id = id ∧ (if x.id = i then F x else x).frame = f ∧
      (if x.id = i then F x else x).copies = cs := by
  simp [Hw.Holds, Hw.mapHeld]

theorem Hw.mapHeld_holds_of_keeps (h : Hw) (i : Nat) (keeps : Held.Keeps F) : (h.mapHeld i F).Holds id f cs ↔ h.Holds id f cs := by
  have kept (x : Held) : (if x.id = i then F x else x).id = x.id ∧ (if x.id = i then F x else x).frame = x.frame ∧
      (if x.id = i then F x else x).copies = x.copies := by
    split
    · exact keeps x
    · exact ⟨rfl, rfl, rfl⟩
  rw [Hw.mapHeld_holds, Hw.Holds]
  simp only [kept]

/-- A change of one frame leaves those of other numbers. -/
theorem Hw.mapHeld_holds_of_ne (h : Hw) (other : id ≠ i) (number : ∀ x, (F x).id = x.id) :
    (h.mapHeld i F).Holds id f cs ↔ h.Holds id f cs := by
  rw [Hw.mapHeld_holds, Hw.Holds]
  refine exists_congr fun x => and_congr_right fun _ => ?_
  split
  · next here =>
    rw [number]
    exact iff_of_false (fun ⟨same, _⟩ => other (same ▸ here)) fun ⟨same, _⟩ => other (same ▸ here)
  · exact Iff.rfl

/-- A change of the copies of one frame is seen in them. -/
theorem Hw.Holds.mapCopies (stands : h.Holds id f cs) (g : Copy → Copy) :
    (h.mapHeld id fun x => { x with copies := x.copies.map g }).Holds id f (cs.map g) := by
  obtain ⟨x, held, number, frame, copies⟩ := stands
  refine (Hw.mapHeld_holds _ _ _).2 ⟨x, held, ?_⟩
  simp [number, frame, copies]

/-- Points of a sampling tag leave a frame and its copies (R313). -/
theorem Hw.samplePoint_holds (h : Hw) (i k : Nat) : (h.samplePoint i k).Holds id f cs ↔ h.Holds id f cs :=
  Hw.mapHeld_holds_of_keeps h i fun _ => ⟨rfl, rfl, rfl⟩

theorem Hw.copyPoint_holds (h : Hw) (i n k : Nat) : (h.copyPoint i n k).Holds id f cs ↔ h.Holds id f cs :=
  Hw.mapHeld_holds_of_keeps h i fun _ => ⟨rfl, rfl, rfl⟩

/-! ### A copy joins a queue -/

/-- What joining the queue toward port `n` at place `j` makes of a copy. -/
def Copy.joined (n : Nat) (spot : Spot) (j : Nat) (c : Copy) : Copy := if c.port = n then { c with spot := spot, join := j } else c

theorem Copy.joined_port (n : Nat) (spot : Spot) (j : Nat) (c : Copy) : (c.joined n spot j).port = c.port := by
  unfold Copy.joined
  split <;> rfl

/-- The class may wake first, which moves no frame. -/
theorem Hw.joinCopy_buf (h : Hw) (id n t : Nat) (spot : Spot) : (h.joinCopy id n t spot).buf =
    (({ h with buf := { h.buf with nextJoin := h.buf.nextJoin + 1 } } : Hw).mapHeld id fun x =>
      { x with copies := x.copies.map (Copy.joined n spot h.buf.nextJoin) }).buf := by
  unfold Hw.joinCopy
  dsimp only
  split <;> rfl

theorem Hw.Holds.joinCopy (stands : h.Holds id f cs) (n t : Nat) (spot : Spot) :
    (h.joinCopy id n t spot).Holds id f (cs.map (Copy.joined n spot h.buf.nextJoin)) :=
  (Hw.holds_congr (congrArg Buf.held (Hw.joinCopy_buf h id n t spot))).2 (Hw.Holds.mapCopies (h := { h with buf := _ }) stands _)

/-- After the copies toward `ports` have joined their queues one by one, each step at some place and spot, only other copies still wait. -/
theorem Hw.Holds.foldl_join {step : Hw → Nat → Hw} (ports : List Nat) (stands : h.Holds id f cs)
    (joins : ∀ (g : Hw) n cs, g.Holds id f cs → ∃ spot j, spot ≠ .landing ∧ (step g n).Holds id f (cs.map (Copy.joined n spot j))) :
    ∃ ds, (ports.foldl step h).Holds id f ds ∧ ds.map (·.port) = cs.map (·.port) ∧
      ∀ d ∈ ds, d.spot = .landing → d ∈ cs ∧ d.port ∉ ports := by
  induction ports generalizing h cs with
  | nil => exact ⟨cs, stands, rfl, fun d here _ => ⟨here, List.not_mem_nil⟩⟩
  | cons n ports ih =>
    obtain ⟨spot, j, moved, stepped⟩ := joins h n cs stands
    obtain ⟨ds, stand, same, wait⟩ := ih stepped
    refine ⟨ds, stand, same.trans ?_, fun d here waits => ?_⟩
    · simp [Copy.joined_port]
    · obtain ⟨joined, elsewhere⟩ := wait d here waits
      obtain ⟨c, there, rfl⟩ := List.mem_map.1 joined
      unfold Copy.joined at waits elsewhere ⊢
      split at waits
      · exact absurd waits moved
      · next apart => simp_all

end

/-! ### Frames numbered before `n` -/

/-- Where every number given so far may be beyond `n`, this stays so, and the frames numbered before `n` stand as they did. -/
def SameBefore (n : Nat) (h h' : Hw) : Prop :=
  n ≤ h.buf.nextId → n ≤ h'.buf.nextId ∧ ∀ id f cs, id < n → (h'.Holds id f cs ↔ h.Holds id f cs)

namespace SameBefore

theorem refl (n : Nat) (h : Hw) : SameBefore n h h := fun given => ⟨given, fun _ _ _ _ => Iff.rfl⟩

theorem trans {n : Nat} {a b c : Hw} (first : SameBefore n a b) (second : SameBefore n b c) : SameBefore n a c := fun given =>
  let ⟨given', same⟩ := first given
  let ⟨given'', same'⟩ := second given'
  ⟨given'', fun id f cs early => (same' id f cs early).trans (same id f cs early)⟩

theorem foldl {n : Nat} {α : Type} (l : List α) (g : Hw → α → Hw) (each : ∀ h x, SameBefore n h (g h x)) (h : Hw) :
    SameBefore n h (l.foldl g h) := by
  induction l generalizing h with
  | nil => exact refl n h
  | cons x l ih => exact (each h x).trans (ih _)

/-- It is enough to prove it where the numbers given so far may be beyond `n`. -/
theorem of_given {n : Nat} {h h' : Hw} (same : n ≤ h.buf.nextId → SameBefore n h h') : SameBefore n h h' := fun given => same given given

theorem of_held {n : Nat} {h h' : Hw} (held : h'.buf.held = h.buf.held) (next : h'.buf.nextId = h.buf.nextId) : SameBefore n h h' :=
  fun given => ⟨next ▸ given, fun _ _ _ _ => Hw.holds_congr held⟩

theorem of_buf {n : Nat} {h h' : Hw} (same : h'.buf = h.buf) : SameBefore n h h' :=
  of_held (congrArg Buf.held same) (congrArg Buf.nextId same)

theorem mapHeld {n i : Nat} {F : Held → Held} (h : Hw) (late : n ≤ i) (number : ∀ x, (F x).id = x.id) : SameBefore n h (h.mapHeld i F) :=
  fun given => ⟨given, fun _ _ _ early => Hw.mapHeld_holds_of_ne h (by omega) number⟩

theorem addHeld {n : Nat} (h : Hw) {x : Held} (late : n ≤ x.id) : SameBefore n h (h.addHeld x) := fun given => by
  refine ⟨given, fun id f cs early => ?_⟩
  have other : x.id ≠ id := by omega
  simp [Hw.Holds, Hw.addHeld, or_and_right, exists_or, other]

theorem freshId (n : Nat) (h : Hw) : SameBefore n h h.freshId.2 := fun given => ⟨Nat.le_succ_of_le given, fun _ _ _ _ => Iff.rfl⟩

end SameBefore

theorem Hw.count_same (n : Nat) (h : Hw) (d ev qual k : Nat) : SameBefore n h (h.count d ev qual k) := .of_buf (Hw.count_buf h d ev qual k)

theorem Hw.joinCopy_same {n id : Nat} (h : Hw) (late : n ≤ id) (p t : Nat) (spot : Spot) : SameBefore n h (h.joinCopy id p t spot) := by
  refine SameBefore.trans (b := { h with buf := { h.buf with nextJoin := h.buf.nextJoin + 1 } }) (.of_held rfl rfl) ?_
  exact (SameBefore.mapHeld (F := fun x => { x with copies := x.copies.map (Copy.joined p spot h.buf.nextJoin) }) _ late
    fun _ => rfl).trans (.of_buf (Hw.joinCopy_buf h id p t spot))

theorem Hw.noteSource_same (n : Nat) (h : Hw) (q p t : Nat) (src : Option Node) : SameBefore n h (h.noteSource q p t src) := .of_held rfl rfl

theorem Hw.spillMoved_same (n : Nat) (h : Hw) (q k : Nat) : SameBefore n h (h.spillMoved q k) := .of_held rfl rfl

theorem Hw.joinOwn_same {n id : Nat} (h : Hw) (late : n ≤ id) (q p t len : Nat) (src : Option Node) :
    SameBefore n h (h.joinOwn id q p t len src) := by
  unfold Hw.joinOwn
  extract_lets spill h1 h2
  have spilled : SameBefore n h h1 := by
    show SameBefore n h (if spill then (h.spillMoved q len).count q 0x035 0 1 else h)
    split
    · exact (Hw.spillMoved_same n h q len).trans (Hw.count_same _ _ _ _ _ _)
    · exact .refl n h
  have joined : SameBefore n h h2 := (spilled.trans (Hw.joinCopy_same _ late _ _ _)).trans (Hw.noteSource_same _ _ _ _ _ _)
  split
  · exact joined.trans (Hw.count_same _ _ _ _ _ _)
  · exact joined

/-- A frame of the chip's own takes the next number. -/
theorem Hw.originateTo_same (n : Nat) (h : Hw) (q : Nat) (f : Frame) (hd : Option VHdr) (t : Nat) (route : Route) (ports : List Nat)
    (ballast : Bool) : SameBefore n h (h.originateTo q f hd t route ports ballast) := .of_given fun given => by
  have added (x : Held) (number : x.id = h.buf.nextId) : SameBefore n h (h.freshId.2.addHeld x) :=
    (SameBefore.freshId n h).trans (.addHeld _ (number ▸ given))
  unfold Hw.originateTo
  dsimp only
  split
  · exact (added _ rfl).trans (.foldl _ _ (fun g p => Hw.joinCopy_same g given p t .queue) _)
  · split
    · exact (added _ rfl).trans (.foldl _ _ (fun g p => Hw.joinOwn_same g given q p t f.len _) _)
    · exact (added _ rfl).trans (Hw.count_same _ _ _ _ _ _)

theorem Hw.originate_same (n : Nat) (h : Hw) (q : Nat) (hd : VHdr) (payload : List Byte) : SameBefore n h (h.originate q hd payload) := by
  unfold Hw.originate
  split
  · exact .refl n h
  · extract_lets f t a
    have looked (r : Route) : SameBefore n h ((h.lookup q a).2.targets q a r).2 := .of_buf (by rw [Hw.targets_buf, Hw.lookup_buf])
    dsimp only
    split
    · exact (looked _).trans (.of_buf (Hw.unreachable_buf _ _ _))
    · exact (looked _).trans (Hw.originateTo_same _ _ _ _ _ _ _ _ _)

/-- A notice is a frame of the chip's own, with a key and a count beside it (R110, R111). -/
theorem Hw.notice_same (n : Nat) (h : Hw) (q : Nat) (x : Held) (op low : Nat) : SameBefore n h (h.notice q x op low) := by
  have counted (g : Hw) (qual : Nat) : SameBefore n g (g.count q 0x028 qual 1) := Hw.count_same _ _ _ _ _ _
  unfold Hw.notice
  split
  · exact counted h 2
  · extract_lets en
    split
    · exact counted h 2
    · split
      · exact counted h 1
      · split
        · exact counted h 3
        · refine SameBefore.trans ?_ (Hw.originate_same _ _ _ _ _)
          refine SameBefore.trans ?_ (Hw.count_same _ _ _ _ _ _)
          exact .of_held rfl rfl

theorem Hw.discardNotice_same (n : Nat) (h : Hw) (x : Held) (reason : Nat) : SameBefore n h (h.discardNotice x reason) :=
  Hw.notice_same _ _ _ _ _ _

theorem Hw.bpNotice_same (n : Nat) (h : Hw) (x : Held) (p t : Nat) : SameBefore n h (h.bpNotice x p t) := by
  unfold Hw.bpNotice
  dsimp only
  split
  · exact .refl n h
  · exact Hw.notice_same _ _ _ _ _ _

/-! ### The consumed frames -/

theorem Hw.notice_taken (h : Hw) (q : Nat) (x : Held) (op low : Nat) : (h.notice q x op low).buf.taken = h.buf.taken := by
  unfold Hw.notice
  split
  · simp
  · extract_lets en
    split
    · simp
    · split
      · simp
      · split
        · simp
        · rw [Hw.originate_taken, Hw.count_buf]
          rfl

/-! ### Copies that go -/

@[simp] theorem Hw.onEmpty_buf (h : Hw) (n t : Nat) : (h.onEmpty n t).buf = h.buf := by
  unfold Hw.onEmpty
  split <;> rfl

/-- After a discard of the copies that satisfy `p`, the frame stands with none of them, if at all. -/
theorem Hw.dropCopies_gone (h : Hw) (id : Nat) (p : Copy → Bool) {f : Frame} {cs : List Copy} (stands : (h.dropCopies id p).Holds id f cs) :
    ∀ c ∈ cs, p c = false := by
  unfold Hw.dropCopies at stands
  split at stands
  · next none =>
    obtain ⟨y, held, number, -, -⟩ := stands
    exact absurd number (by simpa using List.find?_eq_none.1 none y held)
  · next x found =>
    extract_lets gone g at stands
    have kept : (gone.foldl (fun h c => h.onEmpty c.port x.cls) g).buf = g.buf :=
      foldl_keeps Hw.buf (fun g (c : Copy) => Hw.onEmpty_buf g c.port x.cls) gone g
    obtain ⟨y, held, number, -, rfl⟩ := (Hw.holds_congr (congrArg Buf.held kept)).1 stands
    obtain ⟨z, -, rfl⟩ := List.mem_map.1 (List.mem_of_mem_filter held)
    split at number
    · next here =>
      rw [if_pos here]
      simp
    · next other => exact absurd number other

@[simp] theorem Hw.dropCopies_nextId (h : Hw) (id : Nat) (p : Copy → Bool) : (h.dropCopies id p).buf.nextId = h.buf.nextId := by
  unfold Hw.dropCopies
  split
  · rfl
  · exact foldl_keeps (fun g : Hw => g.buf.nextId) (fun g (c : Copy) => congrArg Buf.nextId (Hw.onEmpty_buf g c.port _)) _ _

end Sys2Proof.Machine
end

section
/-! PROOFS. Waiting frames (R96 to R103, R107, R116): admission, age, read-back from spill and starvation, with them O25. -/

namespace Sys2Proof.Machine

/-! ### Joining the queues -/

/-- A frame of the chip's own joins in SRAM or in spill. -/
theorem Hw.Holds.joinOwn {h : Hw} {id : Nat} {f : Frame} {cs : List Copy} (stands : h.Holds id f cs) (q n t len : Nat)
    (src : Option Node) :
    ∃ spot j, spot ≠ .landing ∧ (h.joinOwn id q n t len src).Holds id f (cs.map (Copy.joined n spot j)) := by
  unfold Hw.joinOwn
  extract_lets spill h1 h2
  have spilled : h1.buf.held = h.buf.held := by
    show (if spill then (h.spillMoved q len).count q 0x035 0 1 else h).buf.held = h.buf.held
    split
    · rw [Hw.count_buf]
      rfl
    · rfl
  have joined := ((Hw.holds_congr spilled).2 stands).joinCopy n t (if spill then .spill else .queue)
  refine ⟨if spill then .spill else .queue, h1.buf.nextJoin, by split <;> decide, ?_⟩
  split
  · exact (Hw.holds_congr (congrArg Buf.held (Hw.count_buf _ _ _ _ _))).2 joined
  · exact joined

/-- A received frame that enters its queues stands with the copies that have joined: what follows notes its source and may send. -/
theorem Hw.Holds.enterQueue {h : Hw} {x : Held} {ports : List Nat} {spot : Spot} {cs : List Copy} {f : Frame}
    (joined : (h.joinAll x.id x.cls ports spot).Holds x.id f cs) (early : x.id < (h.joinAll x.id x.cls ports spot).buf.nextId) :
    (h.enterQueue x ports spot).Holds x.id f cs := by
  have noted : SameBefore (h.joinAll x.id x.cls ports spot).buf.nextId ((h.joinAll x.id x.cls ports spot).samplePoint x.id 4)
      (h.enterQueue x ports spot) :=
    .foldl _ _ (fun g n => (Hw.noteSource_same _ g _ n _ _).trans (Hw.bpNotice_same _ _ _ n _)) _
  obtain ⟨-, same⟩ := noted le_rfl
  exact (same _ _ _ early).2 ((Hw.samplePoint_holds _ _ _).2 joined)

theorem Hw.joinCopy_nextId (h : Hw) (id n t : Nat) (spot : Spot) : (h.joinCopy id n t spot).buf.nextId = h.buf.nextId := by
  rw [Hw.joinCopy_buf]
  rfl

theorem Hw.joinAll_nextId (h : Hw) (id t : Nat) (ports : List Nat) (spot : Spot) :
    (h.joinAll id t ports spot).buf.nextId = h.buf.nextId :=
  foldl_keeps (fun g : Hw => g.buf.nextId) (fun g n => Hw.joinCopy_nextId g id n t spot) ports h

/-- A frame with one copy enters its queue, in SRAM or in spill as R103 says, at the next place. -/
theorem Hw.Holds.enterAt {h : Hw} {x : Held} {f : Frame} {c : Copy} (stands : h.Holds x.id f [c]) (early : x.id < h.buf.nextId) :
    (h.enterAt x c.port).Holds x.id f [{ c with spot := if h.wantsSpill x c.port then .spill else .queue, join := h.buf.nextJoin }] := by
  have joins {g : Hw} (spot : Spot) (stands : g.Holds x.id f [c]) (early : x.id < g.buf.nextId) :
      (g.joinAll x.id x.cls [c.port] spot).Holds x.id f [{ c with spot := spot, join := g.buf.nextJoin }] ∧
        x.id < (g.joinAll x.id x.cls [c.port] spot).buf.nextId :=
    ⟨by simpa [Copy.joined, Hw.joinAll] using stands.joinCopy c.port x.cls spot, by rwa [Hw.joinAll_nextId]⟩
  unfold Hw.enterAt
  cases spills : h.wantsSpill x c.port
  · obtain ⟨joined, early'⟩ := joins .queue stands early
    exact joined.enterQueue early'
  · simp only [Bool.not_true, Bool.false_eq_true, if_false]
    generalize moved : (if x.inSpill then h else (h.spillMoved x.die x.len).count x.die 0x035 0 1) = g
    have held : g.buf.held = h.buf.held ∧ g.buf.nextId = h.buf.nextId ∧ g.buf.nextJoin = h.buf.nextJoin := by
      subst moved
      split
      · exact ⟨rfl, rfl, rfl⟩
      · rw [Hw.count_buf]
        exact ⟨rfl, rfl, rfl⟩
    obtain ⟨same, next, place⟩ := held
    have tagged : (g.mapHeld x.id fun y => { y with tag := x.tag.map fun k => { k with spilled := true } }).Holds x.id f [c] := by
      refine (Hw.mapHeld_holds_of_keeps g x.id ?_).2 ((Hw.holds_congr same).2 stands)
      exact fun _ => ⟨rfl, rfl, rfl⟩
    obtain ⟨joined, early'⟩ := joins .spill tagged (next ▸ early)
    rw [← place]
    exact Hw.Holds.enterQueue (x := { x with tag := _ }) joined early'

/-! ### FRAME_ADMIT (R98) -/

/-- Egress ports toward which the frame still waits in its landing zone or block. -/
def Held.landingPorts (x : Held) : List Nat := (x.copies.filter fun c => c.spot == .landing).map (·.port)

theorem Held.mem_landingPorts {x : Held} {c : Copy} (here : c ∈ x.copies) (waits : c.spot = .landing) : c.port ∈ x.landingPorts :=
  List.mem_map_of_mem (List.mem_filter.2 ⟨here, by simp [waits]⟩)

theorem Hw.eccPass_of_calm {h : Hw} (calm : h.bit .errInject Fld.errInject_arm = false) (pt d c : Nat) (inverted : Bool) :
    h.eccPass pt d c inverted = (false, h) := by simp [Hw.eccPass, Hw.inject, calm]

theorem exec_frameAdmit_of_held {s : State} {id : Nat} {x : Held} (found : s.hw.heldAt id = some x) :
    exec (.frameAdmit ⟨id, false⟩) s = .next (s.onHw fun h => h.frameAdmit id) := by
  show execFrameAdmit ⟨id, false⟩ s = _
  simp [execFrameAdmit, found]

section
variable {h : Hw} {id : Nat} {x : Held}

theorem Hw.frameAdmit_eq (found : h.heldAt id = some x) (live : h.quadOk x.die = true) (first : h.landingFirst x = true)
    (young : h.aged x = false) : h.frameAdmit id = h.tryAdmit id := by
  simp [Hw.frameAdmit, found, live, first, young]

theorem Hw.tryAdmit_of_unicast {c : Copy} (found : h.heldAt id = some x) (calm : h.bit .errInject Fld.errInject_arm = false)
    (received : x.inPort.isSome = true) (unicast : x.route.multi = false) (one : x.copies = [c]) (waits : c.spot = .landing)
    (room : h.fullFor x c.port = false) : h.tryAdmit id = h.enterAt x c.port := by
  obtain ⟨p, port⟩ := Option.isSome_iff_exists.1 received
  simp [Hw.tryAdmit, found, one, waits, port, Hw.eccPass_of_calm calm, unicast, room]

/-- A multicast frame, and one of the chip's own, that R98 admits joins all the queues it waits for. -/
theorem Hw.tryAdmit_of_room (found : h.heldAt id = some x) (calm : h.bit .errInject Fld.errInject_arm = false)
    (own : x.inPort = none ∨ x.route.multi = true) (waits : x.landingPorts ≠ []) (room : h.admits x.die x.cls x.len = true) :
    h.tryAdmit id =
      if x.inPort = none then x.landingPorts.foldl (fun h n => h.joinOwn id x.die n x.cls x.len (x.hdr.map (·.src))) h
      else h.enterQueue x x.landingPorts .queue := by
  unfold Hw.tryAdmit
  rw [found]
  refine (if_neg (c := x.landingPorts.isEmpty = true) (by simpa using waits)).trans ?_
  by_cases none : x.inPort = none
  · rw [if_pos none]
    exact (if_pos (Option.isNone_iff_eq_none.2 none)).trans (if_pos room)
  · rw [if_neg none, if_neg (mt Option.isNone_iff_eq_none.1 none), Hw.eccPass_of_calm calm]
    exact (if_pos (own.resolve_left none)).trans (if_pos room)

/-- A multicast frame, and one of the chip's own, leaves its waiting place for all its queues while R98 admits it. -/
theorem Hw.tryAdmit_joins_all (found : h.heldAt id = some x) (calm : h.bit .errInject Fld.errInject_arm = false)
    (early : id < h.buf.nextId) (own : x.inPort = none ∨ x.route.multi = true) (waits : ∃ c ∈ x.copies, c.spot = .landing)
    (room : h.admits x.die x.cls x.len = true) :
    ∃ cs, (h.tryAdmit id).Holds id x.frame cs ∧ cs.map (·.port) = x.copies.map (·.port) ∧ (∀ k ∈ cs, k.spot ≠ .landing) ∧
      Only sendParts Reg.isNote h (h.tryAdmit id) := by
  have waiting : x.landingPorts ≠ [] := by
    obtain ⟨c, here, spot⟩ := waits
    exact List.ne_nil_of_mem (Held.mem_landingPorts here spot)
  have none_left {cs : List Copy} (left : ∀ k ∈ cs, k.spot = .landing → k ∈ x.copies ∧ k.port ∉ x.landingPorts) :
      ∀ k ∈ cs, k.spot ≠ .landing := fun k here spot =>
    let ⟨there, apart⟩ := left k here spot
    apart (Held.mem_landingPorts there spot)
  have stands := Hw.holds_of_heldAt found
  rw [Hw.tryAdmit_of_room found calm own waiting room]
  split
  · obtain ⟨cs, joined, ports, left⟩ := stands.foldl_join x.landingPorts fun g n cs stands =>
      stands.joinOwn x.die n x.cls x.len (x.hdr.map (·.src))
    exact ⟨cs, joined, ports, none_left left, Only.foldl _ _ (fun g n => Hw.joinOwn_send g _ _ _ _ _ _) h⟩
  · obtain ⟨-, rfl⟩ := Hw.mem_of_heldAt found
    obtain ⟨cs, joined, ports, left⟩ := stands.foldl_join (step := fun g n => g.joinCopy x.id n x.cls .queue) x.landingPorts
      fun g n cs stands => ⟨.queue, g.buf.nextJoin, by decide, stands.joinCopy n x.cls .queue⟩
    exact ⟨cs, joined.enterQueue ((Hw.joinAll_nextId ..).symm ▸ early), ports, none_left left, Hw.enterQueue_send h x _ _⟩

end

/-! ### What discards may change -/

theorem Only.done_of_send {a b : Hw} (sent : Only sendParts Reg.isNote a b) : Only doneParts Reg.isDone a b :=
  sent.mono (by simp [doneParts, sendParts]) fun _ => Or.inl

theorem Only.done_of_host {a b : Hw} (told : Only (.buf :: hostParts) Reg.isHostNote a b) : Only doneParts Reg.isDone a b := by
  refine told.mono (by simp [doneParts, hostParts, sendParts]) ?_
  rintro r (ring | cnt)
  · exact Or.inr ring
  · exact Or.inl (Or.inl cnt)

theorem Hw.sampleHeld_host (h : Hw) (x : Held) (out : Option Nat) (outcome detail : Nat) :
    Only hostParts Reg.isHostNote h (h.sampleHeld x out outcome detail) := by
  unfold Hw.sampleHeld
  split
  · unfold Hw.sampleEnd
    dsimp only
    split
    · exact Hw.toRing_host _ _ _
    · exact Hw.emit_host _ _
  · exact Only.refl _ _ _

/-- The sample record of a copy goes to the host, and the frame's tag goes with it. -/
theorem Hw.sampleCopy_host (h : Hw) (x : Held) (n outcome : Nat) :
    Only (.buf :: hostParts) Reg.isHostNote h (h.sampleCopy x n outcome) := by
  unfold Hw.sampleCopy
  split
  · split
    · refine Only.trans ?_ (Only.buf _ _ List.mem_cons_self)
      exact (Hw.sampleHeld_host _ _ _ _ _).mono (fun _ => List.mem_cons_of_mem _) fun _ => id
    · exact Only.refl _ _ _
  · exact Only.refl _ _ _

theorem Hw.sampleHeld_buf (h : Hw) (x : Held) (out : Option Nat) (outcome detail : Nat) :
    (h.sampleHeld x out outcome detail).buf = h.buf :=
  (Hw.sampleHeld_host h x out outcome detail).parts .buf (by simp [hostParts])

theorem Hw.sampleCopy_nextId (h : Hw) (x : Held) (n outcome : Nat) : (h.sampleCopy x n outcome).buf.nextId = h.buf.nextId := by
  unfold Hw.sampleCopy
  split
  · split
    · show (h.sampleHeld x (some n) outcome 0).buf.nextId = h.buf.nextId
      rw [Hw.sampleHeld_buf]
    · rfl
  · rfl

/-- Copies are counted as discarded from their waiting points, and their sample records written (R107, R314). -/
theorem Hw.countCopies_done (h : Hw) (x : Held) (l : List Copy) (qual : Copy → Nat) :
    Only doneParts Reg.isDone h (l.foldl (fun h c => (h.count x.die 0x032 (qual c) 1).sampleCopy x c.port 2) h) :=
  Only.foldl _ _ (fun g _ => (Only.done_of_send (Hw.count_send g _ _ _ _)).trans (Only.done_of_host (Hw.sampleCopy_host _ _ _ _))) h

/-! ### AGE_DISCARD (R107) -/

/-- A frame past its age leaves no copy at a waiting point. -/
theorem Hw.ageOut_spec {h : Hw} {x : Held} (waits : ∃ c ∈ x.copies, c.spot.agePoint.isSome = true) (early : x.id < h.buf.nextId) :
    (∀ f cs, (h.ageOut x).Holds x.id f cs → ∀ c ∈ cs, c.spot.agePoint = none) ∧ Only doneParts Reg.isDone h (h.ageOut x) := by
  unfold Hw.ageOut
  extract_lets out g
  have given : g.buf.nextId = h.buf.nextId :=
    foldl_keeps (fun g : Hw => g.buf.nextId) (fun g (c : Copy) =>
      (Hw.sampleCopy_nextId _ x c.port 2).trans (congrArg Buf.nextId (Hw.count_buf g _ _ _ _))) out h
  have counted : Only doneParts Reg.isDone h g := Hw.countCopies_done h x out _
  have out_some : ¬out.isEmpty = true := by
    obtain ⟨c, here, waits⟩ := waits
    have there : c ∈ out := List.mem_filter.2 ⟨here, waits⟩
    simpa using List.ne_nil_of_mem there
  rw [if_neg out_some]
  constructor
  · intro f cs stands c here
    obtain ⟨-, same⟩ := Hw.discardNotice_same (x.id + 1) (g.dropCopies x.id fun c => c.spot.agePoint.isSome) x 0 (by simp [given, early])
    simpa using Hw.dropCopies_gone g x.id _ ((same _ _ _ (Nat.lt_succ_self _)).1 stands) c here
  · exact (counted.trans (Only.done_of_send (Hw.dropCopies_send _ _ _))).trans (Only.done_of_send (Hw.notice_send _ _ _ _ _))

/-- A consumed frame past its age is taken out of its landing zone. -/
theorem Hw.takenAgeOut_spec (h : Hw) (x : Taken) : (h.takenAgeOut x).buf.taken = h.buf.taken.filter (fun y => y.id != x.id) ∧
    Only doneParts Reg.isDone h (h.takenAgeOut x) := by
  unfold Hw.takenAgeOut
  extract_lets y g
  have counted : Only doneParts Reg.isDone h g :=
    (Only.done_of_send (Hw.count_send h _ _ _ _)).trans
      (Only.done_of_host ((Hw.sampleHeld_host _ _ _ _ _).mono (fun _ => List.mem_cons_of_mem _) fun _ => id))
  have same : g.buf = h.buf := (Hw.sampleHeld_buf _ y _ _ _).trans (Hw.count_buf h _ _ _ _)
  constructor
  · rw [← same]
    exact Hw.notice_taken _ _ _ _ _
  · exact (counted.trans (Only.buf _ _ (by simp [doneParts, sendParts]))).trans (Only.done_of_send (Hw.notice_send _ _ _ _ _))

/-! ### SPILL_READBACK (R103, R215) -/

/-- A fold that keeps its choice or takes the next element chooses one of the list, or leaves the first choice. -/
theorem mem_of_foldl_choice {α : Type} {step : Option α → α → Option α} (chooses : ∀ best x, step best x = best ∨ step best x = some x)
    {l : List α} {best : Option α} {a : α} (chosen : l.foldl step best = some a) : best = some a ∨ a ∈ l := by
  induction l generalizing best with
  | nil => exact Or.inl chosen
  | cons x l ih =>
    rcases ih chosen with early | late
    · rcases chooses best x with same | taken
      · exact Or.inl (same ▸ early)
      · exact Or.inr (by simp_all)
    · exact Or.inr (List.mem_cons_of_mem _ late)

theorem mem_of_firstJoin {l : List (Held × Copy)} {a : Held × Copy} (first : firstJoin l = some a) : a ∈ l := by
  unfold firstJoin at first
  refine (mem_of_foldl_choice (fun best x => ?_) first).resolve_left (by simp)
  cases best with
  | none => exact Or.inr rfl
  | some b =>
    dsimp only
    split
    · exact Or.inr rfl
    · exact Or.inl rfl

/-- The copies of held frames that satisfy `p`, with their frames. -/
theorem mem_heldCopies {l : List Held} {p : Held → Copy → Bool} {x : Held} {c : Copy} :
    (x, c) ∈ l.flatMap (fun y => (y.copies.filter (p y)).map fun k => (y, k)) ↔ x ∈ l ∧ c ∈ x.copies ∧ p x c = true := by
  simp only [List.mem_flatMap, List.mem_map, List.mem_filter, Prod.mk.injEq]
  constructor
  · rintro ⟨y, held, d, ⟨here, ok⟩, rfl, rfl⟩
    exact ⟨held, here, ok⟩
  · rintro ⟨held, here, ok⟩
    exact ⟨x, held, c, ⟨here, ok⟩, rfl, rfl⟩

theorem Hw.mem_copiesTo {h : Hw} {n : Nat} {p : Held → Copy → Bool} {x : Held} {c : Copy} :
    (x, c) ∈ h.copiesTo n p ↔ x ∈ h.buf.held ∧ c ∈ x.copies ∧ c.port = n ∧ p x c = true := by
  rw [Hw.copiesTo, mem_heldCopies]
  simp

/-- The line that a read of the spill region of quadrant `q` meets. -/
def spillLine (q : Nat) (l : HbmLine) : HbmLine := { l with pc := Fin.ofNat 384 (96 * q + l.pc.val % 96) }

/-- The bytes of a spilled frame have been read from line `l`; a corrected error there is noted. -/
def Hw.spillRead (h : Hw) (q len : Nat) (l : HbmLine) (e : HbmErr) : Hw :=
  if e = .corrected then (h.spillMoved q len).lineCe l false else h.spillMoved q len

/-- A spilled frame whose lines can be corrected returns to SRAM; one whose lines cannot is lost. -/
theorem Hw.spillReadback_eq {h : Hw} {q n t : Nat} (l : HbmLine) (e : HbmErr) {x : Held} {c : Copy}
    (first : firstJoin (h.copiesTo n fun x c => x.die == q && x.cls == t && c.spot == .spill) = some (x, c)) (live : h.quadOk q = true)
    (room : h.admits q t x.len = true) (band : h.buf.spillNow.get q + x.len ≤ h.spillBudget q)
    (calm : h.bit .errInject Fld.errInject_arm = false) : h.spillReadback q n t l e =
      if e = .uncorrectable then ((h.spillMoved q x.len).lineUe (spillLine q l) 1 false).spillLost x
      else (h.spillRead q x.len (spillLine q l) e).setSpot x.id c.port .queue := by
  have calm' : (h.spillMoved q x.len).bit .errInject Fld.errInject_arm = false := calm
  have quiet : (h.spillMoved q x.len).inject 4 q = (0, h.spillMoved q x.len) := by simp [Hw.inject, calm']
  unfold Hw.spillReadback
  rw [first]
  dsimp only
  rw [if_neg (by simp [live, room, band]), quiet]
  cases e <;> simp [spillLine, Hw.spillRead]

theorem Only.gon {ps : List Part} {P : Reg → Prop} (h : Hw) (x : Gon) (part : Part.gon ∈ ps) : Only ps P h { h with gon := x } :=
  ⟨fun _ _ => rfl, fun p other => by cases p <;> first | rfl | exact absurd part other⟩

theorem Hw.needRepair_only {ps : List Part} {P : Reg → Prop} (h : Hw) (l : HbmLine) (part : Part.gon ∈ ps) :
    Only ps P h (h.needRepair l) := by
  unfold Hw.needRepair
  split
  · exact Only.refl _ _ _
  · exact Only.gon _ _ part

/-- What an error of the stacks may change: counts, its record, and the rows to repair (R215, R329). -/
theorem Only.hbm_of_send {a b : Hw} (sent : Only sendParts Reg.isNote a b) : Only (.gon :: sendParts) Reg.isHbm a b :=
  sent.mono (fun _ => List.mem_cons_of_mem _) fun _ note => Or.inl (Or.inl note)

theorem Hw.hbmNoted_only (h : Hw) (q ev k : Nat) (f g : Fld) (a : RecArgs) : Only (.gon :: sendParts) Reg.isHbm h
    ((((h.count q ev k 1).satFld (.hbmStatus k) f 1).satFld (.errCount q) g 1).record a) := by
  refine Only.trans ?_ (Only.hbm_of_send (Hw.record_send _ _))
  refine Only.trans ?_ (Only.satFld _ (.errCount _) _ _ (Or.inr (Or.inr ⟨_, rfl⟩)))
  refine Only.trans ?_ (Only.satFld _ (.hbmStatus _) _ _ (Or.inr (Or.inl ⟨_, rfl⟩)))
  exact Only.hbm_of_send (Hw.count_send _ _ _ _ _)

theorem Hw.rowCorrected_only {ps : List Part} {P : Reg → Prop} (h : Hw) (l : HbmLine) (part : Part.gon ∈ ps) :
    Only ps P h (h.rowCorrected l) := by
  have repaired (g : Hw) (n : Nat) : Only ps P g (if 4 ≤ n then g.needRepair l else g) := by
    split
    · exact Hw.needRepair_only g l part
    · exact Only.refl _ _ g
  exact (Only.gon h _ part).trans (repaired _ _)

theorem Hw.lineCe_only (h : Hw) (l : HbmLine) (injected : Bool) : Only (.gon :: sendParts) Reg.isHbm h (h.lineCe l injected) :=
  (Hw.hbmNoted_only _ _ _ _ _ _ _).trans (Hw.rowCorrected_only _ _ List.mem_cons_self)

theorem Hw.lineUe_only (h : Hw) (l : HbmLine) (use : Nat) (injected : Bool) :
    Only (.gon :: sendParts) Reg.isHbm h (h.lineUe l use injected) :=
  (Hw.hbmNoted_only _ _ _ _ _ _ _).trans (Hw.needRepair_only _ _ List.mem_cons_self)

theorem Hw.rowCorrected_buf (h : Hw) (l : HbmLine) : (h.rowCorrected l).buf = h.buf :=
  (Hw.rowCorrected_only (ps := [.gon]) (P := noRegs) h l List.mem_cons_self).parts .buf (by simp)

/-- A corrected line leaves the packet buffer. -/
theorem Hw.lineCe_buf (h : Hw) (l : HbmLine) (injected : Bool) : (h.lineCe l injected).buf = h.buf := by
  rw [Hw.lineCe, Hw.rowCorrected_buf, Hw.hbmCe]
  simp

theorem Hw.spillRead_held (h : Hw) (q len : Nat) (l : HbmLine) (e : HbmErr) : (h.spillRead q len l e).buf.held = h.buf.held := by
  unfold Hw.spillRead
  split
  · rw [Hw.lineCe_buf]
    rfl
  · rfl

theorem Hw.spillRead_only (h : Hw) (q len : Nat) (l : HbmLine) (e : HbmErr) :
    Only (.gon :: sendParts) Reg.isHbm h (h.spillRead q len l e) := by
  have moved : Only (.gon :: sendParts) Reg.isHbm h (h.spillMoved q len) := Only.hbm_of_send (Hw.spillMoved_send _ _ _)
  unfold Hw.spillRead
  split
  · exact moved.trans (Hw.lineCe_only _ _ _)
  · exact moved

theorem Hw.spillLost_done (h : Hw) (x : Held) : Only doneParts Reg.isDone h (h.spillLost x) :=
  ((Only.done_of_send (Hw.record_send _ _)).trans (Hw.countCopies_done _ x _ fun _ => 32 + x.cls)).trans
    (Only.done_of_send (Hw.dropCopies_send _ _ _))

theorem Hw.Holds.setSpot {h : Hw} {id : Nat} {f : Frame} {cs : List Copy} (stands : h.Holds id f cs) (n : Nat) (spot : Spot) :
    (h.setSpot id n spot).Holds id f (cs.map fun c => if c.port = n then { c with spot := spot } else c) := stands.mapCopies _

@[simp] theorem Hw.sched_setSched_self (h : Hw) (n : Nat) (z : Sched) : (h.setSched n z).sched n = z := by
  simp [Hw.sched, Hw.setSched, aput, aget]

/-- Settles O25: FRAME_ADMIT by the two ways that a waiting frame joins; the discards by the copies that their filters leave; a read-back by
what ECC-72 finds; a promotion by the bit it sets. -/
theorem framesWaitAndAge : Obligations.FramesWaitAndAge := by
  unfold Obligations.FramesWaitAndAge
  refine ⟨?joining, ?age, ?taken, ?spill, ?starve⟩
  case joining =>
    intro id x s found live first young calm early
    have run : exec (.frameAdmit ⟨id, false⟩) s = .next (s.onHw fun h => h.tryAdmit id) := by
      rw [exec_frameAdmit_of_held found, State.onHw, Hw.frameAdmit_eq found live first young, State.onHw]
    constructor
    · intro c received unicast one waits room
      have joins := Hw.tryAdmit_of_unicast found calm received unicast one waits room
      obtain ⟨held, rfl⟩ := Hw.mem_of_heldAt found
      obtain ⟨y, there, number, frame, copies⟩ := (one ▸ Hw.holds_of_mem held).enterAt early
      refine ⟨_, y, run, ?_, number, frame, copies, OnlyHw.of_onHw ?_⟩
      · rwa [State.onHw_hw, joins]
      · rw [joins]
        exact Hw.enterAt_send _ _ _
    · intro own waits room
      obtain ⟨cs, ⟨y, there, number, frame, rfl⟩, ports, left, only⟩ := Hw.tryAdmit_joins_all found calm early own waits room
      exact ⟨_, y, run, there, number, frame, ports, left, OnlyHw.of_onHw only⟩
  case age =>
    intro id x s found aged waits early
    obtain ⟨-, rfl⟩ := Hw.mem_of_heldAt found
    obtain ⟨gone, only⟩ := Hw.ageOut_spec waits early
    have run : s.hw.ageDiscard x.id = s.hw.ageOut x := by simp [Hw.ageDiscard, found, aged]
    rw [← run] at gone only
    exact ⟨_, rfl, fun y held number => gone _ _ (number ▸ Hw.holds_of_mem held), OnlyHw.of_onHw only⟩
  case taken =>
    intro id x s absent found aged
    have number : x.id = id := by simpa using List.find?_some found
    obtain ⟨out, only⟩ := Hw.takenAgeOut_spec s.hw x
    have run : s.hw.ageDiscard id = s.hw.takenAgeOut x := by simp [Hw.ageDiscard, absent, found, aged]
    rw [← run] at out only
    exact ⟨_, rfl, number ▸ out, OnlyHw.of_onHw only⟩
  case spill =>
    intro q p c l e x k s first live room band calm
    have run := Hw.spillReadback_eq l e first live room band calm
    obtain ⟨held, here, port, -⟩ := Hw.mem_copiesTo.1 (mem_of_firstJoin first)
    constructor
    · intro correct
      rw [if_neg correct, port] at run
      have stands := (Hw.holds_congr (Hw.spillRead_held s.hw q x.len (spillLine q l) e)).2 (Hw.holds_of_mem held)
      obtain ⟨y, there, number, frame, copies⟩ := stands.setSpot p .queue
      refine ⟨_, y, rfl, ?_, number, frame, ?_, fun clean => OnlyHw.of_onHw ?_, OnlyHw.of_onHw ?_⟩
      · rwa [State.onHw_hw, run]
      · rw [copies]
        rintro d moved toward
        obtain ⟨b, -, rfl⟩ := List.mem_map.1 moved
        split at toward <;> simp_all
      · rw [run, clean]
        exact (Only.buf _ _ List.mem_cons_self).trans (Only.buf _ _ List.mem_cons_self)
      · rw [run]
        exact (Hw.spillRead_only _ _ _ _ _).trans (Only.hbm_of_send (Hw.mapHeld_send _ _ _))
    · rintro rfl
      rw [if_pos rfl] at run
      refine ⟨_, rfl, ?_, OnlyHw.of_onHw ?_⟩
      · rw [State.onHw_hw, run]
        intro y there number d copy
        exact beq_eq_false_iff_ne.1 (Hw.dropCopies_gone _ x.id _ (number ▸ Hw.holds_of_mem there) d copy)
      · rw [run]
        have noted : Only (.gon :: sendParts) Reg.isHbm s.hw ((s.hw.spillMoved q x.len).lineUe (spillLine q l) 1 false) :=
          (Only.hbm_of_send (Hw.spillMoved_send _ _ _)).trans (Hw.lineUe_only _ _ _ _)
        refine (noted.mono ?_ fun _ => id).trans ((Hw.spillLost_done _ x).mono (fun _ => List.mem_cons_of_mem _) fun _ => Or.inl)
        simp [sendParts]
  case starve =>
    intro p c s shaped backlogged limit reached listed
    have run : s.hw.starvationExpire p c = s.hw.setSched p { s.hw.sched p with promoted := (s.hw.sched p).promoted.set c true } :=
      if_pos ⟨shaped, backlogged, limit, reached⟩
    refine ⟨_, rfl, ?_, OnlyHw.of_onHw ?_⟩
    · rw [State.onHw_hw, run, Hw.sched_setSched_self]
      simp [listed]
    · rw [run]
      exact Only.egr _ _ List.mem_cons_self

end Sys2Proof.Machine
end

section
/-! PROOFS. From the queues to the wire (R29, R96, R113, R231, R240): the scheduler, floor cells and transmission, with them O26. -/

namespace Sys2Proof.Machine

/-! ### Moves of copies -/

/-- What a move toward port `n` makes of a copy. -/
def Copy.moved (n : Nat) (spot : Spot) (j left : Nat) (c : Copy) : Copy :=
  if c.port = n then { c with spot := spot, join := j, left := left } else c

theorem Copy.moved_port (n : Nat) (spot : Spot) (j left : Nat) (c : Copy) : (c.moved n spot j left).port = c.port := by
  unfold Copy.moved
  split <;> rfl

/-- The copies toward port `n` stand where they were moved. -/
theorem Copy.of_mem_moved {n : Nat} {spot : Spot} {j left : Nat} {cs : List Copy} {k : Copy}
    (here : k ∈ cs.map (Copy.moved n spot j left)) (toward : k.port = n) : k.spot = spot ∧ k.left = left := by
  obtain ⟨c, -, rfl⟩ := List.mem_map.1 here
  rw [Copy.moved_port] at toward
  simp [Copy.moved, toward]

theorem Hw.Holds.moveCopy {h : Hw} {id : Nat} {f : Frame} {cs : List Copy} (stands : h.Holds id f cs) (n : Nat) (spot : Spot) (left : Nat) :
    (h.moveCopy id n spot left).Holds id f (cs.map (Copy.moved n spot h.buf.nextJoin left)) :=
  Hw.Holds.mapCopies (h := { h with buf := _ }) stands _

section
variable {ps : List Part} {P : Reg → Prop}

theorem Hw.mapHeld_only (h : Hw) (id : Nat) (F : Held → Held) (part : Part.buf ∈ ps) : Only ps P h (h.mapHeld id F) := Only.buf h _ part

theorem Hw.moveCopy_only (h : Hw) (id n : Nat) (spot : Spot) (left : Nat) (part : Part.buf ∈ ps) : Only ps P h (h.moveCopy id n spot left) :=
  (Only.buf h _ part).trans (Hw.mapHeld_only _ _ _ part)

theorem Hw.setSched_only (h : Hw) (n : Nat) (s : Sched) (part : Part.egr ∈ ps) : Only ps P h (h.setSched n s) := Only.egr h _ part

theorem Hw.onEmpty_only (h : Hw) (n t : Nat) (part : Part.egr ∈ ps) : Only ps P h (h.onEmpty n t) := by
  unfold Hw.onEmpty
  split
  · exact Only.refl _ _ _
  · exact Hw.setSched_only _ _ _ part

theorem Hw.dropCopies_only (h : Hw) (id : Nat) (p : Copy → Bool) (buf : Part.buf ∈ ps) (egr : Part.egr ∈ ps) :
    Only ps P h (h.dropCopies id p) := by
  unfold Hw.dropCopies
  split
  · exact Only.refl _ _ _
  · refine Only.trans ?_ (Only.foldl _ _ (fun g (c : Copy) => Hw.onEmpty_only g c.port _ egr) _)
    exact (Hw.mapHeld_only _ _ _ buf).trans (Only.buf _ _ buf)

theorem Hw.setLink_only (h : Hw) (n : Nat) (l : Link) (part : Part.lgt ∈ ps) : Only ps P h (h.setLink n l) := Only.lgt h _ part

end

/-! ### The frame that the scheduler picks (R113) -/

section
variable {h : Hw} {n t : Nat} {x : Held} {c : Copy}

theorem Hw.held_of_participant {k : Nat} (head : h.participant n t k = some (x, c)) : x ∈ h.buf.held := by
  unfold Hw.participant Hw.queueHead at head
  split at head <;> exact (Hw.mem_copiesTo.1 (mem_of_firstJoin head)).1

/-- Deficit round robin serves the head of a participant. -/
theorem Hw.held_of_drrPick {fuel : Nat} {d d' : Drr} (served : h.drrPick n t fuel d = (some (x, c), d')) : x ∈ h.buf.held := by
  induction fuel generalizing d with
  | zero => simp [Hw.drrPick] at served
  | succ fuel ih =>
    unfold Hw.drrPick at served
    extract_lets next at served
    split at served
    · exact ih served
    · next y k head =>
      split at served
      · obtain ⟨rfl, -⟩ : y = x ∧ k = c := by simpa using congrArg Prod.fst served
        exact Hw.held_of_participant head
      · exact ih served

theorem Hw.refillShapers_only (P : Reg → Prop) (h : Hw) (n : Nat) : Only [.egr] P h (h.refillShapers n) :=
  Only.foldl _ _ (fun g _ => Only.egr g _ List.mem_cons_self) h

theorem Hw.refillShapers_buf (h : Hw) (n : Nat) : (h.refillShapers n).buf = h.buf := (Hw.refillShapers_only noRegs h n).parts .buf (by simp)

theorem Hw.refillShapers_sched (h : Hw) (n : Nat) : (h.refillShapers n).sched n = h.sched n :=
  foldl_keeps (fun g : Hw => g.sched n) (step := fun g t => g.setBucket (.shaper n t) (g.shaperNow n t)) (fun _ _ => rfl) _ h

/-- The picked frame leaves its queue, and its class is served. -/
theorem Hw.egressSchedule_eq {pk : Option Pick} {d : Drr} (start : h.portStart n = true) (up : h.linkUp n = true)
    (live : h.quadOk (portDie n) = true) (pick : (h.refillShapers n).schedPick n = some (t, pk))
    (serve : (h.refillShapers n).drrPick n t 16 ((h.sched n).drr.getD t ⟨4, List.replicate 5 0⟩) = (some (x, c), d))
    (calm : h.bit .errInject Fld.errInject_arm = false) : h.egressSchedule n =
      ((((h.refillShapers n).setSched n { h.sched n with drr := (h.sched n).drr.set t d }).dispatch n x).served n t x.len pk).onEmpty n t := by
  have calm' (z : Sched) : ((h.refillShapers n).setSched n z).bit .errInject Fld.errInject_arm = false := by
    rw [Hw.bit, Hw.fld, Hw.setSched_reg, (Hw.refillShapers_only noRegs h n).regs .errInject id]
    exact calm
  unfold Hw.egressSchedule
  rw [if_neg (by simp [start, up, live])]
  dsimp only
  rw [pick]
  dsimp only
  rw [Hw.refillShapers_sched, serve]
  dsimp only
  rw [Hw.eccPass_of_calm (calm' _), ite_self]

/-- The picked frame stands in staging where its P-die is the egress die, and else on the floor path with all its cells to cross. -/
theorem Hw.dispatch_holds (held : x ∈ h.buf.held) (n : Nat) : ∃ j, (h.dispatch n x).Holds x.id x.frame
    (x.copies.map (Copy.moved n (if x.die = portDie n then .staging else .floor) j (if x.die = portDie n then 0 else cellsOf x.len))) := by
  unfold Hw.dispatch
  extract_lets q h1 v h2
  have noted : h1.Holds x.id x.frame x.copies := (Hw.copyPoint_holds _ _ _ _).2 (Hw.holds_of_mem held)
  have taken : h2.Holds x.id x.frame x.copies := by
    refine (Hw.holds_congr ?_).2 noted
    show (if x.ballast then h1 else _).buf.held = h1.buf.held
    split <;> rfl
  refine ⟨h2.buf.nextJoin, ?_⟩
  by_cases same : x.die = portDie n
  · simp only [q, if_pos same]
    exact (Hw.copyPoint_holds _ _ _ _).2 (taken.moveCopy n .staging 0)
  · simp only [q, if_neg same]
    exact taken.moveCopy n .floor _

theorem Hw.dispatch_only {P : Reg → Prop} (h : Hw) (n : Nat) (x : Held) : Only [.buf] P h (h.dispatch n x) := by
  have part : Part.buf ∈ [Part.buf] := List.mem_cons_self
  unfold Hw.dispatch
  extract_lets q h1 v h2
  have noted : Only [.buf] P h h1 := Hw.mapHeld_only _ _ _ part
  have taken : Only [.buf] P h h2 := by
    refine noted.trans ?_
    show Only [.buf] P h1 (if x.ballast then h1 else _)
    split
    · exact Only.refl _ _ _
    · exact Only.buf _ _ part
  split
  · exact (taken.trans (Hw.moveCopy_only _ _ _ _ _ part)).trans (Hw.mapHeld_only _ _ _ part)
  · exact taken.trans (Hw.moveCopy_only _ _ _ _ _ part)

theorem Hw.served_only (h : Hw) (n t len : Nat) (p : Option Pick) : Only [.egr] (fun r => r.isCnt = true) h (h.served n t len p) := by
  have set (z : Sched) : Only [.egr] (fun r => r.isCnt = true) h (h.setSched n z) := Hw.setSched_only h n z List.mem_cons_self
  unfold Hw.served
  dsimp only
  split
  · exact (set _).trans (Hw.count_only _ _ _ _ _ _)
  · exact set _

theorem Hw.served_buf (h : Hw) (n t len : Nat) (p : Option Pick) : (h.served n t len p).buf = h.buf :=
  (Hw.served_only h n t len p).parts .buf (by simp)

end

/-! ### FLOOR_CELL_RECEIVE (R240) -/

/-- The copies on the floor path from `a` to `b`, with their frames. -/
def Hw.crossing (h : Hw) (a b : Nat) : List (Held × Copy) :=
  h.buf.held.flatMap fun x => (x.copies.filter fun c =>
    x.die == a && portDie c.port == b && (c.spot == .floor || c.spot == .wire) && c.left != 0).map fun c => (x, c)

section
variable {h : Hw} {a b : Nat} {x : Held} {c : Copy}

theorem Hw.of_crossing (first : firstJoin (h.crossing a b) = some (x, c)) : x ∈ h.buf.held ∧ (c.spot = .floor ∨ c.spot = .wire) := by
  obtain ⟨held, -, ok⟩ := mem_heldCopies.1 (mem_of_firstJoin first)
  refine ⟨held, ?_⟩
  simp only [Bool.and_eq_true, Bool.or_eq_true, beq_iff_eq] at ok
  obtain ⟨⟨-, spot⟩, -⟩ := ok
  exact spot

theorem Hw.floorCell_of_bad (sender : h.quadOk a = true) (receiver : h.quadOk b = true) (path : h.pathUp a b = true)
    (first : firstJoin (h.crossing a b) = some (x, c)) : h.floorCell a b true = h.count b 0x04b (floorK a b) 1 := by
  unfold Hw.floorCell
  rw [if_neg (by simp [sender, receiver, path])]
  unfold Hw.crossing at first
  dsimp only
  rw [first]
  rfl

/-- A good cell crosses, and the last one delivers the frame. -/
theorem Hw.floorCell_of_good (sender : h.quadOk a = true) (receiver : h.quadOk b = true) (path : h.pathUp a b = true)
    (first : firstJoin (h.crossing a b) = some (x, c)) : h.floorCell a b false =
      if 1 < c.left then
        h.mapHeld x.id fun y => { y with copies := y.copies.map fun k => if k.port = c.port then { k with left := k.left - 1 } else k }
      else h.deliver x c := by
  unfold Hw.floorCell
  rw [if_neg (by simp [sender, receiver, path])]
  unfold Hw.crossing at first
  dsimp only
  rw [first]
  rfl

theorem Hw.deliver_of_begun (calm : h.bit .errInject Fld.errInject_arm = false) (begun : c.spot = .wire) : h.deliver x c =
    (h.mapHeld x.id fun y => { y with copies := y.copies.map fun k => if k.port = c.port then { k with left := 0 } else k }).copyPoint
      x.id c.port 6 := by
  simp [Hw.deliver, Hw.eccPass_of_calm calm, begun]

theorem Hw.deliver_of_up (calm : h.bit .errInject Fld.errInject_arm = false) (unbegun : c.spot ≠ .wire) (up : h.linkUp c.port = true) :
    h.deliver x c = (h.moveCopy x.id c.port .staging 0).copyPoint x.id c.port 6 := by
  simp [Hw.deliver, Hw.eccPass_of_calm calm, unbegun, up]

theorem Hw.deliver_of_down (calm : h.bit .errInject Fld.errInject_arm = false) (unbegun : c.spot ≠ .wire) (down : h.linkUp c.port = false) :
    h.deliver x c = (h.linkLossDiscard x { c with spot := .staging }).dropCopies x.id fun k => k.port == c.port := by
  simp [Hw.deliver, Hw.eccPass_of_calm calm, unbegun, down]

/-- The last cell takes the frame to staging, or completes it on the wire. -/
theorem Hw.deliver_arrives (held : x ∈ h.buf.held) (calm : h.bit .errInject Fld.errInject_arm = false)
    (arrives : c.spot = .wire ∨ h.linkUp c.port = true) : ∃ cs, (h.deliver x c).Holds x.id x.frame cs ∧
      (∀ k ∈ cs, k.port = c.port → k.left = 0 ∧ (c.spot = .floor → k.spot = .staging)) ∧ Only [.buf] noRegs h (h.deliver x c) := by
  have part : Part.buf ∈ [Part.buf] := List.mem_cons_self
  by_cases begun : c.spot = .wire
  · rw [Hw.deliver_of_begun calm begun]
    refine ⟨_, (Hw.copyPoint_holds _ _ _ _).2 ((Hw.holds_of_mem held).mapCopies _), fun k here toward => ?_,
      (Hw.mapHeld_only _ _ _ part).trans (Hw.mapHeld_only _ _ _ part)⟩
    obtain ⟨d, -, rfl⟩ := List.mem_map.1 here
    split at toward <;> simp_all
  · rw [Hw.deliver_of_up calm begun (arrives.resolve_left begun)]
    refine ⟨_, (Hw.copyPoint_holds _ _ _ _).2 ((Hw.holds_of_mem held).moveCopy c.port .staging 0), fun k here toward => ?_,
      (Hw.moveCopy_only _ _ _ _ _ part).trans (Hw.mapHeld_only _ _ _ part)⟩
    obtain ⟨spot, left⟩ := Copy.of_mem_moved here toward
    exact ⟨left, fun _ => spot⟩

/-- What the loss of a frame and the end of a transmission may change beside the mirror sessions. -/
theorem Only.lost_of_host {a b : Hw} (told : Only (.buf :: hostParts) Reg.isHostNote a b) :
    Only [.buf, .egr, .hst, .out] (fun r => r.isCnt = true ∨ r.isRing = true) a b :=
  told.mono (by simp [hostParts]) fun _ => Or.symm

theorem Hw.deliver_lost (calm : h.bit .errInject Fld.errInject_arm = false) (unbegun : c.spot ≠ .wire) (down : h.linkUp c.port = false) :
    (∀ f cs, (h.deliver x c).Holds x.id f cs → ∀ k ∈ cs, k.port ≠ c.port) ∧
      Only [.buf, .egr, .hst, .out] (fun r => r.isCnt = true ∨ r.isRing = true) h (h.deliver x c) := by
  rw [Hw.deliver_of_down calm unbegun down]
  constructor
  · intro f cs stands k here
    exact beq_eq_false_iff_ne.1 (Hw.dropCopies_gone _ _ _ stands k here)
  · refine Only.trans ?_ (Hw.dropCopies_only _ _ _ (by simp) (by simp))
    refine Only.trans ?_ (Only.lost_of_host (Hw.sampleCopy_host _ _ _ _))
    exact (Hw.count_only _ h _ _ _ _).mono (fun _ => id) fun _ => Or.inl

end

/-! ### TRANSMIT_START (R29, R231) -/

theorem Hw.count_out (h : Hw) (d ev qual k : Nat) : (h.count d ev qual k).out = h.out := (Hw.count_only [] h d ev qual k).parts .out (by simp)

theorem Hw.count_lgt (h : Hw) (d ev qual k : Nat) : (h.count d ev qual k).lgt = h.lgt := (Hw.count_only [] h d ev qual k).parts .lgt (by simp)

theorem Hw.frameOut_only {ps : List Part} (h : Hw) (p : Nat) (pre : Option (BitVec 56)) (f : Frame) (part : Part.out ∈ ps) :
    Only ps (fun r => r.isCnt = true) h (h.frameOut p pre f) :=
  ((Only.emit h _ part).trans (Hw.count_only _ _ _ _ _ _)).trans (Hw.count_only _ _ _ _ _ _)

theorem Hw.frameOut_out (h : Hw) (p : Nat) (pre : Option (BitVec 56)) (f : Frame) : (h.frameOut p pre f).out = .frame p pre f :: h.out := by
  rw [Hw.frameOut, Hw.count_out, Hw.count_out, Hw.emit_out]

theorem Hw.preambleSent_only {ps : List Part} {P : Reg → Prop} (h : Hw) (p : Nat) (ctrl : Bool) (part : Part.lgt ∈ ps) :
    Only ps P h (h.preambleSent p ctrl) := by
  have nak : Only ps P h (h.nakSent p) := by
    unfold Hw.nakSent
    split
    · exact Hw.setLink_only _ _ _ part
    · exact Only.refl _ _ _
  unfold Hw.preambleSent
  dsimp only
  split
  · exact nak
  · exact nak.trans (Hw.setLink_only _ _ _ part)

theorem Hw.preambleSent_out (h : Hw) (p : Nat) (ctrl : Bool) : (h.preambleSent p ctrl).out = h.out :=
  (Hw.preambleSent_only (ps := [.lgt]) (P := noRegs) h p ctrl List.mem_cons_self).parts .out (by simp)

@[simp] theorem Hw.link_setLink_self (h : Hw) (n : Nat) (l : Link) : (h.setLink n l).link n = l := by
  simp [Hw.link, Hw.setLink, aput, aget]

theorem Hw.link_congr {h h' : Hw} (same : h'.lgt = h.lgt) (n : Nat) : h'.link n = h.link n := by rw [Hw.link, same, Hw.link]

/-- A held frame has the next LSEQ; its preamble stays on the wire (R232). -/
theorem Hw.holdFrame_wirePre (h : Hw) (n : Nat) (f : Frame) : ((h.holdFrame n f).link n).wirePre = (h.link n).wirePre := by
  unfold Hw.holdFrame
  dsimp only
  split
  · rw [Hw.link_setLink_self]
  · rw [Hw.link_congr (Hw.count_lgt _ _ _ _ _), Hw.link_setLink_self]

theorem Hw.holdFrame_only {ps : List Part} (h : Hw) (n : Nat) (f : Frame) (part : Part.lgt ∈ ps) :
    Only ps (fun r => r.isCnt = true) h (h.holdFrame n f) := by
  unfold Hw.holdFrame
  dsimp only
  split
  · exact Hw.setLink_only _ _ _ part
  · exact (Hw.setLink_only _ _ _ part).trans (Hw.count_only _ _ _ _ _ _)

/-- The transmit stamp of a PTP message is time state. -/
theorem Hw.ptpStamp_only {ps : List Part} {P : Reg → Prop} (h : Hw) (n : Nat) (x : Held) (part : Part.tim ∈ ps) :
    Only ps P h (h.ptpStamp n x) := by
  unfold Hw.ptpStamp
  split
  · exact ⟨fun _ _ => rfl, fun p other => by cases p <;> first | rfl | exact absurd part other⟩
  · exact Only.refl _ _ _

/-- A frame that begins fixes its preamble, may be held for retry, and leaves its copies as they are. -/
theorem Hw.begin_spec (h : Hw) (n : Nat) (x : Held) (bad : Bool) :
    ((h.begin n x bad).link n).wirePre = h.preamble n (h.link n).txSeq false ∧
    (∀ id f cs, (h.begin n x bad).Holds id f cs ↔ h.Holds id f cs) ∧
    Only [.buf, .lgt, .tim] (fun r => r.isCnt = true) h (h.begin n x bad) := by
  unfold Hw.begin
  extract_lets l pre h1 l1 h2 l2 h3
  have begun : Only [.lgt] (fun r => r.isCnt = true) h h2 :=
    (Hw.preambleSent_only _ _ _ List.mem_cons_self).trans (Hw.setLink_only _ _ _ List.mem_cons_self)
  have fixed : (h2.link n).wirePre = pre := congrArg Link.wirePre (Hw.link_setLink_self _ _ _)
  have numbered : Only [.lgt] (fun r => r.isCnt = true) h2 h3 ∧ (h3.link n).wirePre = pre := by
    dsimp only [h3]
    split
    · exact ⟨Hw.holdFrame_only _ _ _ List.mem_cons_self, (Hw.holdFrame_wirePre _ _ _).trans fixed⟩
    · split
      · exact ⟨Hw.setLink_only _ _ _ List.mem_cons_self, (congrArg Link.wirePre (Hw.link_setLink_self _ _ _)).trans fixed⟩
      · exact ⟨Only.refl _ _ _, fixed⟩
  have stamped := Hw.ptpStamp_only (ps := [.tim]) (P := fun r => r.isCnt = true) h3 n x List.mem_cons_self
  have link : (h3.ptpStamp n x).lgt = h3.lgt := stamped.parts .lgt (by simp)
  have frames : (h3.ptpStamp n x).buf = h.buf :=
    ((stamped.parts .buf (by simp)).trans (numbered.1.parts .buf (by simp))).trans (begun.parts .buf (by simp))
  refine ⟨?_, fun id f cs => (Hw.copyPoint_holds _ _ _ _).trans (Hw.holds_congr (congrArg Buf.held frames)), ?_⟩
  · exact (congrArg Link.wirePre (Hw.link_congr link n)).trans numbered.2
  · refine Only.trans ?_ (Hw.mapHeld_only _ _ _ (by simp))
    exact ((begun.trans numbered.1).mono (by simp) fun _ => id).trans (stamped.mono (by simp) fun _ => id)

section
variable {h : Hw} {n : Nat} {x : Held} {c : Copy}

/-- The next held frame of a replay goes out again. -/
theorem Hw.transmitStart_of_replay {f : RetryFrame} (start : h.portStart n = true) (up : h.linkUp n = true)
    (live : h.quadOk (portDie n) = true) (idle : (h.copiesTo n fun _ k => k.spot == .wire) = [])
    (replay : ((h.link n).replayFrom.bind fun k => (h.link n).held.find? fun g => g.lseq == k) = some f) :
    ∃ k, h.transmitStart n =
      (((h.frameOut n (h.preamble n f.lseq false) f.frame).count (portDie n) 0x042 n 1).preambleSent n false).setReplay n k := by
  unfold Hw.transmitStart
  rw [if_neg (by simp [start, up, live, idle])]
  dsimp only
  rw [replay]
  exact ⟨_, rfl⟩

/-- With no replay the oldest frame that may start begins. -/
theorem Hw.transmitStart_of_staged (start : h.portStart n = true) (up : h.linkUp n = true)
    (live : h.quadOk (portDie n) = true) (idle : (h.copiesTo n fun _ k => k.spot == .wire) = [])
    (noReplay : ((h.link n).replayFrom.bind fun k => (h.link n).held.find? fun g => g.lseq == k) = none)
    (oldest : firstJoin (h.copiesTo n Held.mayStart) = some (x, c)) (calm : h.bit .errInject Fld.errInject_arm = false) :
    h.transmitStart n = (h.draw.2.begin n x false).mapHeld x.id fun y =>
      { y with copies := y.copies.map fun k => if k.port = n then { k with spot := .wire, bad := false } else k } := by
  have calm' : h.draw.2.bit .errInject Fld.errInject_arm = false := calm
  unfold Hw.transmitStart
  rw [if_neg (by simp [start, up, live, idle])]
  dsimp only
  rw [noReplay]
  dsimp only
  rw [oldest]
  dsimp only
  rw [Hw.eccPass_of_calm calm', Hw.eccPass_of_calm calm']
  rfl

end

/-! ### What leaves the chip stays -/

/-- Events may leave the chip, and none that has left is taken back. -/
def OutGrows (h h' : Hw) : Prop := h.out <:+ h'.out

namespace OutGrows

theorem refl (h : Hw) : OutGrows h h := List.suffix_rfl
theorem trans {a b c : Hw} (first : OutGrows a b) (second : OutGrows b c) : OutGrows a c := List.IsSuffix.trans first second
theorem emit (h : Hw) (o : Out) : OutGrows h (h.emit o) := List.suffix_cons _ _
theorem of_eq {h h' : Hw} (same : h'.out = h.out) : OutGrows h h' := by
  rw [OutGrows, same]

end OutGrows

theorem Hw.msix_grows (h : Hw) (v : Nat) : OutGrows h (h.msix v) := by
  unfold Hw.msix
  split
  · exact .emit _ _
  · exact .of_eq rfl

theorem Hw.cqSignal_grows (h : Hw) (r : Nat) (force : Bool) : OutGrows h (h.cqSignal r force) := by
  unfold Hw.cqSignal
  dsimp only
  split
  · exact Hw.msix_grows (h.setRing r _) _
  · exact .refl h

theorem Hw.cqWrite_grows (h : Hw) (r tag status result : Nat) : OutGrows h (h.cqWrite r tag status result) := by
  unfold Hw.cqWrite
  extract_lets x t e h1 t' h2 h3
  have written : OutGrows h h3 := OutGrows.emit h _
  exact written.trans (Hw.cqSignal_grows h3 r false)

theorem Hw.complete_grows (h : Hw) (r tag status result : Nat) : OutGrows h (h.complete r tag status result) := by
  unfold Hw.complete
  split
  · exact .refl h
  · split
    · exact .of_eq rfl
    · exact Hw.cqWrite_grows _ _ _ _ _

theorem Hw.finish_grows (h : Hw) (d : Desc) (status result : Nat) : OutGrows h (h.finish d status result) :=
  Hw.complete_grows (h.dropDesc d.ix) _ _ _ _

theorem Hw.finishBuf_grows (h : Hw) (d : Desc) (status : Nat) : OutGrows h (h.finishBuf d status) := by
  unfold Hw.finishBuf
  dsimp only
  refine OutGrows.trans ?_ (Hw.finish_grows _ _ _ _)
  split
  · exact .refl h
  · exact .emit _ _

theorem Hw.recDrop_grows (h : Hw) (b : List Byte) : OutGrows h (h.recDrop b) := .of_eq (Hw.count_out _ _ _ _ _)

theorem Hw.toRing_grows (h : Hw) (r : Nat) (b : List Byte) : OutGrows h (h.toRing r b) := by
  unfold Hw.toRing
  dsimp only
  split
  · exact Hw.recDrop_grows _ _
  split
  · exact Hw.recDrop_grows _ _
  · next d rest buffers =>
    split
    · exact .of_eq rfl
    · split
      · exact Hw.recDrop_grows _ _
      · refine OutGrows.trans (Hw.finishBuf_grows h d 0) ?_
        split
        · split
          · exact .of_eq rfl
          · exact Hw.recDrop_grows _ _
        · exact Hw.recDrop_grows _ _

/-- What follows the last byte of a frame: counts, buckets, the mirror sessions, records for the host, and the end of the copy. -/
def Ended (h h' : Hw) : Prop :=
  Only [.fwd, .buf, .egr, .hst, .out] (fun r => r.isCnt = true ∨ r.isRing = true) h h' ∧ OutGrows h h'

theorem Ended.refl (h : Hw) : Ended h h := ⟨Only.refl _ _ h, .refl h⟩

theorem Ended.trans {a b c : Hw} (first : Ended a b) (second : Ended b c) : Ended a c :=
  ⟨Only.trans first.1 second.1, first.2.trans second.2⟩

theorem Ended.foldl {α : Type} (l : List α) (g : Hw → α → Hw) (each : ∀ h x, Ended h (g h x)) (h : Hw) : Ended h (l.foldl g h) := by
  induction l generalizing h with
  | nil => exact Ended.refl h
  | cons x l ih => exact (each h x).trans (ih _)

theorem Hw.count_ended (h : Hw) (d ev qual k : Nat) : Ended h (h.count d ev qual k) :=
  ⟨(Hw.count_only _ h d ev qual k).mono (fun _ => id) fun _ => Or.inl, .of_eq (Hw.count_out h d ev qual k)⟩

theorem Hw.toRing_ended (h : Hw) (r : Nat) (b : List Byte) : Ended h (h.toRing r b) :=
  ⟨(Hw.toRing_host h r b).mono (by simp [hostParts]) fun _ => Or.symm, Hw.toRing_grows h r b⟩

theorem Hw.emit_ended (h : Hw) (o : Out) : Ended h (h.emit o) := ⟨Only.emit h o (by simp), .emit h o⟩

theorem Hw.chargeShaper_ended (h : Hw) (n t len : Nat) : Ended h (h.chargeShaper n t len) := ⟨Only.egr h _ (by simp), .of_eq rfl⟩

theorem Hw.mirrorOne_ended (h : Hw) (m n dir t : Nat) (f : Frame) : Ended h (h.mirrorOne m n dir t f) := by
  unfold Hw.mirrorOne
  extract_lets r every k w g b ring g'
  have seen : Ended h g := ⟨Only.fwd h _ (by simp), .of_eq rfl⟩
  have noted : Ended h g' := by
    show Ended h (if g.ringTakes ring b.length then g else g.count (portDie n) 0x027 m 1)
    split
    · exact seen
    · exact seen.trans (Hw.count_ended _ _ _ _ _)
  split
  · exact Ended.refl h
  · split
    · exact seen
    · split
      · exact noted.trans (Hw.toRing_ended _ _ _)
      · exact seen.trans (Hw.emit_ended _ _)

theorem Hw.mirrors_ended (h : Hw) (n dir t : Nat) (f : Frame) : Ended h (h.mirrors n dir t f) :=
  Ended.foldl _ _ (fun g m => Hw.mirrorOne_ended g m n dir t f) h

theorem Hw.sampleHeld_grows (h : Hw) (x : Held) (out : Option Nat) (outcome detail : Nat) :
    OutGrows h (h.sampleHeld x out outcome detail) := by
  unfold Hw.sampleHeld Hw.sampleEnd
  split
  · dsimp only
    split
    · exact Hw.toRing_grows _ _ _
    · exact .emit _ _
  · exact .refl h

theorem Hw.sampleCopy_ended (h : Hw) (x : Held) (n outcome : Nat) : Ended h (h.sampleCopy x n outcome) := by
  refine ⟨(Hw.sampleCopy_host h x n outcome).mono (by simp [hostParts]) fun _ => Or.symm, ?_⟩
  unfold Hw.sampleCopy
  split
  · split
    · exact Hw.sampleHeld_grows h x _ _ _
    · exact .refl h
  · exact .refl h

theorem Hw.dropCopies_ended (h : Hw) (id : Nat) (p : Copy → Bool) : Ended h (h.dropCopies id p) :=
  ⟨Hw.dropCopies_only _ _ _ (by simp) (by simp),
    .of_eq ((Hw.dropCopies_only (ps := [.buf, .egr]) (P := noRegs) h id p (by simp) (by simp)).parts .out (by simp))⟩

/-! ### TRANSMIT_END (R117, R314) -/

/-- The frame on the wire goes out whole, and then its shaper is charged, the mirror sessions see it, and its copy ends. -/
theorem Hw.transmitEnd_spec {h : Hw} {n : Nat} {x : Held} {c : Copy}
    (onWire : (h.copiesTo n fun _ k => k.spot == .wire && k.left == 0).head? = some (x, c)) :
    Ended (h.frameOut n (h.link n).wirePre (x.onWire n c.bad)) (h.transmitEnd n) ∧
      ∀ f cs, (h.transmitEnd n).Holds x.id f cs → ∀ k ∈ cs, k.port ≠ n := by
  unfold Hw.transmitEnd
  rw [onWire]
  dsimp only
  constructor
  · refine Ended.trans ?_ (Hw.dropCopies_ended _ _ _)
    refine Ended.trans ?_ (Hw.sampleCopy_ended _ _ _ _)
    exact (Hw.chargeShaper_ended _ _ _ _).trans (Hw.mirrors_ended _ _ _ _ _)
  · intro f cs stands k here
    exact beq_eq_false_iff_ne.1 (Hw.dropCopies_gone _ _ _ stands k here)

/-- Settles O26: each command is the equation above for its case, and the frame it moves stands with its copies moved. -/
theorem schedulerAndWire : Obligations.SchedulerAndWire := by
  unfold Obligations.SchedulerAndWire
  refine ⟨?schedule, ?cell, ?start, ?finish⟩
  case schedule =>
    intro p t pk x c d s start up live pick serve calm
    have run := Hw.egressSchedule_eq start up live pick serve calm
    have held : x ∈ s.hw.buf.held := Hw.refillShapers_buf s.hw p ▸ Hw.held_of_drrPick serve
    generalize refilled : (s.hw.refillShapers p).setSched p { s.hw.sched p with drr := (s.hw.sched p).drr.set t d } = g at run
    have same : g.buf = s.hw.buf := by rw [← refilled, Hw.setSched_buf, Hw.refillShapers_buf]
    obtain ⟨j, stands⟩ := Hw.dispatch_holds (h := g) (same ▸ held) p
    have after : ((g.dispatch p x).served p t x.len pk |>.onEmpty p t).buf = (g.dispatch p x).buf := by rw [Hw.onEmpty_buf, Hw.served_buf]
    obtain ⟨y, there, number, frame, copies⟩ := (Hw.holds_congr (congrArg Buf.held after)).2 stands
    refine ⟨_, y, rfl, ?_, number, frame, ?_, fun k here toward => ?_, OnlyHw.of_onHw ?_⟩
    · rwa [State.onHw_hw, run]
    · simp [copies, Copy.moved_port]
    · obtain ⟨spot, left⟩ := Copy.of_mem_moved (copies ▸ here) toward
      constructor <;> intro die <;> simp [spot, left, die]
    · rw [run, ← refilled]
      refine Only.trans ?_ (Hw.onEmpty_only _ _ _ (by simp))
      refine Only.trans ?_ ((Hw.served_only _ _ _ _ _).mono (by simp) fun _ => id)
      refine Only.trans ?_ ((Hw.dispatch_only _ _ _).mono (by simp) fun _ => id)
      exact ((Hw.refillShapers_only _ _ _).mono (by simp) fun _ => id).trans (Hw.setSched_only _ _ _ (by simp))
  case cell =>
    intro a b x c s sender receiver path first calm
    have damaged := Hw.floorCell_of_bad sender receiver path first
    have run := Hw.floorCell_of_good sender receiver path first
    obtain ⟨held, spot⟩ := Hw.of_crossing first
    refine ⟨⟨_, rfl, OnlyHw.of_onHw ?_⟩, fun more => ?_, fun last arrives => ?_, fun last floor down => ?_⟩
    · rw [damaged]
      exact Hw.count_only _ _ _ _ _ _
    · rw [if_pos more] at run
      obtain ⟨y, there, number, frame, copies⟩ := (Hw.holds_of_mem held).mapCopies
        fun k => if k.port = c.port then { k with left := k.left - 1 } else k
      refine ⟨_, y, rfl, ?_, number, frame, copies, OnlyHw.of_onHw ?_⟩
      · rwa [State.onHw_hw, run]
      · rw [run]
        exact Hw.mapHeld_only _ _ _ List.mem_cons_self
    · rw [if_neg (by omega)] at run
      obtain ⟨cs, ⟨y, there, number, frame, rfl⟩, arrived, only⟩ := Hw.deliver_arrives held calm arrives
      rw [← run] at there only
      exact ⟨_, y, rfl, there, number, frame, arrived, OnlyHw.of_onHw only⟩
    · rw [if_neg (by omega)] at run
      obtain ⟨gone, only⟩ := Hw.deliver_lost (x := x) calm (by simp [floor]) down
      rw [← run] at gone only
      exact ⟨_, rfl, fun y there number => gone _ _ (number ▸ Hw.holds_of_mem there), OnlyHw.of_onHw only⟩
  case start =>
    intro p s start up live idle calm
    constructor
    · intro f replay
      obtain ⟨k, run⟩ := Hw.transmitStart_of_replay start up live idle replay
      refine ⟨_, rfl, ?_, OnlyHw.of_onHw ?_⟩
      · rw [State.onHw_hw, run]
        show (Hw.preambleSent _ _ _).out = _
        rw [Hw.preambleSent_out, Hw.count_out, Hw.frameOut_out]
      · rw [run]
        refine Only.trans ?_ (Hw.setLink_only _ _ _ (by simp))
        refine Only.trans ?_ (Hw.preambleSent_only _ _ _ (by simp))
        exact (Hw.frameOut_only _ _ _ _ (by simp)).trans (Hw.count_only _ _ _ _ _ _)
    · intro x c noReplay oldest
      have run := Hw.transmitStart_of_staged start up live idle noReplay oldest calm
      obtain ⟨pre, stands, only⟩ := Hw.begin_spec s.hw.draw.2 p x false
      have held := (Hw.mem_copiesTo.1 (mem_of_firstJoin oldest)).1
      have drawn : s.hw.draw.2.Holds x.id x.frame x.copies := Hw.holds_of_mem held
      obtain ⟨y, there, number, frame, copies⟩ := ((stands _ _ _).2 drawn).mapCopies
        fun k => if k.port = p then { k with spot := .wire, bad := false } else k
      refine ⟨_, y, rfl, ?_, number, frame, copies, ?_, OnlyHw.of_onHw ?_⟩
      · rwa [State.onHw_hw, run]
      · rw [State.onHw_hw, run]
        exact pre
      · rw [run]
        refine Only.trans ?_ (Hw.mapHeld_only _ _ _ (by simp))
        exact (Only.draw s.hw (by simp)).trans (only.mono (by simp) fun _ => id)
  case finish =>
    intro p x c s onWire
    obtain ⟨ended, gone⟩ := Hw.transmitEnd_spec onWire
    obtain ⟨only, l, grown⟩ := ended
    refine ⟨_, l, rfl, ?_, fun y there number => gone _ _ (number ▸ Hw.holds_of_mem there), OnlyHw.of_onHw ?_⟩
    · rw [State.onHw_hw, ← Hw.frameOut_out]
      exact grown.symm
    · exact ((Hw.frameOut_only _ _ _ _ (by simp)).mono (fun _ => id) fun _ => Or.inl).trans only

end Sys2Proof.Machine
end

section
/-! PROOFS. Collective frames (R139, R143) where two Bridles stand with one index: O46. -/

namespace Sys2Proof.Machine

/-- A Bridle of KIND 2 with index 2 and window 1, of generation 3 of `group`, at home on C-die[0], whose one member sits on port 8 and has
been heard. Its position expects sequence 5 and holds a result. -/
def holding (group : BitVec 16) (state : BState) : Bridle :=
  { ix := 2, group := group, gen := 3, state := state, kind := 2, exact := false, twin := false, winLog2 := 0, home := 0, canon := 56,
    recipe := 0, parentPort := 16, parentEn := false, parentMember := 0, parentNode := 0, memberBase := 0,
    members := [⟨8, true, false, 0x11, 0, 16⟩], elements := 64, chunkUnits := 1, straggleUs := 200, abortUs := 5000, ranks := 16,
    ownerShift := 0, rootRank := 0, firstSeq := 5, seqLow := 5, abortSeq := 0, abortReason := 0, abortMember := 0, slots := ⟨1, 0, 0, 0⟩,
    pos := [{ Pos.blank 5 with state := .hold, data := [1, 2] }], heard := [0], repeats := 0, since := 0, stageSet := 0, closers := [] }

/-- A REPLAY_REQ of member 0 of group 7, generation 3, for sequence 5. -/
def replayHdr : VHdr := { VHdr.make 2 0x63 0x77 0x11 with seq := 5, opData := BitVec.ofNat 64 (7 * 2 ^ 48 + 3 * 2 ^ 40) }

/-- The request waits on port 8. -/
def replayAsked : Taken := { id := 1, port := 8, frame := ⟨0, 0, [], 0, replayHdr.bytes, true⟩, hdr := replayHdr, born := 0, tag := none }

/-- A chip that serves, with an ABORTED Bridle of group 8 and a READY one of group 7, both listed under index 2. No run leads here, for
`Hw.freeBridle` gives a new Bridle an index that none has; the statement does not ask for a state that a run reaches. -/
def indexShared : State :=
  { State.reset with hw := { Hw.reset with
      regs := [(.hubState, 0x10), (.nodeId, 0x8000000000000077)]
      coll := ⟨[holding 8 .aborted, holding 7 .ready], [], []⟩
      buf := { Buf.reset with taken := [replayAsked], nextId := 9 }
      pwr := { Pwr.reset with porHeld := false } } }

theorem exec_replayReqReceive (p : Port) (s : State) :
    exec (.replayReqReceive p) s = .next (s.onHw fun h => h.collTake p 0x63 Hw.replayReqIn) := rfl

/-- The request is from the READY Bridle's member, and passes the checks. -/
theorem collFrame_indexShared : CollFrame indexShared 8 0x63 replayAsked (holding 7 .ready) (.member 0) where
  oldest := by decide +kernel
  group := by decide +kernel
  good := by decide +kernel
  gen := by decide +kernel
  active := by decide
  waits := fun pending => absurd pending (by decide)
  sender := by
    refine ⟨?_, ?_, ?_, ?_, ?_⟩ <;> decide +kernel
  window := by decide
  calm := by decide +kernel

theorem canSend_indexShared : CanSend indexShared.hw (holding 7 .ready) (.member 0) :=
  ⟨by decide +kernel, by decide +kernel, by decide +kernel⟩

/-- The resend looks the index up again, finds the ABORTED Bridle, and sends nothing. -/
theorem held_replayReq_indexShared : (indexShared.hw.collTake (8 : Port) 0x63 Hw.replayReqIn).buf.held = [] := by decide +kernel

/-- Refutes O46: in `indexShared` the REPLAY_REQ of a receiving member in HOLD brings no RESULT. The statement lacks the premise that
`bridleAt b.ix` is the Bridle `b` of the frame's group. -/
theorem not_collectiveFramesMoveTheirPosition : ¬ Obligations.CollectiveFramesMoveTheirPosition := by
  unfold Obligations.CollectiveFramesMoveTheirPosition
  intro h
  obtain ⟨-, -, -, replay, -⟩ := h 8 replayAsked (holding 7 .ready) indexShared
  obtain ⟨t, ran, ⟨y, -, held, -⟩, -⟩ := replay 0 collFrame_indexShared (by decide +kernel) rfl (by decide +kernel) (by decide +kernel)
    (by decide +kernel) (Or.inr (by decide +kernel)) canSend_indexShared
  rw [exec_replayReqReceive] at ran
  obtain rfl := Host.Outcome.next.inj ran
  rw [State.onHw_hw, held_replayReq_indexShared] at held
  exact List.not_mem_nil held

end Sys2Proof.Machine
end

section
/-! PROOFS. Bridles at work: their entries and positions (R129, R140), the frames they send (R99, R135), aborts (R150, R151), records (R326)
and Ballast without an armed error (R318). -/

namespace Sys2Proof.Machine

/-! ### The entry of a Bridle (R129) -/

section
variable {h h' : Hw} {ix : Nat} {b c : Bridle}

theorem Hw.ix_of_bridleAt (there : h.bridleAt ix = some b) : b.ix = ix := by
  simpa using List.find?_some there

theorem Hw.bridleAt_self (there : h.bridleAt ix = some b) : h.bridleAt b.ix = some b := by rw [Hw.ix_of_bridleAt there, there]

theorem Hw.bridleAt_congr (same : h'.coll = h.coll) (ix : Nat) : h'.bridleAt ix = h.bridleAt ix := by
  rw [Hw.bridleAt, same, Hw.bridleAt]

/-- An index that has an entry reads as it was last set. -/
theorem Hw.bridleAt_setBridle (there : h.bridleAt ix = some b) (same : c.ix = b.ix) : (h.setBridle c).bridleAt ix = some c := by
  obtain rfl := same.trans (Hw.ix_of_bridleAt there)
  unfold Hw.bridleAt Hw.setBridle at *
  dsimp only at *
  generalize h.coll.bridles = l at there ⊢
  induction l with
  | nil => simp at there
  | cons x l ih =>
    by_cases here : x.ix = c.ix
    · simp [here]
    · simp only [List.find?_cons, beq_eq_false_iff_ne.2 here] at there
      simpa [here] using ih there

end

theorem Only.coll {ps : List Part} {P : Reg → Prop} (h : Hw) (x : Coll) (part : Part.coll ∈ ps) : Only ps P h { h with coll := x } :=
  ⟨fun _ _ => rfl, fun p other => by
    cases p
    case coll => exact absurd part other
    all_goals rfl⟩

theorem Hw.setBridle_coll_only (h : Hw) (b : Bridle) : Only [.coll] noRegs h (h.setBridle b) := Only.coll h _ (by simp)

/-! ### Positions (R140) -/

theorem Bridle.posOf_lt {b : Bridle} (window : b.pos.length = b.win) (s : BitVec 32) : b.posOf s < b.pos.length :=
  window ▸ Nat.mod_lt _ (Nat.two_pow_pos _)

theorem Bridle.at_setPos_self {b : Bridle} {p : Nat} (inside : p < b.pos.length) (x : Pos) : (b.setPos p x).at p = x := by
  simp [Bridle.at, Bridle.setPos, inside]

theorem Bridle.at_setPos_ne (b : Bridle) {p k : Nat} (apart : k ≠ p) (x : Pos) : (b.setPos p x).at k = b.at k := by
  simp [Bridle.at, Bridle.setPos, List.getD, List.getElem?_set_ne apart.symm]

theorem Bridle.length_setPos (b : Bridle) (p : Nat) (x : Pos) : (b.setPos p x).pos.length = b.pos.length := by simp [Bridle.setPos]

/-! ### Frames that a Bridle sends (R99, R135) -/

theorem Hw.joinCopy_only (P : Reg → Prop) (h : Hw) (id n t : Nat) (spot : Spot) : Only [.buf, .egr] P h (h.joinCopy id n t spot) := by
  have woken : Only [.buf, .egr] P h (if h.backlogged n t then h else h.onWake n t) := by
    split
    · exact .refl _ _ _
    · exact Only.egr _ _ (by simp)
  exact woken.trans (Only.buf _ _ (by simp))

/-- The frame that a C-die sends from Ballast on port `n` (R99). -/
def Hw.ballastFrame (h : Hw) (q n : Nat) (hd : VHdr) (payload : List Byte) : Held :=
  { id := h.buf.nextId, frame := h.vframe hd payload, hdr := some (h.vframe hd payload).hdr, cls := hd.tc.toNat, die := q, inPort := none,
    born := h.slot q, route := .port n, copies := [⟨n, .landing, 0, 0, false⟩], mcast := false, deflected := false, ballast := true,
    badTail := false, tag := none }

theorem Hw.originateOn_of_may {h : Hw} {q : Nat} {hd : VHdr} (may : h.mayOriginate q = true) (node : h.nodeValid = true) (n : Nat)
    (payload : List Byte) : h.originateOn q n hd payload true =
      (h.freshId.2.addHeld (h.ballastFrame q n hd payload)).joinCopy h.buf.nextId n hd.tc.toNat .queue := by
  rw [Hw.originateOn, if_neg (by simp [may, node])]
  rfl

/-- A frame of Ballast joins the held frames and its queue, if it is sent at all. -/
theorem Hw.originateOn_cases (h : Hw) (q n : Nat) (hd : VHdr) (payload : List Byte) : h.originateOn q n hd payload true = h ∨
    ∃ x t, h.originateOn q n hd payload true = (h.freshId.2.addHeld x).joinCopy h.buf.nextId n t .queue := by
  unfold Hw.originateOn
  split
  · exact .inl rfl
  · exact .inr ⟨h.ballastFrame q n hd payload, _, rfl⟩

theorem Hw.sendColl_cases (h : Hw) (b : Bridle) (dst : Toward) (op : Nat) (s : BitVec 32) (roff : BitVec 40) (low : Nat) (replay : Bool)
    (payload : List Byte) : h.sendColl b dst op s roff low replay payload = h ∨
      ∃ x t, h.sendColl b dst op s roff low replay payload = (h.freshId.2.addHeld x).joinCopy h.buf.nextId (b.port dst) t .queue := by
  unfold Hw.sendColl
  extract_lets n q
  by_cases port : (!h.quadOk (portDie n)) = true
  · exact .inl (if_pos port)
  · rw [if_neg port]
    exact Hw.originateOn_cases _ _ _ _ _

theorem Hw.sendColl_only (P : Reg → Prop) (h : Hw) (b : Bridle) (dst : Toward) (op : Nat) (s : BitVec 32) (roff : BitVec 40) (low : Nat)
    (replay : Bool) (payload : List Byte) : Only [.buf, .egr] P h (h.sendColl b dst op s roff low replay payload) := by
  obtain same | ⟨x, t, sent⟩ := Hw.sendColl_cases h b dst op s roff low replay payload
  · rw [same]
    exact .refl _ _ _
  · rw [sent]
    exact (Only.buf _ _ (by simp)).trans (Hw.joinCopy_only P _ _ _ _ _)

theorem Only.send_of_frames {h h' : Hw} (sent : Only [.buf, .egr] noRegs h h') : Only (.coll :: sendParts) Reg.isNote h h' :=
  sent.mono (by simp [sendParts]) fun _ none => none.elim

theorem Hw.joinCopy_sends {h : Hw} {k m op : Nat} (stands : Sends h k m op) (id n t : Nat) (spot : Spot) :
    Sends (h.joinCopy id n t spot) k m op := by
  obtain ⟨y, d, held, late, header, opcode, ports⟩ := stands
  refine ⟨if y.id = id then { y with copies := y.copies.map (Copy.joined n spot h.buf.nextJoin) } else y, d, ?_, ?_⟩
  · rw [Hw.joinCopy_buf]
    exact List.mem_map_of_mem held
  · split
    · exact ⟨late, header, opcode, by simpa [Copy.joined_port] using ports⟩
    · exact ⟨late, header, opcode, ports⟩

theorem Hw.addHeld_sends {h : Hw} {k m op : Nat} (stands : Sends h k m op) (x : Held) : Sends (h.addHeld x) k m op := by
  obtain ⟨y, d, held, rest⟩ := stands
  exact ⟨y, d, List.mem_append_left _ held, rest⟩

/-- A frame that waits to leave still waits after another is sent. -/
theorem Hw.sendColl_sends {h : Hw} {k m o : Nat} (stands : Sends h k m o) (b : Bridle) (dst : Toward) (op : Nat) (s : BitVec 32)
    (roff : BitVec 40) (low : Nat) (replay : Bool) (payload : List Byte) : Sends (h.sendColl b dst op s roff low replay payload) k m o := by
  obtain same | ⟨x, t, sent⟩ := Hw.sendColl_cases h b dst op s roff low replay payload
  · rwa [same]
  · rw [sent]
    exact Hw.joinCopy_sends (Hw.addHeld_sends (h := h.freshId.2) stands x) _ _ _ _

/-- The opcode of a frame that the chip originates reads as it was given. -/
theorem Hw.vframe_opcode (h : Hw) (hd : VHdr) (payload : List Byte) : (h.vframe hd payload).hdr.opcode = hd.opcode := by
  have read (d : VHdr) (l : List Byte) : VHdr.ofBytes (d.bytes ++ l) = d := headerBytesRoundTrip.1 d l
  unfold Frame.hdr Hw.vframe padTo
  dsimp only
  rw [List.append_assoc, read]
  rfl

theorem Hw.ballastFrame_sends (h : Hw) (q n : Nat) {hd : VHdr} {op : Nat} (opcode : hd.opcode.toNat = op) (payload : List Byte) :
    Sends (h.freshId.2.addHeld (h.ballastFrame q n hd payload)) h.buf.nextId n op :=
  ⟨h.ballastFrame q n hd payload, _, List.mem_append_right _ (List.mem_singleton_self _), le_refl _, rfl, by rwa [Hw.vframe_opcode], rfl⟩

/-- A Bridle that can send toward an end puts a frame with the next number on the port of that end. -/
theorem Hw.sendColl_waits {h : Hw} {b : Bridle} {dst : Toward} (can : CanSend h b dst) {op : Nat} (small : op < 256) (s : BitVec 32)
    (roff : BitVec 40) (low : Nat) (replay : Bool) (payload : List Byte) :
    Sends (h.sendColl b dst op s roff low replay payload) h.buf.nextId (b.port dst) op := by
  obtain ⟨node, home, port⟩ := can
  have quad : h.quadOk b.home = true := by
    rw [Hw.mayOriginate, Bool.and_eq_true] at home
    exact home.1
  unfold Hw.sendColl
  dsimp only
  rw [if_neg (by simp [port]), if_pos quad, Hw.originateOn_of_may home node]
  refine Hw.joinCopy_sends (Hw.ballastFrame_sends h _ _ ?_ _) _ _ _ _
  exact Nat.mod_eq_of_lt small

/-! ### Aborts (R150, R151) -/

/-- The entry of an aborted Bridle. -/
def Bridle.abortedBy (b : Bridle) (reason : Nat) (s : BitVec 32) (member : Nat) : Bridle :=
  { b.released with state := .aborted, abortSeq := s, abortReason := reason, abortMember := member }

theorem Bridle.length_abortedBy (b : Bridle) (reason : Nat) (s : BitVec 32) (member : Nat) :
    (b.abortedBy reason s member).pos.length = b.pos.length := by
  simp [Bridle.abortedBy, Bridle.released]

theorem Hw.sendColl_coll (h : Hw) (b : Bridle) (dst : Toward) (op : Nat) (s : BitVec 32) (roff : BitVec 40) (low : Nat) (replay : Bool)
    (payload : List Byte) : (h.sendColl b dst op s roff low replay payload).coll = h.coll :=
  (Hw.sendColl_only noRegs h b dst op s roff low replay payload).parts .coll (by simp)

theorem Only.coll_of_send {h h' : Hw} (sent : Only sendParts Reg.isNote h h') : h'.coll = h.coll := sent.parts .coll (by simp [sendParts])

/-- An active Bridle that aborts keeps the reason, the sequence and the member of its abort. -/
theorem Hw.bridleAt_bridleAbort {h : Hw} {b c : Bridle} (there : h.bridleAt b.ix = some c) (active : b.state ≠ .aborted) (reason : Nat)
    (s : BitVec 32) (member : Nat) (except : Option Nat) :
    (h.bridleAbort b reason s member except).bridleAt b.ix = some (b.abortedBy reason s member) := by
  rw [Hw.bridleAbort, if_neg active]
  extract_lets src a h1 h2 ends
  have sent : ((ends.filter fun t => some (a.port t) != except).foldl (fun h t => h.sendColl a t 0x64 s 0 (reason * 2 ^ 26) false []) h2).coll =
      (h.setBridle a).coll := by
    rw [foldl_keeps Hw.coll fun g t => Hw.sendColl_coll g a t _ _ _ _ _ _, (Hw.bridleRec_send _ _ _ _ _ _ _ _).coll_of_send,
      (Hw.count_send _ _ _ _ _).coll_of_send]
  rw [Hw.bridleAt_congr sent]
  exact Hw.bridleAt_setBridle (c := a) there (Hw.ix_of_bridleAt there).symm

/-! ### Records that stand (R326) -/

theorem Four.get_set {α : Type} (f : Four α) (q k : Nat) (v : α) : (f.set q v).get k = if k % 4 = q % 4 then v else f.get k := by
  have split4 (n : Nat) : n % 4 = 0 ∨ n % 4 = 1 ∨ n % 4 = 2 ∨ n % 4 = 3 := by omega
  unfold Four.set Four.get
  rcases split4 q with hq | hq | hq | hq <;> rcases split4 k with hk | hk | hk | hk <;> simp [hq, hk]

/-- A record of this code and die stands in the queue of quadrant `q`. -/
def Hw.Recorded (h : Hw) (q code die : Nat) : Prop := ∃ r ∈ h.err.quadQ.get q, r.code = code ∧ r.die = die

theorem Hw.recorded_congr {h h' : Hw} {q code die : Nat} (same : h'.err = h.err) : h'.Recorded q code die ↔ h.Recorded q code die := by
  rw [Hw.Recorded, same, Hw.Recorded]

/-- A queue that takes a record keeps those it holds, but for a count that may rise. -/
theorem queueRec_keeps {cap : Nat} {merge new : Bool} {r x : Rec} {l l' : List Rec} (queued : queueRec cap merge r l = some (l', new))
    (held : x ∈ l) : ∃ y ∈ l', y.code = x.code ∧ y.die = x.die := by
  unfold queueRec at queued
  extract_lets same at queued
  split at queued
  case isTrue =>
    obtain ⟨rfl, -⟩ := Prod.mk.inj (Option.some.inj queued)
    refine ⟨_, List.mem_map_of_mem held, ?_⟩
    split <;> exact ⟨rfl, rfl⟩
  case isFalse =>
    split at queued
    · obtain ⟨rfl, -⟩ := Prod.mk.inj (Option.some.inj queued)
      exact ⟨x, List.mem_append_left _ held, rfl, rfl⟩
    · cases queued

/-- No record pushes another out. -/
theorem Hw.Recorded.record {h : Hw} {q code die : Nat} (stands : h.Recorded q code die) (a : RecArgs) : (h.record a).Recorded q code die := by
  have event (h : Hw) (n : Nat) : (h.icEvent n).err = h.err := (Hw.icEvent_only h n).parts .err (by simp)
  have counted (h : Hw) (d ev k n : Nat) : (h.count d ev k n).err = h.err := (Hw.count_only [] h d ev k n).parts .err (by simp)
  have made : (h.mkRec a).2.err = h.err := (Hw.mkRec_only noRegs h a).parts .err (by simp)
  obtain ⟨x, held, match_⟩ := stands
  unfold Hw.record
  dsimp only
  split
  · next k _ =>
    split
    · next l new queued =>
      have grown : ∃ y ∈ (h.err.quadQ.set k l).get q, y.code = code ∧ y.die = die := by
        rw [Four.get_set]
        split
        · next here =>
          have held' : x ∈ (h.mkRec a).2.err.quadQ.get k := by
            rw [made]
            simpa only [Four.get, here] using held
          obtain ⟨y, there, code', die'⟩ := queueRec_keeps queued held'
          exact ⟨y, there, code'.trans match_.1, die'.trans match_.2⟩
        · exact ⟨x, held, match_⟩
      split
      · rw [Hw.recorded_congr (event _ _)]
        simpa [Hw.Recorded, made] using grown
      · simpa [Hw.Recorded, made] using grown
    · rw [Hw.recorded_congr (counted _ _ _ _ _)]
      exact ⟨x, by simpa [made] using held, match_⟩
  · split
    · exact ⟨x, by simpa [made] using held, match_⟩
    · rw [Hw.recorded_congr (counted _ _ _ _ _)]
      exact ⟨x, by simpa [made] using held, match_⟩

theorem Hw.Recorded.sendColl {h : Hw} {q code die : Nat} (stands : h.Recorded q code die) (b : Bridle) (dst : Toward) (op : Nat)
    (s : BitVec 32) (roff : BitVec 40) (low : Nat) (replay : Bool) (payload : List Byte) :
    (h.sendColl b dst op s roff low replay payload).Recorded q code die :=
  (Hw.recorded_congr ((Hw.sendColl_only noRegs h b dst op s roff low replay payload).parts .err (by simp))).2 stands

theorem Hw.Recorded.count {h : Hw} {q code die : Nat} (stands : h.Recorded q code die) (d ev k n : Nat) :
    (h.count d ev k n).Recorded q code die :=
  (Hw.recorded_congr ((Hw.count_only [] h d ev k n).parts .err (by simp))).2 stands

theorem Hw.Recorded.bridleAbort {h : Hw} {q code die : Nat} (stands : h.Recorded q code die) (b : Bridle) (reason : Nat) (s : BitVec 32)
    (member : Nat) (except : Option Nat) : (h.bridleAbort b reason s member except).Recorded q code die := by
  unfold Hw.bridleAbort
  split
  · exact stands
  · extract_lets src a h1 h2 ends
    refine List.foldlRecOn (motive := fun g : Hw => g.Recorded q code die) _ _ ?_ fun g held t _ => held.sendColl a t _ _ _ _ _ _
    have noted : h1.Recorded q code die := Hw.Recorded.count (h := h.setBridle a) stands _ _ _ _
    exact noted.record _

/-! ### Ballast without an armed error (R147, R318) -/

section
variable {h : Hw} (calm : h.bit .errInject Fld.errInject_arm = false)
include calm

theorem Hw.eccPass_calm (pt d c : Nat) (inverted : Bool) : h.eccPass pt d c inverted = (false, h) := by
  simp [Hw.eccPass, Hw.inject, calm]

theorem Hw.eccChain_calm (l : List (Nat × Nat)) : Hw.eccChain l h = (false, h) := by
  induction l with
  | nil => rfl
  | cons p l ih => simp [Hw.eccChain, Hw.eccPass_calm calm, ih]

theorem Hw.ballastRead_calm (b : Bridle) (p : Nat) : h.ballastRead b p = (true, h) := by
  simp [Hw.ballastRead, Hw.eccPass_calm calm]

end

end Sys2Proof.Machine
end

section
/-! PROOFS. Positions at the home die (R142, R143), the finish (R180, R185, R187) and the timers of a Bridle (R134, R149): O47. -/

namespace Sys2Proof.Machine

/-- From `h` to `h'` the Bridle at `ix` aborts, and beside its entry an abort's frames and record change. -/
structure Hw.Aborts (ix reason : Nat) (s : BitVec 32) (h h' : Hw) : Prop where
  entry : ∃ d, h'.bridleAt ix = some d ∧ d.state = .aborted ∧ d.abortReason = reason ∧ d.abortSeq = s
  only : Only (.coll :: sendParts) Reg.isNote h h'

/-- A Bridle may abort after frames, counts and records that leave its entry. -/
theorem Hw.Aborts.of_send {h g : Hw} {ix : Nat} {b : Bridle} (sent : Only sendParts Reg.isNote h g) (there : h.bridleAt ix = some b)
    (active : b.state ≠ .aborted) (reason : Nat) (s : BitVec 32) (member : Nat) (except : Option Nat) :
    Hw.Aborts ix reason s h (g.bridleAbort b reason s member except) := by
  obtain rfl := Hw.ix_of_bridleAt there
  have entry := (Hw.bridleAt_congr sent.coll_of_send b.ix).trans there
  exact ⟨⟨_, Hw.bridleAt_bridleAbort entry active reason s member except, rfl, rfl, rfl⟩, sent.send.trans (Hw.bridleAbort_only _ _ _ _ _ _)⟩

theorem Hw.Aborts.next {ix reason : Nat} {seq : BitVec 32} {s : State} {f : Hw → Hw} (aborts : Hw.Aborts ix reason seq s.hw (f s.hw)) :
    ∃ t d, (.next (s.onHw f) : Host.Outcome State Fault Refusal) = .next t ∧ t.hw.bridleAt ix = some d ∧ d.state = .aborted ∧
      d.abortReason = reason ∧ d.abortSeq = seq ∧ OnlyHw (.coll :: sendParts) Reg.isNote s t := by
  obtain ⟨⟨d, entry, state, why, sequence⟩, only⟩ := aborts
  exact ⟨_, d, rfl, entry, state, why, sequence, OnlyHw.of_onHw only⟩

theorem Hw.bridleAt_setPos {h : Hw} {ix : Nat} {b : Bridle} (there : h.bridleAt ix = some b) (p : Nat) (x : Pos) :
    (h.setBridle (b.setPos p x)).bridleAt ix = some (b.setPos p x) :=
  Hw.bridleAt_setBridle there rfl

/-! ### Partials (R142) -/

/-- The partial of context `y` of position `p` has reached the home die, or its twin. -/
def Bridle.arrived (b : Bridle) (p : Nat) (y : QCtx) : Bridle :=
  b.setPos p { b.at p with ctx := (b.at p).ctx.map fun z => if z = y then { z with home := true } else z }

section
variable {h : Hw} {ix c : Nat} {b : Bridle} {s : BitVec 32} (there : h.bridleAt ix = some b)
include there

/-- An undamaged partial is home, a damaged one aborts the Bridle. -/
theorem Hw.partialArrive_of_onWay {y : QCtx} (active : b.state ≠ .aborted) (current : (b.at (b.posOf s)).expect = s)
    (opened : (b.at (b.posOf s)).state = .opened) (way : (b.at (b.posOf s)).onWay c = some y)
    (up : h.pathUp c (if y.twin then Nat.xor b.home 2 else b.home) = true) (calm : h.bit .errInject Fld.errInject_arm = false) :
    h.partialArrive ix s c false = h.setBridle (b.arrived (b.posOf s) y) ∧ Hw.Aborts ix 8 s h (h.partialArrive ix s c true) := by
  have works : ¬(b.state = .aborted ∨ (b.at (b.posOf s)).expect ≠ s ∨ (b.at (b.posOf s)).state ≠ .opened) := by
    simp [active, current, opened]
  have run (damaged : Bool) : h.partialArrive ix s c damaged =
      if damaged then h.bridleAbort b 8 s 0x7ff none else h.setBridle (b.arrived (b.posOf s) y) := by
    simp only [Hw.partialArrive, there, if_neg works, way, up, Hw.eccChain_calm calm, Bool.or_false]
    rfl
  rw [run, run]
  exact ⟨rfl, .of_send (.refl _ _ _) there active _ _ _ _⟩

theorem Hw.partialArrive_of_down (down : ∀ y, (b.at (b.posOf s)).onWay c = some y →
    h.pathUp c (if y.twin then Nat.xor b.home 2 else b.home) = false) (damaged : Bool) : h.partialArrive ix s c damaged = h := by
  simp only [Hw.partialArrive, there]
  split
  · rfl
  · split
    · rfl
    · next y way => rw [down y way, Bool.not_false, if_pos rfl]

end

theorem Bridle.mem_ctx_arrived {b : Bridle} {p : Nat} {y : QCtx} (inside : p < b.pos.length) (here : y ∈ (b.at p).ctx) :
    { y with home := true } ∈ ((b.arrived p y).at p).ctx := by
  rw [Bridle.arrived, Bridle.at_setPos_self inside]
  exact List.mem_map.2 ⟨y, here, if_pos rfl⟩

/-! ### The finish (R143, R180, R185, R187) -/

/-- The Bridle with the result `x` in HOLD at position `p` since slot `now`. -/
def Bridle.holdAt (b : Bridle) (p : Nat) (x : Pos) (now : Nat) : Bridle :=
  b.setPos p { x with state := .hold, straggle := some now, acked := [], ctx := [] }

/-- A result that some member receives stays in HOLD until it is acknowledged. -/
theorem Hw.settle_of_waiting {h : Hw} {ix p : Nat} {b : Bridle} (there : h.bridleAt ix = some b)
    (waits : ∃ i ∈ b.receivers (b.at p).expect, i ∉ (b.at p).acked) : h.settle ix p = h := by
  obtain ⟨i, receives, silent⟩ := waits
  have unsettled : ¬ ((b.receivers (b.at p).expect).all fun i => (b.at p).acked.contains i) = true := fun all =>
    silent (by simpa using List.all_eq_true.1 all i receives)
  simp only [Hw.settle, there]
  rw [if_neg fun ⟨_, _, all⟩ => unsettled all]

theorem Hw.holdResult_spec {h : Hw} {b c : Bridle} {p : Nat} {x : Pos} (there : h.bridleAt b.ix = some c) (inside : p < b.pos.length)
    (receives : b.receivers x.expect ≠ []) : (h.holdResult b p x).bridleAt b.ix = some (b.holdAt p x (h.slot b.home)) ∧
      Only (.coll :: sendParts) Reg.isNote h (h.holdResult b p x) := by
  unfold Hw.holdResult
  extract_lets y a g1 g2
  have sent : Only [.buf, .egr] noRegs g1 g2 := Only.foldl _ _ (fun g i => Hw.sendColl_only _ g a (.member i) _ _ _ _ _ _) _
  have entry : g2.bridleAt b.ix = some a := by
    rw [Hw.bridleAt_congr (sent.parts .coll (by simp))]
    exact Hw.bridleAt_setBridle (c := a) there (Hw.ix_of_bridleAt there).symm
  have position : a.at p = y := Bridle.at_setPos_self inside y
  obtain ⟨i, receiver⟩ := List.exists_mem_of_ne_nil _ receives
  have stays : g2.settle a.ix p = g2 := Hw.settle_of_waiting entry ⟨i, by rw [position]; exact receiver, by simp [position, y]⟩
  rw [stays]
  exact ⟨entry, (Hw.setBridle_only h a).trans sent.send_of_frames⟩

theorem Hw.finishSend_spec {h : Hw} {b c : Bridle} {p : Nat} (there : h.bridleAt b.ix = some c) (inside : p < b.pos.length)
    (receives : b.parentEn = false → b.receivers (b.at p).expect ≠ []) (out : List Byte) :
    (∃ d, (h.finishSend b p out).bridleAt b.ix = some d ∧ (d.at p).state = (if b.parentEn then .up else .hold) ∧ (d.at p).data = out) ∧
      Only (.coll :: sendParts) Reg.isNote h (h.finishSend b p out) := by
  have acked (a : Bridle) (l : List Nat) (g : Hw) :
      Only [.buf, .egr] noRegs g (l.foldl (fun h i => h.sendAck a (.member i) (b.at p).expect 1) g) :=
    Only.foldl _ _ (fun g i => Hw.sendColl_only _ g _ _ _ _ _ _ _ _) _
  unfold Hw.finishSend
  extract_lets src x s none_ y a g k
  split
  case isTrue parent =>
    have sent : Only [.buf, .egr] noRegs (h.setBridle a) (none_.foldl (fun h i => h.sendAck a (.member i) s 1) g) :=
      (Hw.sendColl_only _ _ _ _ _ _ _ _ _ _).trans (acked a none_ g)
    refine ⟨⟨a, ?_, ?_, ?_⟩, (Hw.setBridle_only h a).trans sent.send_of_frames⟩
    · rw [Hw.bridleAt_congr (sent.parts .coll (by simp))]
      exact Hw.bridleAt_setBridle (c := a) there (Hw.ix_of_bridleAt there).symm
    · rw [Bridle.at_setPos_self inside]
    · rw [Bridle.at_setPos_self inside]
  case isFalse top =>
    have sent : Only [.buf, .egr] noRegs h k := acked b none_ h
    have entry : k.bridleAt b.ix = some c := (Hw.bridleAt_congr (sent.parts .coll (by simp)) _).trans there
    obtain ⟨held, only⟩ := Hw.holdResult_spec (x := x) entry inside (receives (by simpa using top))
    refine ⟨⟨_, held, ?_, ?_⟩, sent.send_of_frames.trans only⟩
    · rw [Bridle.holdAt, Bridle.at_setPos_self inside]
    · rw [Bridle.holdAt, Bridle.at_setPos_self inside]

theorem Hw.finishOutput_snd (h : Hw) (b : Bridle) (p : Nat) : (h.finishOutput b p).2 = h := by
  unfold Hw.finishOutput
  dsimp only
  split
  · rfl
  · split <;> rfl

/-- For KIND 2 and 3 the output is the contribution carried. -/
theorem Hw.finishOutput_carried (h : Hw) {b : Bridle} (p : Nat) (carries : 2 ≤ b.kind) :
    (h.finishOutput b p).1.bytes = ((b.at p).ctx.filterMap (·.carried)).headD [] := by
  simp [Hw.finishOutput, carries]

theorem Hw.finishCount_send (h : Hw) (dis : W64) (b : Bridle) (c : Nat) (o : Output) :
    Only sendParts Reg.isNote h (h.finishCount dis b c o) := by
  have some_ (g : Hw) (ev k : Nat) : Only sendParts Reg.isNote g (if k = 0 then g else g.count (4 + c) ev 0 k) := by
    split
    · exact .refl _ _ _
    · exact Hw.count_send _ _ _ _ _
  unfold Hw.finishCount
  extract_lets n g r
  have tallied : Only sendParts Reg.isNote h g :=
    ((((some_ h 0x110 o.tally.nan).trans (some_ _ 0x111 o.tally.ovf)).trans (some_ _ 0x112 o.tally.mxNan)).trans
      (some_ _ 0x113 o.tally.nanInt)).trans (some_ _ 0x114 o.tally.sat)
  split
  · split
    · exact tallied
    · exact tallied.trans (Hw.count_send _ _ _ _ _)
  · exact tallied

theorem Hw.voteReport_send (h : Hw) (b : Bridle) (s : BitVec 32) (v : Option Vote) : Only sendParts Reg.isNote h (h.voteReport b s v) := by
  unfold Hw.voteReport
  split
  · exact .refl _ _ _
  · split
    · exact .refl _ _ _
    · exact (Hw.count_send _ _ _ _ _).trans (Hw.bridleRec_send _ _ _ _ _ _ _ _)

/-- The counts of an output on the home die, and in twin mode on its twin (R157, R185, R189). -/
def Hw.finishCounts (h : Hw) (dis : W64) (b : Bridle) (o : Output) : Hw :=
  if b.twin && decide (b.kind < 2) then (h.finishCount dis b b.home o).finishCount dis b (Nat.xor b.home 2) o
  else h.finishCount dis b b.home o

theorem Hw.finishCounts_send (h : Hw) (dis : W64) (b : Bridle) (o : Output) : Only sendParts Reg.isNote h (h.finishCounts dis b o) := by
  unfold Hw.finishCounts
  split
  · exact (Hw.finishCount_send _ _ _ _ _).trans (Hw.finishCount_send _ _ _ _ _)
  · exact Hw.finishCount_send _ _ _ _ _

/-- The twins of a home die are handed to the next Sweep (R185). -/
def Hw.noteTwins (h : Hw) (b : Bridle) : Hw := { h with err := { h.err with twinSweep := h.err.twinSweep ++ [b.home, Nat.xor b.home 2] } }

section
variable {h : Hw} {ix : Nat} {b : Bridle} {s : BitVec 32} (there : h.bridleAt ix = some b) (active : b.state ≠ .aborted)
  (current : (b.at (b.posOf s)).expect = s) (complete : b.complete (b.posOf s) = true) (calm : h.bit .errInject Fld.errInject_arm = false)
include there active current complete calm

/-- With no lane at fault the output is kept as it is, on its way up or for the members. -/
theorem Hw.reductionFinish_right (window : b.pos.length = b.win) (receives : b.parentEn = false → b.receivers s ≠ []) (dis : W64) :
    (∃ d, (h.reductionFinish dis ix s none).bridleAt ix = some d ∧ (d.at (b.posOf s)).state = (if b.parentEn then .up else .hold) ∧
      (d.at (b.posOf s)).data = (h.finishOutput b (b.posOf s)).1.bytes) ∧
    Only (.coll :: sendParts) Reg.isNote h (h.reductionFinish dis ix s none) := by
  obtain ⟨o, output⟩ : ∃ o, (h.finishOutput b (b.posOf s)).1 = o := ⟨_, rfl⟩
  have run : h.reductionFinish dis ix s none = ((h.finishCounts dis b o).voteReport b s o.vote).finishSend b (b.posOf s) o.bytes := by
    simp [Hw.reductionFinish, there, active, current, complete, Hw.ballastRead_calm calm, Hw.finishOutput_snd, Hw.finishCounts, ← output]
  have counted := (Hw.finishCounts_send h dis b o).trans (Hw.voteReport_send _ b s o.vote)
  obtain rfl := Hw.ix_of_bridleAt there
  have entry := (Hw.bridleAt_congr counted.coll_of_send b.ix).trans there
  obtain ⟨kept, only⟩ := Hw.finishSend_spec entry (Bridle.posOf_lt window s) (by rwa [current]) o.bytes
  rw [run, output]
  exact ⟨kept, counted.send.trans only⟩

/-- Twins whose outputs differ abort the Bridle, whichever of the two is wrong. -/
theorem Hw.reductionFinish_mismatch (twins : b.twin = true) (kind : b.kind < 2) (wrong : Bool) {l : List Byte}
    (differs : stageDigest l ≠ stageDigest (h.finishOutput b (b.posOf s)).1.bytes) (dis : W64) :
    Hw.Aborts ix 5 s h (h.reductionFinish dis ix s (some (wrong, l))) := by
  have run : h.reductionFinish dis ix s (some (wrong, l)) =
      (((h.finishCounts dis b (h.finishOutput b (b.posOf s)).1).noteTwins b).count (4 + b.home) 0x117 0 1).bridleAbort b 5 s 0x7ff none := by
    cases wrong <;>
      simp [Hw.reductionFinish, there, active, current, complete, Hw.ballastRead_calm calm, Hw.finishOutput_snd, Hw.finishCounts, twins, kind,
        differs, differs.symm, Hw.noteTwins]
  rw [run]
  refine Hw.Aborts.of_send ?_ there active _ _ _ _
  exact ((Hw.finishCounts_send _ _ _ _).trans (Only.err _ _ (by simp [sendParts]))).trans (Hw.count_send _ _ _ _ _)

end

/-! ### Requests and resends of a timer (R146, R149) -/

/-- Timer of position `k` of the Bridle at `ix` was last started at slot `v`, unless the Bridle is aborted. No test error is armed. -/
structure Hw.Timed (ix k v : Nat) (h : Hw) : Prop where
  entry : ∃ d, h.bridleAt ix = some d ∧ k < d.pos.length ∧ (d.state = .aborted ∨ (d.at k).straggle = some v)
  calm : h.bit .errInject Fld.errInject_arm = false

theorem errInject_not_isNote : ¬Reg.isNote .errInject := by simp [Reg.isNote, Reg.isCnt, Reg.isIcSrc]

theorem Only.calm {ps : List Part} {h h' : Hw} (only : Only ps Reg.isNote h h') (calm : h.bit .errInject Fld.errInject_arm = false) :
    h'.bit .errInject Fld.errInject_arm = false := by
  rwa [Hw.bit, only.fld errInject_not_isNote]

/-- A count of requests is all that `tryOnce` changes (R146). -/
theorem Bridle.tryOnce_eq {b c : Bridle} {p i : Nat} (counted : b.tryOnce p i = some c) :
    ∃ l, c = b.setPos p { b.at p with tries := l } := by
  unfold Bridle.tryOnce at counted
  extract_lets x k at counted
  split at counted
  · cases counted
  · exact ⟨_, (Option.some.inj counted).symm⟩

theorem Bridle.straggle_setPos_tries {b : Bridle} {p : Nat} (l : List (Nat × Nat)) {k : Nat} (inside : k < b.pos.length) :
    ((b.setPos p { b.at p with tries := l }).at k).straggle = (b.at k).straggle := by
  by_cases here : k = p
  · subst here
    rw [Bridle.at_setPos_self inside]
  · rw [Bridle.at_setPos_ne b here]

/-- An event of the Reel restarts no timer: it acts by sending, with a count in the entry, or aborts the Bridle. -/
theorem Hw.reel_timed {h : Hw} {b : Bridle} {ix k v : Nat} (there : h.bridleAt ix = some b) (inside : k < b.pos.length)
    (timer : b.state = .aborted ∨ (b.at k).straggle = some v) (calm : h.bit .errInject Fld.errInject_arm = false) (p i cause : Nat)
    {f : Hw → Bridle → Hw} (sends : ∀ g c, g.bit .errInject Fld.errInject_arm = false → Only sendParts Reg.isNote g (f g c)) :
    Only (.coll :: sendParts) Reg.isNote h (h.reel b p i cause f) ∧ Hw.Timed ix k v (h.reel b p i cause f) := by
  have acts (g : Hw) (c d : Bridle) (only : Only (.coll :: sendParts) Reg.isNote h g) (entry : g.bridleAt ix = some d)
      (length : k < d.pos.length) (timer : d.state = .aborted ∨ (d.at k).straggle = some v) :
      Only (.coll :: sendParts) Reg.isNote h (f g c) ∧ Hw.Timed ix k v (f g c) := by
    have sent := sends g c (only.calm calm)
    have frame := only.trans sent.send
    exact ⟨frame, ⟨d, (Hw.bridleAt_congr sent.coll_of_send ix).trans entry, length, timer⟩, frame.calm calm⟩
  unfold Hw.reel
  split
  · exact ⟨.refl _ _ _, ⟨b, there, inside, timer⟩, calm⟩
  · next active =>
    split
    · exact acts h b b (.refl _ _ _) there inside timer
    · split
      · have frame := Hw.bridleAbort_only h b 4 (b.at p).expect (if i < 1024 then i else 0x7ff) none
        obtain rfl := Hw.ix_of_bridleAt there
        exact ⟨frame, ⟨_, Hw.bridleAt_bridleAbort there active _ _ _ _, by rwa [Bridle.length_abortedBy], .inl rfl⟩, frame.calm calm⟩
      · next c counted =>
        obtain ⟨l, rfl⟩ := Bridle.tryOnce_eq counted
        refine acts _ _ _ (Hw.setBridle_only h _) (Hw.bridleAt_setPos there p _) (by rwa [Bridle.length_setPos]) ?_
        exact timer.imp id fun started => (Bridle.straggle_setPos_tries l inside).trans started

theorem Hw.askChunk_timed {h : Hw} {ix k v : Nat} (timed : Hw.Timed ix k v h) (p i cause : Nat) :
    Only (.coll :: sendParts) Reg.isNote h (h.askChunk ix p i cause) ∧ Hw.Timed ix k v (h.askChunk ix p i cause) := by
  obtain ⟨⟨d, there, inside, timer⟩, calm⟩ := timed
  simp only [Hw.askChunk, there]
  exact Hw.reel_timed there inside timer calm _ _ _ fun g c _ => Hw.sendReplayReq_send _ _ _ _ _ _

theorem Hw.resendResult_timed {h : Hw} {ix k v : Nat} (timed : Hw.Timed ix k v h) (p i cause : Nat) :
    Only (.coll :: sendParts) Reg.isNote h (h.resendResult ix p i cause) ∧ Hw.Timed ix k v (h.resendResult ix p i cause) := by
  obtain ⟨⟨d, there, inside, timer⟩, calm⟩ := timed
  simp only [Hw.resendResult, there]
  refine Hw.reel_timed there inside timer calm _ _ _ fun g c calm => ?_
  simp only [Hw.ballastRead_calm calm]
  exact (Hw.sendColl_send _ _ _ _ _ _ _ _ _).trans (Hw.count_send _ _ _ _ _)

/-- The Reel events of one timer, one member after another. -/
theorem Hw.foldl_timed {h : Hw} {ix k v : Nat} {step : Hw → Nat → Hw} (l : List Nat) (timed : Hw.Timed ix k v h)
    (each : ∀ g i, Hw.Timed ix k v g → Only (.coll :: sendParts) Reg.isNote g (step g i) ∧ Hw.Timed ix k v (step g i)) :
    Only (.coll :: sendParts) Reg.isNote h (l.foldl step h) ∧ Hw.Timed ix k v (l.foldl step h) :=
  List.foldlRecOn (motive := fun g => Only (.coll :: sendParts) Reg.isNote h g ∧ Hw.Timed ix k v g) l step ⟨.refl _ _ _, timed⟩
    fun g ⟨only, kept⟩ i _ => ⟨only.trans (each g i kept).1, (each g i kept).2⟩

/-! ### The straggler timer (R149) -/

theorem Hw.stragglerRec_send (h : Hw) (b : Bridle) (s : BitVec 32) (l : List Nat) : Only sendParts Reg.isNote h (h.stragglerRec b s l) :=
  (Hw.count_send _ _ _ _ _).trans (Hw.bridleRec_send _ _ _ _ _ _ _ _)

/-- A STRAGGLER record stands at the home die while its agent's queue has room. -/
theorem Hw.stragglerRec_recorded {h : Hw} {b : Bridle} (home : b.home < 4) (room : (h.err.quadQ.get b.home).length < 4096) (s : BitVec 32)
    (l : List Nat) : (h.stragglerRec b s l).Recorded b.home 0x0301 (4 + b.home) := by
  have agent : dieQuad (4 + b.home) = some b.home := by
    rw [dieQuad, if_pos (by omega)]
    congr 1
    omega
  have counted : (h.count (4 + b.home) 0x107 0 1).err = h.err := (Hw.count_only [] h _ _ _ _).parts .err (by simp)
  obtain ⟨r, queued, tells⟩ := Hw.record_tells (h := h.count (4 + b.home) 0x107 0 1)
    (a := { code := 0x0301, die := 4 + b.home, unit := 0,
            d0 := BitVec.ofNat 64 (b.group.toNat + b.gen.toNat * 2 ^ 16 + 0 * 2 ^ 24 + s.toNat * 2 ^ 32),
            d1 := BitVec.ofNat 64 (l.length % 65536 + 0 % 65536 * 2 ^ 16 + low8 (l.take 8) % 2 ^ 32 * 2 ^ 32),
            d2 := BitVec.ofNat 64 (low8 (l.take 8) / 2 ^ 32) }) agent (by rwa [counted])
  exact ⟨r, queued, tells.code, tells.die⟩

theorem Hw.Recorded.askChunk {h : Hw} {q code die : Nat} (stands : h.Recorded q code die) (ix p i cause : Nat) :
    (h.askChunk ix p i cause).Recorded q code die := by
  have asked (g : Hw) (c : Bridle) (s : BitVec 32) (stands : g.Recorded q code die) :
      (g.sendReplayReq c (.member i) s 1 cause).Recorded q code die := (stands.sendColl _ _ _ _ _ _ _ _).count _ _ _ _
  unfold Hw.askChunk
  split
  · exact stands
  · next b _ =>
    unfold Hw.reel
    split
    · exact stands
    · split
      · exact asked h b _ stands
      · split
        · exact stands.bridleAbort _ _ _ _ _
        · next c _ => exact asked (h.setBridle c) c _ stands

/-- The timer restarts, whatever it asks for or sends again; for an OPEN position a record stands. -/
theorem Hw.straggler_spec {h : Hw} {ix k t : Nat} {b : Bridle} (there : h.bridleAt ix = some b) (window : b.pos.length = b.win)
    (calm : h.bit .errInject Fld.errInject_arm = false) (home : b.home < 4) (inside : k < b.win) (active : b.state ≠ .aborted)
    (started : (b.at k).straggle = some t) (due : t + slotsUs * b.straggleUs ≤ h.slot b.home) :
    Only (.coll :: sendParts) Reg.isNote h (h.straggler ix k) ∧ Hw.Timed ix k (h.slot b.home) (h.straggler ix k) ∧
      ((b.at k).state = .opened → (h.err.quadQ.get b.home).length < 4096 → (h.straggler ix k).Recorded b.home 0x0301 (4 + b.home)) := by
  have acts : ¬(b.state = .aborted ∨ h.due b.home t b.straggleUs = false ∨ b.win ≤ k) := by
    simp [active, Hw.due, due, inside]
  have place : k < b.pos.length := window ▸ inside
  obtain ⟨c, hc⟩ : ∃ c, c = b.setPos k { b.at k with straggle := some (h.slot b.home) } := ⟨_, rfl⟩
  have restarted : Hw.Timed ix k (h.slot b.home) (h.setBridle c) := by
    subst hc
    exact ⟨⟨_, Hw.bridleAt_setPos there k _, by rwa [Bridle.length_setPos], .inr (by rw [Bridle.at_setPos_self place])⟩, calm⟩
  have frame := Hw.setBridle_only h c
  simp only [Hw.straggler, there, started, if_neg acts, ← hc]
  split
  case h_1 opened =>
    have noted := Hw.stragglerRec_send (h.setBridle c) c (b.at k).expect (c.missing k)
    obtain ⟨d, entry, length, timer⟩ := restarted.entry
    have timed : Hw.Timed ix k (h.slot b.home) ((h.setBridle c).stragglerRec c (b.at k).expect (c.missing k)) :=
      ⟨⟨d, (Hw.bridleAt_congr noted.coll_of_send ix).trans entry, length, timer⟩, noted.calm calm⟩
    obtain ⟨asked, ends⟩ := Hw.foldl_timed (c.missing k) timed fun g i kept => Hw.askChunk_timed kept k i 2
    refine ⟨(frame.trans noted.send).trans asked, ends, fun _ room => ?_⟩
    refine List.foldlRecOn (motive := fun g : Hw => g.Recorded b.home 0x0301 (4 + b.home)) _ _ ?_ fun g kept i _ => kept.askChunk ix k i 2
    subst hc
    exact Hw.stragglerRec_recorded (h := h.setBridle _) (b := b.setPos k _) home room _ _
  case h_2 hold =>
    obtain ⟨sent, ends⟩ := Hw.foldl_timed _ restarted fun g i kept => Hw.resendResult_timed kept k i 2
    exact ⟨frame.trans sent, ends, fun opened => by simp [hold] at opened⟩
  case h_3 other _ => exact ⟨frame, restarted, fun opened => (other opened).elim⟩

/-! ### The other timers (R134, R149, R150) -/

theorem Hw.abortTimer_aborts {h : Hw} {ix k : Nat} {b : Bridle} (there : h.bridleAt ix = some b) (inside : k < b.win)
    (active : b.state ≠ .aborted) (busy : (b.at k).state ≠ .free) (due : (b.at k).opened + slotsUs * b.abortUs ≤ h.slot b.home) :
    Hw.Aborts ix 1 (b.at k).expect h (h.abortTimer ix k) := by
  have run : h.abortTimer ix k = h.bridleAbort b 1 (b.at k).expect (b.late k) none := by
    simp only [Hw.abortTimer, there]
    rw [if_neg (by simp [active, busy, Hw.due, due, inside])]
  rw [run]
  exact .of_send (.refl _ _ _) there active _ _ _ _

/-- A PENDING Bridle tells its parent so again, from now on. -/
theorem Hw.pendingTimer_spec {h : Hw} {ix : Nat} {b : Bridle} (there : h.bridleAt ix = some b) (pending : b.state = .pending)
    (due : b.since + slotsUs * b.straggleUs ≤ h.slot b.home) (can : CanSend h b .parent) :
    (h.pendingTimer ix).bridleAt ix = some { b with since := h.slot b.home } ∧ Sends (h.pendingTimer ix) h.buf.nextId b.parentPort 0x65 ∧
      Only (.coll :: sendParts) Reg.isNote h (h.pendingTimer ix) := by
  obtain ⟨c, hc⟩ : ∃ c, c = { b with since := h.slot b.home } := ⟨_, rfl⟩
  have entry : (h.setBridle c).bridleAt ix = some c := Hw.bridleAt_setBridle there (hc ▸ rfl)
  have told := Hw.sendNotice_send (h.setBridle c) b .parent 2
  have run : h.pendingTimer ix = (h.setBridle c).sendNotice b .parent 2 := by
    simp only [Hw.pendingTimer, there, hc]
    rw [if_neg (by simp [pending, Hw.due, due])]
  rw [run, ← hc]
  refine ⟨(Hw.bridleAt_congr told.coll_of_send ix).trans entry, ?_, (Hw.setBridle_only h c).trans told.send⟩
  exact Hw.sendColl_waits (h := h.setBridle c) ⟨can.node, can.home, can.port⟩ (by decide) _ _ _ _ _

/-- A READY Bridle tells each silent member so again; a record may follow. -/
theorem Hw.readyRepeat_spec {h : Hw} {ix m : Nat} {rest : List Nat} {b : Bridle} (there : h.bridleAt ix = some b) (ready : b.state = .ready)
    (few : b.repeats < 3) (silent : (b.ixs.filter fun i => !b.heard.contains i) = m :: rest)
    (due : b.since + slotsUs * ((b.repeats + 1) * b.straggleUs) ≤ h.slot b.home) (can : CanSend h b (.member m)) :
    (h.readyRepeat ix).bridleAt ix = some { b with repeats := b.repeats + 1 } ∧ Sends (h.readyRepeat ix) h.buf.nextId (b.mem m).port 0x65 ∧
      Only (.coll :: sendParts) Reg.isNote h (h.readyRepeat ix) := by
  obtain ⟨c, hc⟩ : ∃ c, c = { b with repeats := b.repeats + 1 } := ⟨_, rfl⟩
  obtain ⟨g, told⟩ : ∃ g, g = (m :: rest).foldl (fun h i => h.sendNotice b (.member i) 0) (h.setBridle c) := ⟨_, rfl⟩
  have run : h.readyRepeat ix = if b.repeats = 2 then g.stragglerRec b b.firstSeq (m :: rest) else g := by
    simp only [Hw.readyRepeat, there, silent, told, hc]
    rw [if_neg (by simp [ready, few, Hw.due, due])]
  have sent : Only sendParts Reg.isNote (h.setBridle c) g := told ▸ Only.foldl _ _ (fun g i => Hw.sendNotice_send g b (.member i) 0) _
  have first : Sends ((h.setBridle c).sendNotice b (.member m) 0) h.buf.nextId (b.mem m).port 0x65 :=
    Hw.sendColl_waits (h := h.setBridle c) ⟨can.node, can.home, can.port⟩ (by decide) _ _ _ _ _
  have waits : Sends g h.buf.nextId (b.mem m).port 0x65 := told ▸
    List.foldlRecOn (motive := fun g => Sends g h.buf.nextId (b.mem m).port 0x65) rest _ first fun g kept i _ =>
      Hw.sendColl_sends kept b (.member i) _ _ _ _ _ _
  have frame : Only sendParts Reg.isNote (h.setBridle c) (h.readyRepeat ix) := by
    rw [run]
    split
    · exact sent.trans (Hw.stragglerRec_send _ _ _ _)
    · exact sent
  have entry : (h.setBridle c).bridleAt ix = some c := Hw.bridleAt_setBridle there (hc ▸ rfl)
  refine ⟨hc ▸ (Hw.bridleAt_congr frame.coll_of_send ix).trans entry, ?_, (Hw.setBridle_only h c).trans frame.send⟩
  rw [run]
  split
  · rw [Sends, Hw.stragglerRec, Hw.bridleRec, Hw.record_buf, Hw.count_buf]
    exact waits
  · exact waits

/-! ### The statement -/

/-- Settles O47: a lemma above says what each command does when its conditions hold; an abort keeps its reason and sequence. -/
theorem positionsFinishAndTimeOut : Obligations.PositionsFinishAndTimeOut := by
  unfold Obligations.PositionsFinishAndTimeOut
  intro ix b s there window calm
  refine ⟨?arrives, ?lost, ?finishes, ?differs, ?straggles, ?expires, ?pends, ?repeats⟩
  case arrives =>
    intro seq c y active current opened way up
    have inside := Bridle.posOf_lt window seq
    obtain ⟨home, damaged⟩ := Hw.partialArrive_of_onWay there active current opened way up calm
    refine ⟨⟨_, b.arrived (b.posOf seq) y, rfl, ?_, ?_, ?_, OnlyHw.of_onHw ?_⟩, damaged.next⟩
    · rw [State.onHw_hw, home]
      exact Hw.bridleAt_setPos there _ _
    · exact Bridle.mem_ctx_arrived inside (List.mem_of_find?_eq_some way)
    · rwa [Bridle.arrived, Bridle.at_setPos_self inside]
    · rw [home]
      exact Hw.setBridle_coll_only _ _
  case lost =>
    intro seq c damaged down
    exact congrArg Host.Outcome.next (State.onHw_eq_self (Hw.partialArrive_of_down there down damaged))
  case finishes =>
    intro seq active current complete receives
    obtain ⟨⟨d, entry, state, data⟩, only⟩ := Hw.reductionFinish_right there active current complete calm window receives s.nv.disabled
    refine ⟨_, d, rfl, entry, state, data, fun carries => ?_, OnlyHw.of_onHw only⟩
    rw [data, Hw.finishOutput_carried _ _ carries]
  case differs =>
    intro seq wrong l active current complete twins kind differ
    exact (Hw.reductionFinish_mismatch there active current complete calm twins kind wrong differ s.nv.disabled).next
  case straggles =>
    intro k t0 home inside active started due
    obtain ⟨only, timed, recorded⟩ := Hw.straggler_spec there window calm home inside active started due
    obtain ⟨d, entry, -, timer⟩ := timed.entry
    exact ⟨_, d, rfl, entry, timer, recorded, OnlyHw.of_onHw only⟩
  case expires =>
    intro k inside active busy due
    exact (Hw.abortTimer_aborts there inside active busy due).next
  case pends =>
    intro pending due can
    obtain ⟨entry, sent, only⟩ := Hw.pendingTimer_spec there pending due can
    exact ⟨_, _, rfl, entry, pending, rfl, sent, OnlyHw.of_onHw only⟩
  case repeats =>
    intro m rest ready few silent due can
    obtain ⟨entry, sent, only⟩ := Hw.readyRepeat_spec there ready few silent due can
    exact ⟨_, _, rfl, entry, ready, rfl, sent, OnlyHw.of_onHw only⟩

end Sys2Proof.Machine
end

section
/-! PROOFS. Completions and turns of the command engine (R257, R262, R268), BRIDLE_CREATE (R131 to R133), BRIDLE_CLOSE (R153) and recipes
(R164 to R167): O48. -/

namespace Sys2Proof.Machine

/-! ### The end of a command (R257, R262, R268) -/

section
variable {P : Reg → Prop} (rings : ∀ r, P (.ringStatus r))
include rings

theorem Hw.complete_only (h : Hw) (r tag status result : Nat) : Only [.hst, .out] P h (h.complete r tag status result) := by
  have put (g : Hw) (x : Hst) : Only [.hst, .out] P g { g with hst := x } := Only.hst g x (by simp)
  unfold Hw.complete
  split
  · exact .refl _ _ _
  · split
    · exact put h _
    · unfold Hw.cqWrite
      extract_lets x t e h1 t' h2 h3
      have written : Only [.hst, .out] P h h3 :=
        ((Only.emit h _ (by simp)).trans (Only.setFld h1 _ _ _ (rings r))).trans (put h2 _)
      refine written.trans ?_
      unfold Hw.cqSignal
      dsimp only
      split
      · exact (put h3 _).trans (Hw.msix_only _ _ _)
      · exact .refl _ _ _

theorem Hw.finish_only (h : Hw) (d : Desc) (status result : Nat) : Only [.hst, .out] P h (h.finish d status result) :=
  (Only.hst h _ (by simp)).trans (Hw.complete_only rings (h.dropDesc d.ix) _ _ _ _)

end

theorem Hw.msix_started (h : Hw) (v : Nat) : (h.msix v).hst.started = h.hst.started := by
  unfold Hw.msix
  split <;> rfl

theorem Hw.cqSignal_started (h : Hw) (r : Nat) (force : Bool) : (h.cqSignal r force).hst.started = h.hst.started := by
  unfold Hw.cqSignal
  dsimp only
  split
  · exact Hw.msix_started _ _
  · rfl

theorem Hw.complete_started (h : Hw) (r tag status result : Nat) : (h.complete r tag status result).hst.started = h.hst.started := by
  unfold Hw.complete
  split
  · rfl
  · split
    · rfl
    · exact Hw.cqSignal_started _ _ _

/-- A pair that takes completions gets an entry with TAG, STATUS and RESULT. -/
theorem Hw.cqWrite_entry (h : Hw) (r tag status result : Nat) : ∃ a e, Out.hostWrite r a e ∈ (h.cqWrite r tag status result).out ∧
    e.take 4 = bytesLE 4 tag ∧ (e.drop 6).take 1 = bytesLE 1 status ∧ e.drop 8 = bytesLE 8 result := by
  unfold Hw.cqWrite
  extract_lets x t e h1 t' h2 h3
  refine ⟨(h.reg (.cqBase r)).toNat / 4096 * 4096 + 16 * t, e, ?_, ?_⟩
  · exact (Hw.cqSignal_grows h3 r false).subset (List.mem_cons_self (l := h.out))
  · simp [e, bytesLE]

theorem Hw.ring_setRing (h : Hw) (r : Nat) (x : RingSt) : (h.setRing r x).ring r = x := by simp [Hw.ring, Hw.setRing, aput, aget]

theorem Hw.finish_completed (h : Hw) (d : Desc) (status result : Nat) : Completed h (h.finish d status result) d status result where
  gone x started := by
    rw [Hw.finish, Hw.complete_started] at started
    simpa using (List.mem_filter.1 started).2
  entry enabled alive may := by
    have takes : ¬((h.dropDesc d.ix).ringState d.ring = 0 ∨ (h.dropDesc d.ix).ringState d.ring = 3) := not_or.2 ⟨enabled, alive⟩
    have may' : (h.dropDesc d.ix).hst.mayRequest = true := may
    rw [Hw.finish, Hw.complete, if_neg takes, if_neg (by simp [may'])]
    exact Hw.cqWrite_entry _ _ _ _ _
  held enabled alive waits := by
    have takes : ¬((h.dropDesc d.ix).ringState d.ring = 0 ∨ (h.dropDesc d.ix).ringState d.ring = 3) := not_or.2 ⟨enabled, alive⟩
    have waits' : (h.dropDesc d.ix).hst.mayRequest = false := waits
    rw [Hw.finish, Hw.complete, if_neg takes, if_pos (by simp [waits'])]
    dsimp only
    rw [Hw.ring_setRing]
    exact List.mem_append_right _ (List.mem_singleton_self _)

/-- What a command does before it ends leaves how its ring pair takes the completion. -/
theorem Hw.finish_completed_after {h g : Hw} {ps : List Part} {P : Reg → Prop} (before : Only ps P h g) (hst : Part.hst ∉ ps)
    (rings : ∀ r, ¬P (.ringStatus r)) (d : Desc) (status result : Nat) : Completed h (g.finish d status result) d status result := by
  have ended := Hw.finish_completed g d status result
  have same : g.ringState d.ring = h.ringState d.ring := before.fld (rings _) _
  have host : g.hst = h.hst := before.parts .hst hst
  exact ⟨ended.gone, same ▸ host ▸ ended.entry, same ▸ host ▸ ended.held⟩

theorem Completed.tookTurn {h k : Hw} {d : Desc} {status result : Nat} (ended : Completed h k d status result) (i : Nat) :
    Completed h (k.tookTurn i) d status result := ⟨ended.gone, ended.entry, ended.held⟩

theorem Hw.tookTurn_only {P : Reg → Prop} {ps : List Part} (h : Hw) (i : Nat) (part : Part.hst ∈ ps) : Only ps P h (h.tookTurn i) :=
  Only.hst h _ part

/-- The engine runs the ring's command, and the ring has had its turn. -/
theorem Hw.command_of_runs {s : State} {r : Ring} {op : Nat} {d : Desc} (runs : Runs s r op d) (early : Bool) (f : Desc → Hw) :
    s.hw.command r op early f = (f d).tookTurn r := by
  obtain ⟨next, opcode, turn, alive, ready⟩ := runs
  simp [Hw.command, next, opcode, turn, alive, ready]

theorem State.onHw_command {s : State} {r : Ring} {op : Nat} {d : Desc} (runs : Runs s r op d) (early : Bool) (f : Hw → Desc → Hw) :
    s.onHw (fun h => h.command r op early (f h)) = s.onHw fun h => (f h d).tookTurn r := by
  rw [State.onHw, Hw.command_of_runs runs, State.onHw]

theorem Hw.reached_of_all {h : Hw} (reach : h.someLost = false) (e : CmdEnd) : h.reached e = e := by
  rw [Hw.reached, if_neg (by simp [reach])]

theorem ringStatus_not_isNote (r : Nat) : ¬Reg.isNote (.ringStatus r) := by simp [Reg.isNote, Reg.isCnt, Reg.isIcSrc]

theorem Only.done {h h' : Hw} (only : Only (.coll :: sendParts) Reg.isNote h h') : Only (.coll :: doneParts) Reg.isDone h h' :=
  only.mono (by simp [doneParts, sendParts]) fun _ => Or.inl

theorem Hw.finish_done (h : Hw) (d : Desc) (status result : Nat) : Only (.coll :: doneParts) Reg.isDone h (h.finish d status result) :=
  (Hw.finish_only (P := Reg.isDone) (fun _ => .inr rfl) h d status result).mono (by simp [doneParts]) fun _ => id

/-- A command that acts on Bridles, with frames and records beside, and then completes. -/
theorem Hw.finish_after_bridles {h g : Hw} (acts : Only (.coll :: sendParts) Reg.isNote h g) (d : Desc) (status result : Nat) :
    Completed h (g.finish d status result) d status result ∧ Only (.coll :: doneParts) Reg.isDone h (g.finish d status result) :=
  ⟨Hw.finish_completed_after acts (by simp [sendParts]) ringStatus_not_isNote d status result, acts.done.trans (Hw.finish_done _ _ _ _)⟩

/-! ### BRIDLE_CREATE (R131 to R133) -/

/-- The checks of R131 let the Bridle through, and every hub path is up. -/
structure Hw.MayCreate (h : Hw) (dis : W64) (a : BridleAsk) : Prop where
  node : h.nodeValid = true
  room : h.coll.bridles.length < 16384
  group : ∀ b ∈ h.coll.bridles, b.group ≠ BitVec.ofNat 16 (a.f 0 0 16)
  gen : aget (BitVec.ofNat 16 (a.f 0 0 16)) h.coll.lastGen ≠ some (BitVec.ofNat 8 (a.f 0 16 8))
  fields : h.bridleFields a = true
  members : ∀ m ∈ a.list, h.inService m.port = true
  parent : a.parentEn = true → h.inService a.parentPort = true
  pool : ∃ low, h.poolPlace a.count = some low
  slots : ∀ c, c < 4 → (a.bridle 0 0 0 0).slots.get c ≤ h.freeSlots dis c
  reach : h.someLost = false

/-- The frames that tell of a Bridle change the frames alone. -/
theorem Hw.sendNotices_only (h : Hw) (b : Bridle) (l : List Nat) (state : Nat) :
    Only [.buf, .egr] noRegs h (l.foldl (fun h i => h.sendNotice b (.member i) state) h) :=
  Only.foldl _ _ (fun g i => Hw.sendColl_only _ g b (.member i) _ _ _ _ _ _) h

theorem Hw.someLost_congr {h h' : Hw} (same : h'.err = h.err) : h'.someLost = h.someLost := by rw [Hw.someLost, same, Hw.someLost]

/-- The Bridle asked for stands in the lowest free entry, somewhere in the member pool. -/
theorem Hw.cmdBridleCreate_spec {h : Hw} {dis : W64} {a : BridleAsk} (may : h.MayCreate dis a) :
    ∃ base g, h.cmdBridleCreate dis a = (.ok (h.freeBridle + base * 2 ^ 32), g) ∧
      g.coll.bridles = h.coll.bridles ++ [a.bridle h.freeBridle base h.mgt.stageCur (h.slot a.home)] ∧
      Only (.coll :: sendParts) Reg.isNote h g := by
  obtain ⟨node, room, group, gen, fields, members, parent, ⟨low, pool⟩, slots, reach⟩ := may
  have service : ((a.list.all fun m => h.inService m.port) && (!a.parentEn || h.inService a.parentPort)) = true := by
    rw [Bool.and_eq_true, List.all_eq_true, Bool.or_eq_true, Bool.not_eq_true']
    exact ⟨members, (Bool.eq_false_or_eq_true a.parentEn).symm.imp id parent⟩
  have fresh : ¬(h.coll.bridles.any fun b => b.group == BitVec.ofNat 16 (a.f 0 0 16)) = true := by
    simpa using group
  rw [Hw.cmdBridleCreate, if_neg (by simp [node]), if_neg (by omega), if_neg fresh, if_neg gen, if_neg (by simp [fields]),
    if_neg (by simp [service]), pool]
  dsimp -zeta only
  extract_lets v base b lost src g1 g2
  have reserved : ((List.range 4).all fun c => decide (b.slots.get c ≤ h.freeSlots dis c)) = true := by
    simp only [List.all_eq_true, List.mem_range, decide_eq_true_eq]
    exact slots
  rw [if_neg (by rw [reserved]; decide)]
  have added : Only (.coll :: sendParts) Reg.isNote h g1 := (Hw.draw_send h).send.trans (Only.coll h.draw.2 _ (by simp))
  have told : Only [.buf, .egr] noRegs g1 g2 := by
    show Only [.buf, .egr] noRegs g1
      (if b.parentEn then g1.sendNotice b .parent 2 else b.ixs.foldl (fun h i => h.sendNotice b (.member i) 0) g1)
    split
    · exact Hw.sendColl_only _ _ _ _ _ _ _ _ _ _
    · exact Hw.sendNotices_only _ _ _ _
  have err : g2.err = h.err := told.parts .err (by simp)
  refine ⟨base, g2, Prod.ext ?_ rfl, ?_, added.trans told.send_of_frames⟩
  · exact Hw.reached_of_all ((Hw.someLost_congr err).trans reach) _
  · rw [told.parts .coll (by simp)]
    rfl

/-- The ask of a descriptor counts its members in the descriptor itself. -/
theorem bridleAskOf_count (d l m : List Byte) : (bridleAskOf d l).count = (bridleAskOf d m).count := rfl

theorem exec_bridleCreate (r : Ring) (dma : Option (List Byte)) (s : State) :
    exec (.bridleCreate r dma) s = execBridleCreate r dma s := rfl

/-- With a member list that host memory gives, the command is the create of its ask. -/
theorem State.bridleCreate_runs {s : State} {r : Ring} {d : Desc} {l : List Byte} {a : BridleAsk} (runs : Runs s r 0x030 d)
    (may : s.hw.hst.mayRequest = true) (ask : a = bridleAskOf d.bytes (l.take (16 * a.count))) (nonempty : 1 ≤ a.count)
    (few : a.count ≤ 1024) (given : 16 * a.count ≤ l.length) : exec (.bridleCreate r (some l)) s =
      .next (s.onHw fun h => (Hw.endCmd d (h.cmdBridleCreate s.nv.disabled a)).tookTurn r) := by
  have count : (bridleAskOf d.bytes []).count = a.count := by rw [ask, bridleAskOf_count d.bytes [] _, ← ask]
  have bytes : dmaOf (some l) (16 * a.count) = some (l.take (16 * a.count)) := if_pos given
  rw [exec_bridleCreate, execBridleCreate, State.onHw_command runs, State.onHw, State.onHw, Hw.withHost, if_pos may]
  dsimp only
  rw [count, if_neg (by omega), bytes]
  dsimp only
  rw [← ask]

/-! ### BRIDLE_CLOSE (R153) -/

/-- A close that finds its Bridle runs on without completing. -/
theorem Hw.closeCmd_of_some {s : State} {r : Ring} {d : Desc} (runs : Runs s r 0x031 d) {ab : Bool} (kind : (bits d.flags 0 1 == 1) = ab)
    {f : Desc → Hw → Option Hw} {g : Hw} (found : f d (s.hw.begin_ d) = some g) : s.hw.closeCmd r ab f = g.tookTurn r := by
  simp only [Hw.closeCmd, runs.next]
  rw [if_neg (by simp [kind]), Hw.command_of_runs runs, found]

theorem Hw.begin_only {P : Reg → Prop} {ps : List Part} (h : Hw) (d : Desc) (part : Part.hst ∈ ps) : Only ps P h (h.begin_ d) :=
  Only.hst h _ part

theorem Hw.bridleAt_of_closeTarget {h : Hw} {l : List Byte} {b : Bridle} (target : h.closeTarget l = some b) : h.bridleAt b.ix = some b := by
  obtain ⟨there, -⟩ := Option.filter_eq_some_iff.1 target
  exact Hw.bridleAt_self there

/-- The Bridle after a close with the drain option that waits for its completion. -/
def Bridle.drainedBy (b : Bridle) (who : CmdFrom) : Bridle :=
  { b with state := if b.state = .aborted then .aborted else .draining, closers := b.closers ++ [who] }

/-- A close with the abort option leaves the Bridle ABORTED, for its own reason where it was active. -/
theorem Hw.closeAbort_entry {h : Hw} {b : Bridle} (there : h.bridleAt b.ix = some b) (closers : List CmdFrom) :
    ∃ e, ((h.setBridle { b with closers := closers }).bridleAbortLow { b with closers := closers } 11 0x7ff).bridleAt b.ix = some e ∧
      e.state = .aborted ∧ e.closers = closers ∧ (b.state ≠ .aborted → e.abortReason = 11 ∧ e.abortSeq = b.seqLow) := by
  obtain ⟨c, hc⟩ : ∃ c, c = { b with closers := closers } := ⟨_, rfl⟩
  have index : c.ix = b.ix := hc ▸ rfl
  have entry : (h.setBridle c).bridleAt b.ix = some c := Hw.bridleAt_setBridle there index
  rw [← hc, Hw.bridleAbortLow]
  by_cases aborted : b.state = .aborted
  · have ended : c.state = .aborted := hc ▸ aborted
    rw [Hw.bridleAbort, if_pos ended]
    exact ⟨c, entry, ended, hc ▸ rfl, fun active => absurd aborted active⟩
  · have active : c.state ≠ .aborted := hc ▸ aborted
    have ended := Hw.bridleAt_bridleAbort (index.symm ▸ entry) active 11 c.seqLow 0x7ff none
    rw [index] at ended
    exact ⟨_, ended, rfl, hc ▸ rfl, fun _ => ⟨rfl, hc ▸ rfl⟩⟩

/-- The entry is freed and its generation recorded before the one close that waits completes with OK. -/
theorem Hw.closeComplete_spec {h : Hw} {nv : Nv} {ix : Nat} {b : Bridle} {d : Desc} (there : h.bridleAt ix = some b)
    (closers : b.closers = [.host d.ix]) (started : (h.hst.started.find? fun x => x.ix == d.ix) = some d) (reach : h.someLost = false)
    (done : b.state = .aborted ∨ b.state = .draining ∧ ∀ y ∈ b.pos, y.state = .free) :
    ∃ g, h.closeComplete nv ix = g.finish d 0 (b.abortSeq.toNat + b.abortReason * 2 ^ 32) ∧
      g.coll.bridles = (h.coll.bridles.filter fun x => x.ix != ix) ∧ g.coll.lastGen = aput b.group b.gen h.coll.lastGen ∧
      Only (.coll :: sendParts) Reg.isNote h g := by
  have ends : (b.state == .aborted || (b.state == .draining && b.pos.all fun p => p.state == .free)) = true := by
    simpa using done
  rw [Hw.closeComplete, there]
  dsimp -zeta only
  extract_lets ended g1 src g2
  rw [if_neg (by simp [closers, ended, ends])]
  have told : Only [.buf, .egr] noRegs h g1 := Hw.sendNotices_only _ _ _ _
  have freed : Only (.coll :: sendParts) Reg.isNote h g2 :=
    told.send_of_frames.trans (Only.coll g1 _ (by simp))
  have err : g2.err = h.err := told.parts .err (by simp)
  have host : g2.hst = h.hst := told.parts .hst (by simp)
  have coll : g1.coll = h.coll := told.parts .coll (by simp)
  refine ⟨g2, ?_, ?_, ?_, freed⟩
  · rw [closers, List.foldl_cons, List.foldl_nil, Hw.reached_of_all ((Hw.someLost_congr err).trans reach), Hw.cmdDone, host, started]
    rfl
  · show (g1.coll.bridles.filter fun x => x.ix != ix) = _
    rw [coll]
  · show aput b.group b.gen g1.coll.lastGen = _
    rw [coll]

/-! ### Recipes (R164 to R167) -/

theorem foldl_establishes {α β : Type} {I : α → Prop} {step : α → β → α} {x : β} {l : List β} (here : x ∈ l) (sets : ∀ a, I (step a x))
    (keeps : ∀ a y, I a → I (step a y)) (a : α) : I (l.foldl step a) := by
  obtain ⟨before, after, rfl⟩ := List.append_of_mem here
  rw [List.foldl_append, List.foldl_cons]
  exact List.foldlRecOn after step (sets _) fun a kept y _ => keeps a y kept

/-- The four words of a slot in the replica of C-die `c`. -/
def Hw.writeSlot (h : Hw) (slot : Nat) (v : Nat → W64) (c : Nat) : Hw :=
  (List.range 4).foldl (fun h i => h.setReg (.recipeW c (4 * slot + i)) (v i)) h

theorem Hw.writeSlot_self (h : Hw) (slot : Nat) (v : Nat → W64) (c : Nat) {i : Nat} (small : i < 4) :
    (h.writeSlot slot v c).reg (.recipeW c (4 * slot + i)) = v i := by
  refine foldl_establishes (I := fun g : Hw => g.reg (.recipeW c (4 * slot + i)) = v i) (List.mem_range.2 small)
    (fun g => Hw.reg_setReg_self _ _ _) (fun g j kept => ?_) h
  rw [Hw.reg_setReg]
  split
  · next same => simp_all
  · exact kept

/-- A word that stands in one replica stays while the same words are written in any other. -/
theorem Hw.writeSlot_keeps {h : Hw} {slot c i : Nat} {v : Nat → W64} (stands : h.reg (.recipeW c (4 * slot + i)) = v i) (k : Nat) :
    (h.writeSlot slot v k).reg (.recipeW c (4 * slot + i)) = v i := by
  refine List.foldlRecOn (motive := fun g : Hw => g.reg (.recipeW c (4 * slot + i)) = v i) _ _ stands fun g kept j _ => ?_
  rw [Hw.reg_setReg]
  split
  · next same => simp_all
  · exact kept

/-- The registers of a recipe's four words in the four replicas. -/
def Reg.isSlot (slot : Nat) (r : Reg) : Prop := ∃ c i, c < 4 ∧ i < 4 ∧ r = .recipeW c (4 * slot + i)

theorem Hw.writeSlot_only {ps : List Part} (h : Hw) (slot : Nat) (v : Nat → W64) {c : Nat} (small : c < 4) :
    Only ps (Reg.isSlot slot) h (h.writeSlot slot v c) :=
  List.foldlRecOn (motive := fun g => Only ps (Reg.isSlot slot) h g) _ _ (.refl _ _ _) fun g kept i word =>
    kept.trans (Only.setReg g _ _ ⟨c, i, small, List.mem_range.1 word, rfl⟩)

/-- A step that writes a slot's words in one replica, and no register beside. -/
def WritesSlot (ps : List Part) (slot : Nat) (v : Nat → W64) (step : Hw → Nat → Hw) : Prop :=
  ∀ h c, Only ps noRegs (h.writeSlot slot v c) (step h c)

/-- Written in each replica, the words stand in all four. -/
theorem WritesSlot.all {ps : List Part} {slot : Nat} {v : Nat → W64} {step : Hw → Nat → Hw} (writes : WritesSlot ps slot v step) (h : Hw) :
    (∀ c i, c < 4 → i < 4 → ((List.range 4).foldl step h).reg (.recipeW c (4 * slot + i)) = v i) ∧
      Only ps (Reg.isSlot slot) h ((List.range 4).foldl step h) := by
  constructor
  · intro c i replica word
    refine foldl_establishes (I := fun g : Hw => g.reg (.recipeW c (4 * slot + i)) = v i) (List.mem_range.2 replica) (fun g => ?_)
      (fun g k kept => ?_) h
    · rw [(writes g c).regs _ id]
      exact Hw.writeSlot_self g slot v c word
    · rw [(writes g k).regs _ id]
      exact Hw.writeSlot_keeps kept k
  · refine List.foldlRecOn (motive := fun g => Only ps (Reg.isSlot slot) h g) _ _ (.refl _ _ _) fun g kept c replica => kept.trans ?_
    exact (Hw.writeSlot_only g slot v (List.mem_range.1 replica)).trans ((writes g c).mono (fun _ => id) fun _ none => none.elim)

/-- The words of a slot stand in one replica, and are good there (R70). -/
def Hw.loadSlot (h : Hw) (slot : Nat) (v : Nat → W64) (c : Nat) : Hw :=
  { h.writeSlot slot v c with
    fwd := { (h.writeSlot slot v c).fwd with
      bad := (h.writeSlot slot v c).fwd.bad.filter fun x => !(x.1 == ⟨.recipe, slot⟩ && x.2 == c) } }

theorem Hw.loadSlot_writes (slot : Nat) (v : Nat → W64) : WritesSlot [.fwd] slot v fun h c => h.loadSlot slot v c :=
  fun h c => Only.fwd (h.writeSlot slot v c) _ (by simp)

theorem Hw.writeSlot_writes (slot : Nat) (v : Nat → W64) : WritesSlot [] slot v fun h c => h.writeSlot slot v c :=
  fun _ _ => .refl _ _ _

section
variable {h : Hw} (reach : ∀ c, c < 4 → h.err.hubLost.get c = false)
include reach

theorem Hw.setRecipe_of_reach (slot : Nat) (w : List W64) :
    h.setRecipe slot w = (List.range 4).foldl (fun h c => h.loadSlot slot (fun i => withParity (w.getD i 0)) c) h := by
  simp [Hw.setRecipe, Hw.loadSlot, Hw.writeSlot, List.range, List.range.loop, reach]

theorem Hw.someLost_of_reach : h.someLost = false := by
  have q0 := reach 0 (by decide)
  have q1 := reach 1 (by decide)
  have q2 := reach 2 (by decide)
  have q3 := reach 3 (by decide)
  simp_all [Hw.someLost, Four.toList, Four.get]

/-- A recipe that is allowed goes into a slot that no Bridle names, VALID taken as 1. -/
theorem Hw.cmdRecipeLoad_spec {slot : Nat} {w : List W64} {v : Nat → W64} (v0 : v 0 = (w.getD 0 0 &&& 0x1ff) ||| 1)
    (v1 : v 1 = w.getD 1 0 &&& 0xffffffff) (v2 : v 2 = w.getD 2 0 &&& 0x07ff07ff) (v3 : v 3 = w.getD 3 0 &&& 0xffffffff)
    (allowed : (Rcp.ofWords (v 0).toNat (v 1).toNat (v 2).toNat (v 3).toNat).allowed = true)
    (unused : ∀ b ∈ h.coll.bridles, b.recipe ≠ slot) :
    ∃ g, h.cmdRecipeLoad slot w = (.ok 0, g) ∧
      (∀ c i, c < 4 → i < 4 → g.reg (.recipeW c (4 * slot + i)) = withParity (v i)) ∧ Only [.fwd] (Reg.isSlot slot) h g := by
  obtain ⟨words, only⟩ := (Hw.loadSlot_writes slot fun i => withParity ([v 0, v 1, v 2, v 3].getD i 0)).all h
  rw [← Hw.setRecipe_of_reach reach] at words only
  have lost : (h.setRecipe slot [v 0, v 1, v 2, v 3]).someLost = false :=
    (Hw.someLost_congr (only.parts .err (by simp))).trans (Hw.someLost_of_reach reach)
  have free : h.recipeBusy slot = false := by simpa [Hw.recipeBusy] using unused
  refine ⟨_, ?_, fun c i replica word => (words c i replica word).trans ?_, only⟩
  · simp only [Hw.cmdRecipeLoad, ← v0, ← v1, ← v2, ← v3, allowed, free, Hw.reached_of_all lost]
    rfl
  · interval_cases i <;> rfl

theorem Hw.cmdRecipeClear_spec {slot : Nat} (unused : ∀ b ∈ h.coll.bridles, b.recipe ≠ slot) :
    ∃ g, h.cmdRecipeClear slot = (.ok 0, g) ∧ (∀ c i, c < 4 → i < 4 → g.reg (.recipeW c (4 * slot + i)) = 0) ∧
      Only [] (Reg.isSlot slot) h g := by
  obtain ⟨words, only⟩ := (Hw.writeSlot_writes slot fun _ => 0).all h
  have lost : ((List.range 4).foldl (fun h c => h.writeSlot slot (fun _ => 0) c) h).someLost = false :=
    (Hw.someLost_congr (only.parts .err (by simp))).trans (Hw.someLost_of_reach reach)
  have free : h.recipeBusy slot = false := by simpa [Hw.recipeBusy] using unused
  have replicas : ((List.range 4).filter fun c => !h.err.hubLost.get c) = List.range 4 := by
    refine List.filter_eq_self.2 fun c replica => ?_
    rw [reach c (List.mem_range.1 replica), Bool.not_false]
  refine ⟨_, ?_, words, only⟩
  rw [Hw.cmdRecipeClear, free, replicas, if_neg (by decide)]
  exact Prod.ext (Hw.reached_of_all lost _) rfl

end

/-- A recipe command completes after the words have been written. -/
theorem Hw.finish_after_recipe {h g : Hw} {ps : List Part} {slot : Nat} (writes : Only ps (Reg.isSlot slot) h g) (hst : Part.hst ∉ ps)
    (d : Desc) (i : Nat) : Completed h ((Hw.endCmd d (.ok 0, g)).tookTurn i) d 0 0 ∧
      (∀ c k, ((Hw.endCmd d (.ok 0, g)).tookTurn i).reg (.recipeW c k) = g.reg (.recipeW c k)) ∧
      Only (ps ++ [.hst, .out]) (fun x => x.isRing = true ∨ x.isSlot slot) h ((Hw.endCmd d (.ok 0, g)).tookTurn i) := by
  have ended := Hw.finish_only (P := fun x => x.isRing = true) (fun _ => rfl) g d 0 0
  refine ⟨(Hw.finish_completed_after writes hst (fun r => ?_) d 0 0).tookTurn i, fun c k => ended.regs _ (by simp [Reg.isRing]), ?_⟩
  · simp [Reg.isSlot]
  · refine Only.trans ?_ (Hw.tookTurn_only _ i (by simp))
    exact (writes.mono (fun _ => List.mem_append_left _) fun _ => .inr).trans (ended.mono (fun _ => List.mem_append_right _) fun _ => .inl)

/-! ### The statement -/

/-- Settles O48: the commands of the engine run in their turn, and a lemma above says what each does before it completes. -/
theorem bridlesAreCreatedAndClosed : Obligations.BridlesAreCreatedAndClosed := by
  unfold Obligations.BridlesAreCreatedAndClosed
  intro r d s
  refine ⟨?create, ?close, ?complete, ?load, ?clear⟩
  case create =>
    intro l a low runs may ask nonempty few given node room group gen fields members parent pool slots reach
    obtain ⟨base, g, run, added, only⟩ :=
      Hw.cmdBridleCreate_spec (h := s.hw) (a := a) ⟨node, room, group, gen, fields, members, parent, ⟨low, pool⟩, slots, reach⟩
    obtain ⟨completed, frame⟩ := Hw.finish_after_bridles only d 0 (s.hw.freeBridle + base * 2 ^ 32)
    have finished : Only [.hst, .out] (fun x => x.isRing = true) g (g.finish d 0 (s.hw.freeBridle + base * 2 ^ 32)) :=
      Hw.finish_only (fun _ => rfl) _ _ _ _
    have exit : (Hw.endCmd d (s.hw.cmdBridleCreate s.nv.disabled a)).tookTurn r =
        (g.finish d 0 (s.hw.freeBridle + base * 2 ^ 32)).tookTurn r := by rw [run]; rfl
    refine ⟨_, a.bridle s.hw.freeBridle base s.hw.mgt.stageCur (s.hw.slot a.home),
      State.bridleCreate_runs runs may ask nonempty few given, ?_, rfl, rfl, rfl, rfl, rfl, rfl, ?_, ?_, OnlyHw.of_onHw ?_⟩
    · rw [State.onHw_hw, exit, Hw.tookTurn_coll, finished.parts .coll (by simp), added]
    · intro y there
      obtain ⟨p, -, rfl⟩ := List.mem_map.1 there
      rfl
    · rw [State.onHw_hw, exit]
      exact completed.tookTurn r
    · rw [exit]
      exact frame.trans (Hw.tookTurn_only _ _ (by simp [doneParts]))
  case close =>
    intro b runs target
    have there := Hw.bridleAt_of_closeTarget target
    have target' : (s.hw.begin_ d).closeTarget d.bytes = some b := target
    constructor
    · intro drain
      have run := Hw.closeCmd_of_some runs (ab := false) (f := fun d h => h.closeDrain d.bytes (.host d.ix)) (by rw [drain]; decide)
        (g := (s.hw.begin_ d).setBridle (b.drainedBy (.host d.ix))) (by rw [Hw.closeDrain, target', Option.map_some, Bridle.drainedBy])
      refine ⟨_, b.drainedBy (.host d.ix), rfl, ?_, rfl, rfl, rfl, OnlyHw.of_onHw ?_⟩
      · rw [State.onHw_hw, run]
        exact Hw.bridleAt_setBridle (h := s.hw.begin_ d) there rfl
      · rw [run]
        refine ((Hw.begin_only _ d (by simp)).trans ?_).trans (Hw.tookTurn_only _ r (by simp))
        exact (Hw.setBridle_coll_only _ _).mono (by simp) fun _ => id
    · intro abort
      obtain ⟨e, entry, state, closers, reason⟩ := Hw.closeAbort_entry (h := s.hw.begin_ d) there (b.closers ++ [.host d.ix])
      have run := Hw.closeCmd_of_some runs (ab := true) (f := fun d h => h.closeAbort d.bytes (.host d.ix)) (by rw [abort]; decide)
        (by rw [Hw.closeAbort, target', Option.map_some])
      refine ⟨_, e, rfl, ?_, state, closers, reason, OnlyHw.of_onHw ?_⟩
      · rw [State.onHw_hw, run]
        exact entry
      · rw [run]
        refine ((Hw.begin_only _ d (by simp [doneParts])).trans ?_).trans (Hw.tookTurn_only _ r (by simp [doneParts]))
        exact ((Hw.setBridle_only _ _).trans (Hw.bridleAbortLow_only _ _ _ _)).done
  case complete =>
    intro ix b there closers started reach done
    obtain ⟨g, run, bridles, lastGen, only⟩ := Hw.closeComplete_spec (nv := s.nv) there closers started reach done
    obtain ⟨completed, frame⟩ := Hw.finish_after_bridles only d 0 (b.abortSeq.toNat + b.abortReason * 2 ^ 32)
    have ended : Only [.hst, .out] Reg.isDone g (g.finish d 0 (b.abortSeq.toNat + b.abortReason * 2 ^ 32)) :=
      Hw.finish_only (fun _ => .inr rfl) _ _ _ _
    have kept := ended.parts .coll (by simp)
    rw [← run] at completed frame kept
    have number := Hw.ix_of_bridleAt there
    refine ⟨_, rfl, fun c listed => ?_, fun c listed apart => ?_, ?_, completed, OnlyHw.of_onHw frame⟩
    · rw [State.onHw_hw, kept, bridles] at listed
      rw [number]
      simpa using (List.mem_filter.1 listed).2
    · rw [State.onHw_hw, kept, bridles]
      exact List.mem_filter.2 ⟨listed, by simpa [number] using apart⟩
    · rw [State.onHw_hw, kept, lastGen]
      simp [aput, aget]
  case load =>
    intro w runs w0 w1 w2 w3 allowed unused reach
    obtain ⟨g, run, words, only⟩ := Hw.cmdRecipeLoad_spec reach (slot := getLE d.bytes 8 1)
      (w := (List.range 4).map fun i => BitVec.ofNat 64 (getLE d.bytes (16 + 8 * i) 8)) w0 w1 w2 w3 allowed unused
    obtain ⟨completed, recipes, frame⟩ := Hw.finish_after_recipe only (by simp) d r
    rw [← run] at completed recipes frame
    exact ⟨_, congrArg Host.Outcome.next (State.onHw_command runs false _),
      fun c i replica word => (recipes c _).trans (words c i replica word), completed, OnlyHw.of_onHw frame⟩
  case clear =>
    intro runs unused reach
    obtain ⟨g, run, words, only⟩ := Hw.cmdRecipeClear_spec reach (slot := getLE d.bytes 8 1) unused
    obtain ⟨completed, recipes, frame⟩ := Hw.finish_after_recipe only (by simp) d r
    rw [← run] at completed recipes frame
    exact ⟨_, congrArg Host.Outcome.next (State.onHw_command runs false _),
      fun c i replica word => (recipes c _).trans (words c i replica word), completed, OnlyHw.of_onHw frame⟩

end Sys2Proof.Machine
end

section
/-! PROOFS. The order in which contributions reach a virtual lane (R168 to R171, R182): binary32 values come through a conversion as they
are, MAX and MIN take the value of the larger rank, and every operator of `combine1` commutes; with them O49. -/

namespace Sys2Proof.Machine

/-! ### Values of binary32 (R159, R175) -/

/-- The values of binary32: a magnitude of at most 24 bits, normalized unless its exponent is the least. -/
def Num.IsF32 : Num → Prop
  | .fin _ m e => m < 2 ^ 24 ∧ -149 ≤ e ∧ e ≤ 104 ∧ (e = -149 ∨ 2 ^ 23 ≤ m)
  | _ => True

theorem bits_lt (v lo w : Nat) : bits v lo w < 2 ^ w := Nat.mod_lt _ (Nat.two_pow_pos w)

theorem ofF32_eq (v : BitVec 32) : ofF32 v =
    if bits v.toNat 23 8 = 255 then (if bits v.toNat 0 23 = 0 then .inf (v.toNat.testBit 31) else .nan)
    else if bits v.toNat 23 8 = 0 then .fin (v.toNat.testBit 31) (bits v.toNat 0 23) (-149)
    else .fin (v.toNat.testBit 31) (2 ^ 23 + bits v.toNat 0 23) ((bits v.toNat 23 8 : Int) - 127 - 23) := by
  simp only [ofF32, Flt.decode, fp32, true_and, reduceCtorEq, false_and, if_false]
  rfl

theorem ofF32_isF32 (v : BitVec 32) : (ofF32 v).IsF32 := by
  have mant := bits_lt v.toNat 0 23
  have expo := bits_lt v.toNat 23 8
  rw [ofF32_eq]
  split
  · split <;> trivial
  · split
    · exact ⟨by omega, le_rfl, by decide, .inl rfl⟩
    · simp only [Num.IsF32]
      omega

theorem floorLog_one {m : Nat} (nonzero : m ≠ 0) (e : Int) : floorLog m 1 e = Nat.log2 m + e := by
  have least : ¬ m < 2 ^ Nat.log2 m := Nat.not_lt.2 (Nat.log2_self_le nonzero)
  have one : Nat.log2 1 = 0 := by decide
  simp [floorLog, one, least]

theorem roundTo_one_self (m : Nat) (e : Int) : roundTo .even m 1 e e = m := by
  simp [roundTo, Rnd.up, Nat.mod_one]

/-- The exponent field and the fraction of the binary32 magnitude m × 2^e. -/
def f32Code (m : Nat) (e : Int) : Nat := (if m < 2 ^ 23 then 0 else (e + 150).toNat) * 2 ^ 23 + m % 2 ^ 23

theorem fp32_round_of_isF32 {neg : Bool} {m : Nat} {e : Int} (h : (Num.fin neg m e).IsF32) :
    fp32.round .even m 1 e = some (f32Code m e) := by
  obtain ⟨narrow, low, high, normal⟩ := h
  by_cases zero : m = 0
  · simp [Flt.round, f32Code, zero]
  have quantum : max (Nat.log2 m + e) (-126) - 23 = e := by
    have top : Nat.log2 m < 24 := (Nat.log2_lt zero).2 narrow
    rcases normal with least | full
    · omega
    · have bottom : 23 ≤ Nat.log2 m := (Nat.le_log2 zero).2 full
      omega
  have same : max (floorLog m 1 e) (1 - (fp32.bias : Int)) - fp32.mbits = e := by
    rw [floorLog_one zero]
    exact quantum
  have inside : m ≠ 2 ^ (fp32.mbits + 1) := narrow.ne
  have range : ¬ 2 ^ fp32.ebits - 1 ≤ (if m < 2 ^ 23 then 0 else (e + 150).toNat) := by
    simp only [fp32]
    split <;> omega
  have bias : e + fp32.mbits + fp32.bias = e + 150 := by simp only [fp32]; omega
  have kind : fp32.kind = .ieee := rfl
  have mbits : fp32.mbits = 23 := rfl
  simp only [Flt.round, if_neg zero, same, roundTo_one_self, if_neg inside, kind, bias, f32Code]
  rw [if_neg]
  · rfl
  · simpa [mbits] using range

theorem f32_fields (neg : Bool) {ex mn v : Nat} (finite : ex < 255) (narrow : mn < 2 ^ 23)
    (word : v = (if neg then 2 ^ 31 else 0) + (ex * 2 ^ 23 + mn)) :
    v < 2 ^ 32 ∧ v.testBit 31 = neg ∧ bits v 23 8 = ex ∧ bits v 0 23 = mn := by
  rw [Nat.testBit_eq_decide_div_mod_eq, bits, bits]
  cases neg <;> simp only [if_true, Bool.false_eq_true, if_false, decide_eq_true_eq, decide_eq_false_iff_not] at word ⊢ <;> omega

theorem ofF32_code (neg : Bool) {ex mn : Nat} (finite : ex < 255) (narrow : mn < 2 ^ 23) :
    ofF32 (BitVec.ofNat 32 (fp32.sign neg (ex * 2 ^ 23 + mn))) =
      if ex = 0 then .fin neg mn (-149) else .fin neg (2 ^ 23 + mn) ((ex : Int) - 150) := by
  have word : fp32.sign neg (ex * 2 ^ 23 + mn) = (if neg then 2 ^ 31 else 0) + (ex * 2 ^ 23 + mn) := rfl
  obtain ⟨inside, sign, expo, mant⟩ := f32_fields neg finite narrow word
  rw [ofF32_eq, BitVec.toNat_ofNat, Nat.mod_eq_of_lt inside, sign, expo, mant, if_neg finite.ne]
  split
  · rfl
  · congr 1
    omega

theorem ofF32_toF32 {x : Num} (h : x.IsF32) : ofF32 (toF32 false x) = x := by
  cases x with
  | nan => decide
  | inf neg => cases neg <;> decide
  | fin neg m e =>
    simp only [toF32, Flt.encode, fp32_round_of_isF32 h, f32Code]
    obtain ⟨narrow, low, high, normal⟩ := h
    rw [ofF32_code neg (by split <;> omega) (Nat.mod_lt _ (by decide))]
    by_cases small : m < 2 ^ 23
    · rw [if_pos small, if_pos rfl, Nat.mod_eq_of_lt small]
      congr 1
      omega
    · rw [if_neg small, if_neg (by omega)]
      congr 1 <;> omega

/-! ### The order of MAX and MIN (R168) -/

/-- The place of an infinity: beyond every finite value of binary32, counted in units of 2^-149. -/
def infLevel : Int := 2 ^ 24 * 2 ^ 253

theorem one_lt_infLevel : 1 < infLevel := by decide

/-- The place of a value among the values of binary32, in units of 2^-149. -/
def Num.level : Num → Int
  | .nan => 0
  | .inf neg => if neg then -infLevel else infLevel
  | .fin neg m e => signedAt neg m e (-149)

/-- `pick` takes the value of the larger rank: by the order asked for, a zero by its sign, and NaN before all. -/
def Num.rank (least : Bool) (x : Num) : Int :=
  if x = .nan then 3 * infLevel else 2 * (if least then -x.level else x.level) + if x.neg == least then 1 else 0

theorem signedAt_shift (neg : Bool) (m : Nat) {e low base : Int} (floor : low ≤ base) (above : base ≤ e) :
    signedAt neg m e low = signedAt neg m e base * 2 ^ (base - low).toNat := by
  have split : (e - low).toNat = (e - base).toNat + (base - low).toNat := by omega
  cases neg <;> simp [signedAt, split, pow_add, mul_assoc]

theorem Num.level_fin_bounds {neg : Bool} {m : Nat} {e : Int} (h : (Num.fin neg m e).IsF32) :
    -infLevel < (Num.fin neg m e).level ∧ (Num.fin neg m e).level < infLevel := by
  obtain ⟨narrow, low, high, -⟩ := h
  have bound : (m * 2 ^ (e - -149).toNat : Nat) < infLevel := by
    have cast : ((2 ^ 24 * 2 ^ 253 : Nat) : Int) = infLevel := rfl
    rw [← cast, Int.ofNat_lt]
    calc m * 2 ^ (e - -149).toNat < 2 ^ 24 * 2 ^ (e - -149).toNat := Nat.mul_lt_mul_of_pos_right narrow (Nat.two_pow_pos _)
      _ ≤ 2 ^ 24 * 2 ^ 253 := Nat.mul_le_mul_left _ (Nat.pow_le_pow_right (by decide) (by omega))
  cases neg <;> simp only [Num.level, signedAt] <;> split <;> omega

theorem Num.lt_iff_level {a b : Num} (ha : a.IsF32) (hb : b.IsF32) (na : a ≠ .nan) (nb : b ≠ .nan) :
    a.lt b = true ↔ a.level < b.level := by
  have top := one_lt_infLevel
  cases a with
  | nan => exact absurd rfl na
  | inf s =>
    cases b with
    | nan => exact absurd rfl nb
    | inf t => cases s <;> cases t <;> simp [Num.lt, Num.level] <;> omega
    | fin t n f =>
      have inside := Num.level_fin_bounds hb
      cases s <;> simp [Num.lt, Num.level] at inside ⊢ <;> omega
  | fin s m e =>
    cases b with
    | nan => exact absurd rfl nb
    | inf t =>
      have inside := Num.level_fin_bounds ha
      cases t <;> simp [Num.lt, Num.level] at inside ⊢ <;> omega
    | fin t n f =>
      have floor : -149 ≤ min e f := le_min ha.2.1 hb.2.1
      simp only [Num.lt, Num.level, decide_eq_true_eq]
      rw [signedAt_shift s m floor (min_le_left e f), signedAt_shift t n floor (min_le_right e f)]
      exact (mul_lt_mul_iff_left₀ (by positivity)).symm

/-- A magnitude of binary32 has one normalized form. -/
theorem eq_of_scaled_eq {m n : Nat} {e f : Int} (narrow : m < 2 ^ 24) (low : -149 ≤ e) (order : e ≤ f) (full : f = -149 ∨ 2 ^ 23 ≤ n)
    (same : m * 2 ^ (e - -149).toNat = n * 2 ^ (f - -149).toNat) : m = n ∧ e = f := by
  have split : (f - -149).toNat = (f - e).toNat + (e - -149).toNat := by omega
  rw [split, pow_add, ← mul_assoc] at same
  have value : m = n * 2 ^ (f - e).toNat := Nat.eq_of_mul_eq_mul_right (Nat.two_pow_pos _) same
  rcases order.eq_or_lt with rfl | less
  · simpa using value
  · have twice : 2 ^ 1 ≤ 2 ^ (f - e).toNat := Nat.pow_le_pow_right (by decide) (by omega)
    have wide : n * 2 ^ 1 ≤ m := value ▸ Nat.mul_le_mul_left n twice
    omega

theorem Num.fin_inj_of_level {s t : Bool} {m n : Nat} {e f : Int} (ha : (Num.fin s m e).IsF32) (hb : (Num.fin t n f).IsF32) (sign : s = t)
    (same : (Num.fin s m e).level = (Num.fin t n f).level) : Num.fin s m e = Num.fin t n f := by
  subst sign
  obtain ⟨narrowA, lowA, -, fullA⟩ := ha
  obtain ⟨narrowB, lowB, -, fullB⟩ := hb
  have scaled : m * 2 ^ (e - -149).toNat = n * 2 ^ (f - -149).toNat := by
    cases s with
    | false => exact Int.ofNat_inj.1 same
    | true => exact Int.ofNat_inj.1 (neg_inj.1 same)
  rcases le_total e f with order | order
  · obtain ⟨rfl, rfl⟩ := eq_of_scaled_eq narrowA lowA order fullB scaled
    rfl
  · obtain ⟨rfl, rfl⟩ := eq_of_scaled_eq narrowB lowB order fullA scaled.symm
    rfl

theorem Num.eq_of_level {a b : Num} (ha : a.IsF32) (hb : b.IsF32) (na : a ≠ .nan) (nb : b ≠ .nan) (sign : a.neg = b.neg)
    (same : a.level = b.level) : a = b := by
  have top := one_lt_infLevel
  cases a with
  | nan => exact absurd rfl na
  | inf s =>
    cases b with
    | nan => exact absurd rfl nb
    | inf t => exact congrArg Num.inf sign
    | fin t n f =>
      have inside := Num.level_fin_bounds hb
      rw [← same] at inside
      cases s <;> simp [Num.level] at inside
  | fin s m e =>
    cases b with
    | nan => exact absurd rfl nb
    | inf t =>
      have inside := Num.level_fin_bounds ha
      rw [same] at inside
      cases t <;> simp [Num.level] at inside
    | fin t n f => exact Num.fin_inj_of_level ha hb sign same

theorem Num.level_bounds {x : Num} (h : x.IsF32) : -infLevel ≤ x.level ∧ x.level ≤ infLevel := by
  have top := one_lt_infLevel
  cases x with
  | nan => simp only [Num.level]; omega
  | inf s => simp only [Num.level]; split <;> omega
  | fin s m e =>
    obtain ⟨low, high⟩ := Num.level_fin_bounds h
    exact ⟨low.le, high.le⟩

theorem Num.rank_nan (least : Bool) : Num.rank least .nan = 3 * infLevel := if_pos rfl

theorem Num.rank_of_ne_nan (least : Bool) {x : Num} (number : x ≠ .nan) :
    x.rank least = 2 * (if least then -x.level else x.level) + if x.neg == least then 1 else 0 := if_neg number

theorem Num.rank_lt_of_ne_nan (least : Bool) {x : Num} (h : x.IsF32) (number : x ≠ .nan) : x.rank least < 3 * infLevel := by
  have inside := Num.level_bounds h
  have top := one_lt_infLevel
  rw [Num.rank_of_ne_nan least number]
  split <;> split <;> omega

theorem Num.rank_le (least : Bool) {x : Num} (h : x.IsF32) : x.rank least ≤ Num.rank least .nan := by
  by_cases na : x = .nan
  · rw [na]
  · exact (Num.rank_nan least).symm ▸ (Num.rank_lt_of_ne_nan least h na).le

theorem Num.rank_inj (least : Bool) {a b : Num} (ha : a.IsF32) (hb : b.IsF32) (same : a.rank least = b.rank least) : a = b := by
  by_cases na : a = .nan <;> by_cases nb : b = .nan
  · rw [na, nb]
  · exact absurd (same ▸ na ▸ Num.rank_nan least) (Num.rank_lt_of_ne_nan least hb nb).ne
  · exact absurd (same ▸ nb ▸ Num.rank_nan least) (Num.rank_lt_of_ne_nan least ha na).ne
  · rw [Num.rank_of_ne_nan least na, Num.rank_of_ne_nan least nb] at same
    -- the rank's parity tells the sign, its half the level
    refine Num.eq_of_level ha hb na nb ?_ ?_
    · cases hs : a.neg <;> cases ht : b.neg <;> cases least <;> simp [hs, ht] at same ⊢ <;> omega
    · split_ifs at same <;> omega

theorem Num.rank_pick (least : Bool) {a b : Num} (ha : a.IsF32) (hb : b.IsF32) :
    (a.pick least b).rank least = max (a.rank least) (b.rank least) := by
  by_cases na : a = .nan
  · rw [Num.pick, if_pos (.inl na), na, max_eq_left (Num.rank_le least hb)]
  by_cases nb : b = .nan
  · rw [Num.pick, if_pos (.inr nb), nb, max_eq_right (Num.rank_le least ha)]
  rw [Num.pick, if_neg (by simp [na, nb])]
  simp only [Num.lt_iff_level ha hb na nb, Num.lt_iff_level hb ha nb na, apply_ite (Num.rank least), Num.rank_of_ne_nan least na,
    Num.rank_of_ne_nan least nb]
  cases least <;> simp only [if_true, Bool.false_eq_true, if_false] <;> split_ifs <;> omega

theorem Num.pick_isF32 (least : Bool) {a b : Num} (ha : a.IsF32) (hb : b.IsF32) : (a.pick least b).IsF32 := by
  unfold Num.pick
  split_ifs <;> trivial

theorem Num.pick_comm (least : Bool) {a b : Num} (ha : a.IsF32) (hb : b.IsF32) : a.pick least b = b.pick least a :=
  Num.rank_inj least (Num.pick_isF32 least ha hb) (Num.pick_isF32 least hb ha) <| by
    rw [Num.rank_pick least ha hb, Num.rank_pick least hb ha, max_comm]

theorem Num.pick_right_comm (least : Bool) {a b c : Num} (ha : a.IsF32) (hb : b.IsF32) (hc : c.IsF32) :
    (a.pick least b).pick least c = (a.pick least c).pick least b := by
  have hab := Num.pick_isF32 least ha hb
  have hac := Num.pick_isF32 least ha hc
  refine Num.rank_inj least (Num.pick_isF32 least hab hc) (Num.pick_isF32 least hac hb) ?_
  rw [Num.rank_pick least hab hc, Num.rank_pick least ha hb, Num.rank_pick least hac hb, Num.rank_pick least ha hc, max_right_comm]

theorem Num.add_comm (a b : Num) : a.add b = b.add a := by
  cases a <;> cases b <;> simp only [Num.add]
  case inf.inf s t =>
    by_cases same : s = t
    · rw [same]
    · rw [if_neg same, if_neg (Ne.symm same)]
  case fin.fin s m e t n f =>
    rw [min_comm f e, Int.add_comm (signedAt t n f _), Bool.and_comm t s]

/-! ### combine (R168 to R171) -/

/-- `combine1` without its count of saturations. -/
def Rcp.combine (r : Rcp) (exact : Bool) (a b : AccV) : AccV := (combine1 r exact a b).1

/-- An accumulator is of the kind that a path keeps. -/
def AccV.On (p : Path) : AccV → Prop
  | .exact _ _ => p = .exact
  | .i32 _ => p = .int ∨ p = .unsigned
  | .f32 _ => p = .float ∨ p = .vote

theorem Rcp.contribution_on (r : Rcp) (exact : Bool) (gate : Nat) (p : List Byte) (i : Nat) :
    (r.contribution exact gate p i).On (r.path exact) := by
  cases path : r.path exact <;> simp only [Rcp.contribution, path]
  case exact =>
    generalize (if (r.product gate (elemAt r.inFmt p i)).2 then _ else _ : Num) = x
    cases x <;> rfl
  case unsigned => split <;> exact .inr rfl
  case int => exact .inl rfl
  case float => exact .inl rfl
  case vote => exact .inr rfl

theorem addI32_comm (sat : Bool) (a b : BitVec 32) : addI32 sat a b = addI32 sat b a := by
  simp only [addI32, Int.add_comm]

theorem addI32_wrap (a b : BitVec 32) : addI32 false a b = (a + b, 0) := by
  simp [addI32, BitVec.ofInt_add]

theorem joinTag_comm (a b : Fin 4) : joinTag a b = joinTag b a := by
  revert a b
  decide

theorem joinTag_right_comm (a b c : Fin 4) : joinTag (joinTag a b) c = joinTag (joinTag a c) b := by
  revert a b c
  decide

/-- A COUNT on two accumulators: an unsigned sum that stops at the largest word (R170). -/
def countAdd (x y : BitVec 32) : BitVec 32 := BitVec.ofNat 32 (min (x.toNat + y.toNat) (2 ^ 32 - 1))

theorem toNat_countAdd (x y : BitVec 32) : (countAdd x y).toNat = min (x.toNat + y.toNat) (2 ^ 32 - 1) := by
  rw [countAdd, BitVec.toNat_ofNat]
  omega

theorem countAdd_comm (x y : BitVec 32) : countAdd x y = countAdd y x := by
  rw [countAdd, Nat.add_comm, countAdd]

theorem countAdd_right_comm (x y z : BitVec 32) : countAdd (countAdd x y) z = countAdd (countAdd x z) y := by
  apply BitVec.eq_of_toNat_eq
  simp only [toNat_countAdd]
  omega

/-- MAX, or MIN with `least`, on two signed words (R170). -/
def pickI32 (least : Bool) (x y : BitVec 32) : BitVec 32 :=
  if (if least then y.toInt < x.toInt else x.toInt < y.toInt) then y else x

theorem toInt_pickI32 (least : Bool) (x y : BitVec 32) :
    (pickI32 least x y).toInt = if least then min x.toInt y.toInt else max x.toInt y.toInt := by
  cases least <;> simp only [pickI32, apply_ite BitVec.toInt, if_true, Bool.false_eq_true, if_false] <;> split_ifs <;> omega

theorem pickI32_comm (least : Bool) (x y : BitVec 32) : pickI32 least x y = pickI32 least y x := by
  apply BitVec.eq_of_toInt_eq
  rw [toInt_pickI32, toInt_pickI32, min_comm, max_comm]

theorem pickI32_right_comm (least : Bool) (x y z : BitVec 32) :
    pickI32 least (pickI32 least x y) z = pickI32 least (pickI32 least x z) y := by
  apply BitVec.eq_of_toInt_eq
  cases least <;> simp only [toInt_pickI32, if_true, Bool.false_eq_true, if_false]
  · exact max_right_comm _ _ _
  · exact min_right_comm _ _ _

section
variable (r : Rcp) (exact : Bool)

theorem Rcp.combine_exact (x y : Int) (s t : Fin 4) : r.combine exact (.exact x s) (.exact y t) = .exact (x + y) (joinTag s t) := rfl

theorem Rcp.combine_pick (op : r.op = 1 ∨ r.op = 2) (x y : BitVec 32) :
    r.combine exact (.f32 x) (.f32 y) = .f32 (toF32 false ((ofF32 x).pick (r.op == 2) (ofF32 y))) := by
  simp only [Rcp.combine, combine1, if_pos op]

theorem Rcp.combine_add (op : ¬ (r.op = 1 ∨ r.op = 2)) (x y : BitVec 32) :
    r.combine exact (.f32 x) (.f32 y) = .f32 (toF32 false ((ofF32 x).add (ofF32 y))) := by
  simp only [Rcp.combine, combine1, if_neg op]

theorem Rcp.combine_or (path : r.path exact = .unsigned) (op : r.op = 4) (x y : BitVec 32) :
    r.combine exact (.i32 x) (.i32 y) = .i32 (x ||| y) := by
  simp only [Rcp.combine, combine1, path, op]

theorem Rcp.combine_count (path : r.path exact = .unsigned) (op : r.op ≠ 4) (x y : BitVec 32) :
    r.combine exact (.i32 x) (.i32 y) = .i32 (countAdd x y) := by
  simp only [Rcp.combine, combine1, path]
  split
  · refine congrArg AccV.i32 (BitVec.eq_of_toNat_eq ?_)
    rw [toNat_countAdd, min_eq_right (by omega)]
    rfl
  · refine congrArg AccV.i32 (BitVec.eq_of_toNat_eq ?_)
    rw [toNat_countAdd, BitVec.toNat_add]
    omega

theorem Rcp.combine_pickI32 (path : r.path exact ≠ .unsigned) (op : r.op = 1 ∨ r.op = 2) (x y : BitVec 32) :
    r.combine exact (.i32 x) (.i32 y) = .i32 (pickI32 (r.op == 2) x y) := by
  rcases op with op | op <;> simp [Rcp.combine, combine1, op, pickI32]

theorem Rcp.combine_sum (path : r.path exact ≠ .unsigned) (op : ¬ (r.op = 1 ∨ r.op = 2)) (x y : BitVec 32) :
    r.combine exact (.i32 x) (.i32 y) = .i32 (addI32 r.sat x y).1 := by
  obtain ⟨notMax, notMin⟩ := not_or.1 op
  simp only [Rcp.combine, combine1]
  split
  · contradiction
  · contradiction
  · contradiction
  · contradiction
  · rfl

/-- Two accumulators of one path are two words of one kind. -/
theorem AccV.On.pair {p : Path} {a b : AccV} (ha : a.On p) (hb : b.On p) :
    ((p = .float ∨ p = .vote) ∧ ∃ x y, a = .f32 x ∧ b = .f32 y) ∨ ((p = .int ∨ p = .unsigned) ∧ ∃ x y, a = .i32 x ∧ b = .i32 y) ∨
      (p = .exact ∧ ∃ x s y t, a = .exact x s ∧ b = .exact y t) := by
  cases a <;> cases b
  case f32.f32 x y => exact .inl ⟨ha, x, y, rfl, rfl⟩
  case i32.i32 x y => exact .inr (.inl ⟨ha, x, y, rfl, rfl⟩)
  case exact.exact x s y t => exact .inr (.inr ⟨ha, x, s, y, t, rfl, rfl⟩)
  all_goals cases p <;> simp [AccV.On] at ha hb

theorem Rcp.combine_comm {a b : AccV} (ha : a.On (r.path exact)) (hb : b.On (r.path exact)) :
    r.combine exact a b = r.combine exact b a := by
  obtain ⟨-, x, y, rfl, rfl⟩ | ⟨-, x, y, rfl, rfl⟩ | ⟨-, x, s, y, t, rfl, rfl⟩ := ha.pair hb
  · by_cases op : r.op = 1 ∨ r.op = 2
    · simp only [r.combine_pick exact op, Num.pick_comm _ (ofF32_isF32 x) (ofF32_isF32 y)]
    · simp only [r.combine_add exact op, Num.add_comm (ofF32 x)]
  · by_cases path : r.path exact = .unsigned
    · by_cases op : r.op = 4
      · simp only [r.combine_or exact path op, BitVec.or_comm x]
      · simp only [r.combine_count exact path op, countAdd_comm x]
    · by_cases op : r.op = 1 ∨ r.op = 2
      · simp only [r.combine_pickI32 exact path op, pickI32_comm _ x]
      · simp only [r.combine_sum exact path op, addI32_comm _ x]
  · simp only [Rcp.combine_exact, Int.add_comm x, joinTag_comm s]

/-- The cases of R182 in which three contributions and more give one result in every order. -/
def Rcp.OrderFree : Prop :=
  r.path exact = .exact ∨ r.op = 1 ∨ r.op = 2 ∨ r.op = 4 ∨ r.op = 5 ∨ (r.path exact = .int ∧ r.sat = false)

theorem Rcp.OrderFree.pick_of_float {r : Rcp} {exact : Bool} (free : r.OrderFree exact) (float : r.path exact = .float ∨ r.path exact = .vote) :
    r.op = 1 ∨ r.op = 2 := by
  obtain path | op | op | op | op | ⟨path, -⟩ := free
  · simp [path] at float
  · exact .inl op
  · exact .inr op
  · simp [Rcp.path, op] at float
  · simp [Rcp.path, op] at float
  · simp [path] at float

theorem Rcp.OrderFree.pick_or_wrap_of_int {r : Rcp} {exact : Bool} (free : r.OrderFree exact) (int : r.path exact = .int) :
    (r.op = 1 ∨ r.op = 2) ∨ r.sat = false := by
  obtain path | op | op | op | op | ⟨-, wrap⟩ := free
  · simp [path] at int
  · exact .inl (.inl op)
  · exact .inl (.inr op)
  · simp [Rcp.path, op] at int
  · simp [Rcp.path, op] at int
  · exact .inr wrap

theorem Rcp.combine_right_comm_f32 (op : r.op = 1 ∨ r.op = 2) (x y z : BitVec 32) :
    r.combine exact (r.combine exact (.f32 z) (.f32 x)) (.f32 y) = r.combine exact (r.combine exact (.f32 z) (.f32 y)) (.f32 x) := by
  have hx := ofF32_isF32 x
  have hy := ofF32_isF32 y
  have hz := ofF32_isF32 z
  simp only [r.combine_pick exact op, ofF32_toF32 (Num.pick_isF32 _ hz hx), ofF32_toF32 (Num.pick_isF32 _ hz hy)]
  rw [Num.pick_right_comm _ hz hx hy]

theorem Rcp.combine_right_comm_i32 (free : r.OrderFree exact) (kind : r.path exact = .int ∨ r.path exact = .unsigned) (x y z : BitVec 32) :
    r.combine exact (r.combine exact (.i32 z) (.i32 x)) (.i32 y) = r.combine exact (r.combine exact (.i32 z) (.i32 y)) (.i32 x) := by
  obtain int | unsigned := kind
  · have signed : r.path exact ≠ .unsigned := by simp [int]
    by_cases op : r.op = 1 ∨ r.op = 2
    · simp only [r.combine_pickI32 exact signed op, pickI32_right_comm _ z x]
    · have wrap := (free.pick_or_wrap_of_int int).resolve_left op
      simp only [r.combine_sum exact signed op, wrap, addI32_wrap, BitVec.add_assoc, BitVec.add_comm x]
  · by_cases op : r.op = 4
    · simp only [r.combine_or exact unsigned op, BitVec.or_assoc, BitVec.or_comm x]
    · simp only [r.combine_count exact unsigned op, countAdd_right_comm z x]

theorem Rcp.combine_right_comm (free : r.OrderFree exact) {a b : AccV} (ha : a.On (r.path exact)) (hb : b.On (r.path exact)) (z : AccV) :
    r.combine exact (r.combine exact z a) b = r.combine exact (r.combine exact z b) a := by
  obtain ⟨kind, x, y, rfl, rfl⟩ | ⟨kind, x, y, rfl, rfl⟩ | ⟨-, x, s, y, t, rfl, rfl⟩ := ha.pair hb
  · cases z with
    | f32 z => exact r.combine_right_comm_f32 exact (free.pick_of_float kind) x y z
    | i32 _ => rfl
    | exact _ _ => rfl
  · cases z with
    | i32 z => exact r.combine_right_comm_i32 exact free kind x y z
    | f32 _ => rfl
    | exact _ _ => rfl
  · cases z with
    | exact z u => simp only [Rcp.combine_exact, joinTag_right_comm u s t, Int.add_assoc, Int.add_comm x]
    | f32 _ => rfl
    | i32 _ => rfl

/-! ### A virtual lane (R169, R182) -/

theorem combineAll_fst (a b : List AccV) : (combineAll r exact a b).1 = List.zipWith (r.combine exact) a b :=
  List.map_zipWith

/-- What a lane holds after a contribution: the first is stored, a later one combines. -/
def Rcp.gather (a : Option (List AccV)) (y : List AccV) : Option (List AccV) :=
  some (match a with
    | none => y
    | some a => List.zipWith (r.combine exact) a y)

theorem QCtx.aget_take (x : QCtx) (v : Nat) (y : List AccV) :
    aget v (x.take r exact v y).1.lanes = r.gather exact (aget v x.lanes) y := by
  rw [QCtx.take]
  cases aget v x.lanes with
  | none => simp [aput, aget, Rcp.gather]
  | some a => simp [aput, aget, Rcp.gather, combineAll_fst]

/-- The elements of one contribution: a chunk with its GATE (R137). -/
def Rcp.elements (n : Nat) (c : Nat × List Byte) : List AccV := (List.range n).map (r.contribution exact c.1 c.2)

theorem QCtx.aget_foldl_take (n v : Nat) (x : QCtx) (l : List (Nat × List Byte)) :
    aget v (l.foldl (fun y c => (y.take r exact v (r.elements exact n c)).1) x).lanes =
      l.foldl (fun a c => r.gather exact a (r.elements exact n c)) (aget v x.lanes) := by
  induction l generalizing x with
  | nil => rfl
  | cons c l ih => rw [List.foldl_cons, List.foldl_cons, ih, QCtx.aget_take]

theorem Rcp.elements_on (n : Nat) (c : Nat × List Byte) : ∀ a ∈ r.elements exact n c, a.On (r.path exact) := by
  simp only [Rcp.elements, List.mem_map]
  rintro _ ⟨i, -, rfl⟩
  exact r.contribution_on exact c.1 c.2 i

theorem Rcp.zipWith_combine_comm (n : Nat) (c d : Nat × List Byte) :
    List.zipWith (r.combine exact) (r.elements exact n c) (r.elements exact n d) =
      List.zipWith (r.combine exact) (r.elements exact n d) (r.elements exact n c) := by
  simp only [Rcp.elements, List.zipWith_map, List.zipWith_self]
  exact List.map_congr_left fun i _ => r.combine_comm exact (r.contribution_on exact _ _ i) (r.contribution_on exact _ _ i)

theorem Rcp.zipWith_combine_right_comm (free : r.OrderFree exact) {a b : List AccV} (ha : ∀ x ∈ a, x.On (r.path exact))
    (hb : ∀ x ∈ b, x.On (r.path exact)) (z : List AccV) :
    List.zipWith (r.combine exact) (List.zipWith (r.combine exact) z a) b =
      List.zipWith (r.combine exact) (List.zipWith (r.combine exact) z b) a := by
  refine List.ext_getElem (by simp only [List.length_zipWith]; omega) fun i h _ => ?_
  simp only [List.getElem_zipWith]
  exact r.combine_right_comm exact free (ha _ (List.getElem_mem _)) (hb _ (List.getElem_mem _)) _

/-- Two contributions to a lane that holds none may come in either order: every operator is commutative. -/
theorem Rcp.gather_swap (n : Nat) (c d : Nat × List Byte) :
    r.gather exact (r.gather exact none (r.elements exact n c)) (r.elements exact n d) =
      r.gather exact (r.gather exact none (r.elements exact n d)) (r.elements exact n c) :=
  congrArg some (r.zipWith_combine_comm exact n c d)

theorem Rcp.gather_right_comm (free : r.OrderFree exact) (n : Nat) (c d : Nat × List Byte) (a : Option (List AccV)) :
    r.gather exact (r.gather exact a (r.elements exact n c)) (r.elements exact n d) =
      r.gather exact (r.gather exact a (r.elements exact n d)) (r.elements exact n c) := by
  cases a with
  | none => exact r.gather_swap exact n c d
  | some a => exact congrArg some (r.zipWith_combine_right_comm exact free (r.elements_on exact n c) (r.elements_on exact n d) a)

end

/-- A fold over at most two items is the same in both orders when the first two steps may be exchanged. -/
theorem foldl_eq_of_perm_of_length_le_two {α β : Type} {f : β → α → β} {b : β} (swap : ∀ x y, f (f b x) y = f (f b y) x)
    {l l' : List α} (perm : l.Perm l') (few : l.length ≤ 2) : l.foldl f b = l'.foldl f b := by
  match l, few with
  | [], _ => rw [perm.nil_eq]
  | [x], _ => rw [List.singleton_perm.1 perm]
  | [x, y], _ =>
    obtain rfl | rfl := List.perm_pair.1 perm.symm
    · rfl
    · exact swap x y

/-! ### The statement -/

/-- Settles O49: a lane folds `Rcp.gather` over its contributions. All operators commute, so that two may be exchanged, and in the other
cases of R182 two neighbours may be exchanged wherever they stand. -/
theorem lanesTakeContributionsInAnyOrder : Obligations.LanesTakeContributionsInAnyOrder := by
  unfold Obligations.LanesTakeContributionsInAnyOrder
  intro r exact n v x l l' perm empty listed
  change aget v (l.foldl (fun y c => (y.take r exact v (r.elements exact n c)).1) x).lanes =
    aget v (l'.foldl (fun y c => (y.take r exact v (r.elements exact n c)).1) x).lanes
  rw [QCtx.aget_foldl_take, QCtx.aget_foldl_take, empty]
  have either : r.OrderFree exact ∨ l.length ≤ 2 := by
    unfold Rcp.OrderFree
    tauto
  obtain free | few := either
  · exact perm.foldl_eq' (fun c _ d _ a => r.gather_right_comm exact free n c d a) none
  · exact foldl_eq_of_perm_of_length_le_two (r.gather_swap exact n) perm few

end Sys2Proof.Machine
end

section
/-! PROOFS. Links (R229 to R235), said once: what leaves PORT_LINK and the links as they are, and what a training, a loss, an end and
a return of a port make of them. -/

namespace Sys2Proof.Machine

/-! ### What follows a change of a port (R67, R93, R102, R150) -/

/-- The registers that follow a change of a port: those that a link may write but PORT_LINK itself. -/
def Reg.isAfter (r : Reg) : Prop := r.isLink ∧ ∀ n, r ≠ .portLink n

/-- What follows a change of a port: re-routes, aborts, circuits, frames and records. PORT_LINK and the links stand. -/
def Follows (h h' : Hw) : Prop := Only (.hst :: .out :: pathParts) Reg.isAfter h h'

theorem Reg.isAfter_of_note {r : Reg} (note : r.isNote) : r.isAfter := by
  refine ⟨Or.inr (Or.inr (Or.inr note)), ?_⟩
  rintro n rfl
  simp [Reg.isNote, Reg.isCnt, Reg.isIcSrc] at note

namespace Follows

theorem refl (h : Hw) : Follows h h := Only.refl _ _ h

theorem trans {a b c : Hw} (first : Follows a b) (second : Follows b c) : Follows a c := Only.trans first second

theorem foldl {α : Type} (l : List α) (g : Hw → α → Hw) (each : ∀ h x, Follows h (g h x)) (h : Hw) : Follows h (l.foldl g h) :=
  Only.foldl l g each h

theorem of_done {a b : Hw} (done : Only doneParts Reg.isDone a b) : Follows a b :=
  done.mono (by simp [doneParts, pathParts, sendParts]) fun r told => by
    rcases told with note | ring
    · exact Reg.isAfter_of_note note
    · refine ⟨Or.inr (Or.inl ring), ?_⟩
      rintro n rfl
      simp [Reg.isRing] at ring

theorem of_send {a b : Hw} (sent : Only sendParts Reg.isNote a b) : Follows a b := of_done (Only.done_of_send sent)

theorem setFld (h : Hw) {r : Reg} (f : Fld) (k : Nat) (port : r.isPort = true) (other : ∀ n, r ≠ .portLink n) :
    Follows h (h.setFld r f k) := Only.setFld (P := Reg.isAfter) h r f k ⟨Or.inl port, other⟩

theorem events (h : Hw) (i j : Nat) : Follows h ((h.hostEvent i).icEvent j) := by
  refine Only.trans ((Hw.hostEvent_only h i).mono (by simp) ?_) ((Hw.icEvent_only _ j).mono (by simp [pathParts, sendParts]) ?_)
  · rintro r rfl
    exact ⟨Or.inl rfl, by simp⟩
  · exact fun r ic => Reg.isAfter_of_note (Or.inr ic)

theorem of_path {P : Reg → Prop} {a b : Hw} (path : Only pathParts (fun r => P r ∨ r.isEpoch) a b) (ports : ∀ r, P r → r.isAfter) :
    Follows a b :=
  path.mono (fun _ part => by simp [part]) fun r told => by
    rcases told with port | rfl | note
    · exact ports r port
    · exact ⟨Or.inr (Or.inr (Or.inl rfl)), by simp⟩
    · exact Reg.isAfter_of_note note

theorem reroute (h : Hw) (ks : List RouteKey) : Follows h (h.reroute ks) :=
  of_path (Hw.reroute_path (P := noRegs) h ks) fun _ => False.elim

/-- What follows a change of ports by `f`. -/
theorem withPorts (h : Hw) (ns : List Nat) (f : Hw → Hw) : Follows (f h) (h.withPorts ns f) :=
  of_path (Hw.withPorts_after (P := noRegs) h ns f) fun _ => False.elim

variable {h h' : Hw}

theorem linkOnly (follows : Follows h h') : LinkOnly h h' := follows.mono (fun _ => List.mem_cons_of_mem _) fun _ after => after.1

theorem portLink (follows : Follows h h') (n : Nat) : h'.reg (.portLink n) = h.reg (.portLink n) :=
  follows.regs _ fun after => after.2 n rfl

theorem lgt (follows : Follows h h') : h'.lgt = h.lgt := follows.parts .lgt (by simp [pathParts, sendParts])

end Follows

theorem Hw.exhausted_done (h : Hw) (x : Held) : Only doneParts Reg.isDone h (h.exhausted x) := by
  have counted := Only.done_of_send (Hw.count_send h x.die 0x033 0 1)
  have sampled := (Hw.sampleHeld_host (h.count x.die 0x033 0 1) x none 3 0).mono (fun _ => List.mem_cons_of_mem Part.buf) fun _ => id
  exact (counted.trans (Only.done_of_host sampled)).trans
    (Only.done_of_send ((Hw.dropFrame_send _ _).trans (Hw.notice_send _ _ _ _ _)))

theorem Hw.findsFull_done (h : Hw) (x : Held) (chosen : Nat) : Only doneParts Reg.isDone h (h.findsFull x chosen) := by
  unfold Hw.findsFull
  split
  · exact Only.refl _ _ _
  next d _ =>
  split
  · exact Only.refl _ _ _
  split
  · exact Hw.exhausted_done _ _
  · have tried := Hw.deflectPort_send h x d.dst chosen
    generalize h.deflectPort x d.dst chosen = r at tried ⊢
    rcases r with ⟨_ | n, g⟩
    · exact Only.done_of_send tried
    · refine Only.done_of_send (Only.trans tried ?_)
      refine Only.trans ?_ (Hw.onEmpty_send _ _ _)
      refine Only.trans ?_ (Hw.enterAt_send _ _ _)
      exact (Hw.count_send _ _ _ _ _).trans (Hw.mapHeld_send _ _ _)

theorem Hw.linkLossDiscard_done (h : Hw) (x : Held) (c : Copy) : Only doneParts Reg.isDone h (h.linkLossDiscard x c) := by
  have counted := Only.done_of_send (Hw.count_send h (portDie c.port) 0x034 c.port 1)
  unfold Hw.linkLossDiscard
  dsimp only
  refine Only.trans ?_ (Only.done_of_host (Hw.sampleCopy_host _ _ _ _))
  split
  · exact counted.trans (Only.emit _ _ (by simp [doneParts]))
  · exact counted

/-- The frames toward a lost port are discarded or find their queue full (R102). -/
theorem Hw.linkLoss_done (h : Hw) (n : Nat) : Only doneParts Reg.isDone h (h.linkLoss n) := by
  refine Only.foldl _ _ (fun g x => ?_) _
  split
  · exact Only.refl _ _ _
  split
  · exact (Hw.linkLossDiscard_done _ _ _).trans (Only.done_of_send (Hw.dropCopies_send _ _ _))
  split
  · exact Hw.findsFull_done _ _ _
  · exact Only.refl _ _ _

theorem Hw.circuitLost_follows (h : Hw) (n : Nat) : Follows h (h.circuitLost n) := by
  have down (i : Nat) : Follows h (((h.setFld (.circuitCtl i) Fld.circuitCtl_state 5).hostEvent 5).icEvent 84) :=
    (Follows.setFld h _ _ rfl (by simp)).trans (.events _ _ _)
  unfold Hw.circuitLost
  split
  · exact .refl h
  next i _ =>
  dsimp only
  split
  · split
    · exact (down i).trans (.reroute _ _)
    · exact down i
  · exact .refl h

theorem Hw.circuitUp_follows (h : Hw) (n : Nat) : Follows h (h.circuitUp n) := by
  unfold Hw.circuitUp
  split
  · exact .refl h
  dsimp only
  split
  · refine Follows.trans ?_ (.reroute _ _)
    refine Follows.trans ?_ (.of_send (Hw.ventNotice_send _ _ _ _))
    exact (Follows.setFld _ _ _ rfl (by simp)).trans (.setFld _ _ _ rfl (by simp))
  · exact .refl h

theorem Hw.overbook_follows (h : Hw) (n : Nat) : Follows h (h.overbook n) := .setFld _ _ _ rfl (by simp)

theorem Hw.widthChanged_follows (h : Hw) (n : Nat) : Follows h (h.widthChanged n) :=
  (Follows.of_send (Hw.record_send _ _)).trans (Hw.overbook_follows _ _)

/-! ### PORT_LINK and links that stand -/

/-- A link but for what a LINK_STATE frame moves that leaves: its number and time, and the time of a NAK that it carries (R231, R234). -/
def Link.untold (l : Link) : Link := { l with nakAt := none, lsSeq := 0, lsAt := 0 }

/-- Every PORT_LINK stands, every link but for LINK_STATE frames that left, and the calibration command that runs. -/
structure LinksStand (h h' : Hw) : Prop where
  portLink : ∀ m, h'.reg (.portLink m) = h.reg (.portLink m)
  link : ∀ m, (h'.link m).untold = (h.link m).untold
  cal : h'.lgt.cal = h.lgt.cal

namespace LinksStand

theorem refl (h : Hw) : LinksStand h h := ⟨fun _ => rfl, fun _ => rfl, rfl⟩

theorem trans {a b c : Hw} (first : LinksStand a b) (second : LinksStand b c) : LinksStand a c :=
  ⟨fun m => (second.portLink m).trans (first.portLink m), fun m => (second.link m).trans (first.link m), second.cal.trans first.cal⟩

theorem of_lgt {h h' : Hw} (regs : ∀ m, h'.reg (.portLink m) = h.reg (.portLink m)) (lgt : h'.lgt = h.lgt) : LinksStand h h' :=
  ⟨regs, fun m => by rw [Hw.link_congr lgt], by rw [lgt]⟩

variable {h h' : Hw}

theorem fld (stand : LinksStand h h') (m : Nat) (f : Fld) : h'.fld (.portLink m) f = h.fld (.portLink m) f := by
  rw [Hw.fld, stand.portLink m, Hw.fld]

theorem linkState (stand : LinksStand h h') (m : Nat) : h'.linkState m = h.linkState m := stand.fld m _

theorem linkUp (stand : LinksStand h h') (m : Nat) : h'.linkUp m = h.linkUp m := by rw [Hw.linkUp, stand.linkState m, Hw.linkUp]

/-- What does not depend on LINK_STATE frames that left reads as before. -/
theorem read {α : Type} (stand : LinksStand h h') (m : Nat) (f : Link → α) (untold : ∀ l, f l.untold = f l := by intro; rfl) :
    f (h'.link m) = f (h.link m) := by rw [← untold, stand.link m, untold]

end LinksStand

theorem Follows.stand {h h' : Hw} (follows : Follows h h') : LinksStand h h' := .of_lgt follows.portLink follows.lgt

theorem aget_adel_ne {κ α : Type} [DecidableEq κ] {k x : κ} (other : x ≠ k) (l : List (κ × α)) : aget x (adel k l) = aget x l := by
  induction l with
  | nil => rfl
  | cons p l ih =>
    obtain ⟨y, v⟩ := p
    by_cases here : y = k
    · simp_all [adel, aget, Ne.symm other]
    · simp_all [adel, aget]

theorem aget_aput {κ α : Type} [DecidableEq κ] (k x : κ) (v : α) (l : List (κ × α)) :
    aget x (aput k v l) = if x = k then some v else aget x l := by
  by_cases same : x = k
  · simp [aput, aget, same]
  · simp [aput, aget, same, Ne.symm same, aget_adel_ne same]

theorem Hw.link_setLink (h : Hw) (n m : Nat) (l : Link) : (h.setLink n l).link m = if m = n then l else h.link m := by
  simp only [Hw.link, Hw.setLink, aget_aput]
  split <;> rfl

/-- A change of a link that only LINK_STATE frames make. -/
theorem Hw.setLink_stands (h : Hw) (n : Nat) {l : Link} (same : l.untold = (h.link n).untold) : LinksStand h (h.setLink n l) where
  portLink _ := rfl
  link m := by
    rw [Hw.link_setLink]
    split
    case isTrue here => rw [same, here]
    case isFalse => rfl
  cal := rfl

theorem Hw.nakSent_stands (h : Hw) (n : Nat) : LinksStand h (h.nakSent n) := by
  unfold Hw.nakSent
  split
  · exact Hw.setLink_stands h n (by rfl)
  · exact .refl h

theorem Hw.frameOut_follows (h : Hw) (n : Nat) (pre : Option (BitVec 56)) (f : Frame) : Follows h (h.frameOut n pre f) :=
  .of_done ((Hw.frameOut_only h n pre f (by simp [doneParts])).mono (fun _ => id) fun _ cnt => Or.inl (Or.inl cnt))

/-- A mirror session leaves every register but those of counters and rings. -/
theorem Hw.mirrors_stands (h : Hw) (n dir t : Nat) (f : Frame) : LinksStand h (h.mirrors n dir t f) := by
  have seen := (Hw.mirrors_ended h n dir t f).1
  exact .of_lgt (fun m => seen.regs _ (by simp [Reg.isCnt, Reg.isRing])) (seen.parts .lgt (by simp))

/-- Port `n` can send LINK_STATE: it runs Oslux 400 outside FATAL (R225, R234). -/
def Hw.MayTell (h : Hw) (n : Nat) : Prop := h.oslux n = true ∧ h.fatalChip = false ∧ h.fatalQ (portDie n) = false

/-- The LINK_STATE frame `f` has left port `n`, and its number and time are noted. -/
def Hw.told (h : Hw) (n : Nat) (f : Frame) : Hw :=
  let g := (h.frameOut n (h.preamble n (h.link n).txSeq true) f).nakSent n
  g.setLink n { g.link n with lsSeq := (h.link n).lsSeq + 1, lsAt := g.slot (portDie n) }

theorem Hw.sendLinkState_of_may {h : Hw} {n : Nat} (may : h.MayTell n) :
    ∃ hd : VHdr, hd.opcode = 0x74 ∧
      h.sendLinkState n = (h.told n (stampSource n (h.vframe hd []))).mirrors n 1 1 (stampSource n (h.vframe hd [])) := by
  obtain ⟨oslux, chip, quad⟩ := may
  unfold Hw.sendLinkState
  rw [if_neg (by simp [oslux, chip, quad])]
  exact ⟨_, rfl, rfl⟩

theorem Hw.sendLinkState_of_not {h : Hw} {n : Nat} (may : ¬h.MayTell n) : h.sendLinkState n = h := by
  unfold Hw.sendLinkState
  rw [if_pos]
  simp only [Hw.MayTell] at may
  grind

theorem Hw.told_stands (h : Hw) (n : Nat) (f : Frame) : LinksStand h (h.told n f) := by
  have sent : LinksStand h ((h.frameOut n (h.preamble n (h.link n).txSeq true) f).nakSent n) :=
    (Hw.frameOut_follows h n _ f).stand.trans (Hw.nakSent_stands _ n)
  exact sent.trans (Hw.setLink_stands _ n (by rfl))

theorem Hw.sendLinkState_stands (h : Hw) (n : Nat) : LinksStand h (h.sendLinkState n) := by
  by_cases may : h.MayTell n
  · obtain ⟨hd, -, run⟩ := Hw.sendLinkState_of_may may
    rw [run]
    exact (Hw.told_stands h n _).trans (Hw.mirrors_stands _ _ _ _ _)
  · rw [Hw.sendLinkState_of_not may]
    exact .refl h

end Sys2Proof.Machine
end

section
/-! PROOFS. The moves of a link (R229): where PORT_LINK and the link stand after a training began, a loss, an end, a darkening and an
entry into UP. -/

namespace Sys2Proof.Machine

/-! ### What a change of links leaves -/

namespace LinkOnly

section
variable {h h' : Hw} (only : LinkOnly h h')
include only

theorem octetCfg (o : Nat) : h'.reg (.octetCfg o) = h.reg (.octetCfg o) :=
  only.regs _ (by simp [Reg.isLink, Reg.isPort, Reg.isRing, Reg.isEpoch, Reg.isNote, Reg.isCnt, Reg.isIcSrc])

theorem bit_octetCfg (o : Nat) (f : Fld) : h'.bit (.octetCfg o) f = h.bit (.octetCfg o) f := by
  rw [Hw.bit, Hw.fld, only.octetCfg o, Hw.bit, Hw.fld]

theorem shape (o : Nat) : h'.shape o = h.shape o := by rw [Hw.shape, Hw.fld, only.octetCfg o, Hw.shape, Hw.fld]

theorem portLanes (n : Nat) : h'.portLanes n = h.portLanes n := by rw [Hw.portLanes, only.shape, Hw.portLanes]

theorem fullMask (n : Nat) : h'.fullMask n = h.fullMask n := by rw [Hw.fullMask, only.portLanes, Hw.fullMask]

theorem oslux (n : Nat) : h'.oslux n = h.oslux n := by rw [Hw.oslux, only.shape, Hw.oslux]

theorem retryOn (n : Nat) : h'.retryOn n = h.retryOn n := by rw [Hw.retryOn, only.oslux, only.bit_octetCfg, Hw.retryOn]

theorem calReady (v : Nv) (n : Nat) : h'.calReady v n = h.calReady v n := by rw [Hw.calReady, only.portLanes, Hw.calReady]

theorem slot (q : Nat) : h'.slot q = h.slot q := by
  rw [Hw.slot, only.parts .tim (by simp [linkParts, pathParts, sendParts]), Hw.slot]

end

end LinkOnly

/-- No PORT_LINK but that of port `n` changes, and the calibration command that runs stands. -/
structure OnlyPort (n : Nat) (h h' : Hw) : Prop where
  others : ∀ m, m ≠ n → h'.reg (.portLink m) = h.reg (.portLink m)
  cal : h'.lgt.cal = h.lgt.cal

namespace OnlyPort

variable {n : Nat} {h h' : Hw}

theorem trans {a b c : Hw} (first : OnlyPort n a b) (second : OnlyPort n b c) : OnlyPort n a c :=
  ⟨fun m other => (second.others m other).trans (first.others m other), second.cal.trans first.cal⟩

theorem of_stand (stand : LinksStand h h') : OnlyPort n h h' := ⟨fun m _ => stand.portLink m, stand.cal⟩

theorem setFld (h : Hw) (f : Fld) (k : Nat) : OnlyPort n h (h.setFld (.portLink n) f k) :=
  ⟨fun _ other => h.reg_setFld_ne (by simpa using other) f k, rfl⟩

theorem setLink (h : Hw) (l : Link) : OnlyPort n h (h.setLink n l) := ⟨fun _ _ => rfl, rfl⟩

theorem linkState (only : OnlyPort n h h') {m : Nat} (other : m ≠ n) : h'.linkState m = h.linkState m := by
  rw [Hw.linkState, Hw.fld, only.others m other, Hw.linkState, Hw.fld]

end OnlyPort

/-! ### PORT_LINK.STATE and the masks -/

theorem Hw.setLinkState_linkState (h : Hw) (n : Nat) {st : Nat} (small : st < 8 := by decide) : (h.setLinkState n st).linkState n = st := by
  unfold Hw.setLinkState
  split
  · assumption
  · rw [(Follows.events _ _ _).stand.linkState, Hw.linkState, Hw.fld_setFld_self]
    exact Nat.mod_eq_of_lt small

theorem Hw.setLinkState_fld (h : Hw) (n st : Nat) {f : Fld} (inside : f.lo + f.width ≤ 64 := by decide)
    (apart : f.lo + f.width ≤ 0 ∨ 3 ≤ f.lo := by decide) : (h.setLinkState n st).fld (.portLink n) f = h.fld (.portLink n) f := by
  unfold Hw.setLinkState
  split
  · rfl
  · rw [(Follows.events _ _ _).stand.fld, Hw.fld_setFld_apart h _ st inside apart]

theorem Hw.setLinkState_lgt (h : Hw) (n st : Nat) : (h.setLinkState n st).lgt = h.lgt := by
  unfold Hw.setLinkState
  split
  · rfl
  · rw [(Follows.events _ _ _).lgt, Hw.setFld_lgt]

theorem Hw.setLinkState_onlyPort (h : Hw) (n st : Nat) : OnlyPort n h (h.setLinkState n st) := by
  unfold Hw.setLinkState
  split
  · exact .of_stand (.refl h)
  · exact (OnlyPort.setFld h _ _).trans (.of_stand (Follows.events _ _ _).stand)

theorem Hw.setMasks_fld (h : Hw) (n tx rx : Nat) {f : Fld} (inside : f.lo + f.width ≤ 64 := by decide)
    (apart : f.lo + f.width ≤ 8 ∨ 16 ≤ f.lo := by decide) : (h.setMasks n tx rx).fld (.portLink n) f = h.fld (.portLink n) f := by
  rw [Hw.setMasks, Hw.fld_setFld_apart _ _ rx inside (apart.imp (fun low => low.trans (by decide)) id),
    Hw.fld_setFld_apart h _ tx inside (apart.imp id fun high => le_trans (by decide) high)]

theorem Hw.setMasks_txMask (h : Hw) (n rx : Nat) {tx : Nat} (small : tx < 16) :
    (h.setMasks n tx rx).fld (.portLink n) Fld.portLink_txMask = tx := by
  rw [Hw.setMasks, Hw.fld_setFld_apart, Hw.fld_setFld_self]
  exact Nat.mod_eq_of_lt small

theorem Hw.setMasks_rxMask (h : Hw) (n tx : Nat) {rx : Nat} (small : rx < 16) :
    (h.setMasks n tx rx).fld (.portLink n) Fld.portLink_rxMask = rx := by
  rw [Hw.setMasks, Hw.fld_setFld_self]
  exact Nat.mod_eq_of_lt small

theorem Hw.setMasks_onlyPort (h : Hw) (n tx rx : Nat) : OnlyPort n h (h.setMasks n tx rx) :=
  (OnlyPort.setFld h _ _).trans (.setFld _ _ _)

theorem Hw.clearRetry_onlyPort (h : Hw) (n : Nat) : OnlyPort n h (h.clearRetry n) := (OnlyPort.setLink h _).trans (.setFld _ _ _)

theorem Hw.portLanes_cases (h : Hw) (n : Nat) : h.portLanes n = 1 ∨ h.portLanes n = 2 ∨ h.portLanes n = 4 := by
  unfold Hw.portLanes shapeLanes
  split
  · simp
  · split <;> simp

theorem Hw.fullMask_lt (h : Hw) (n : Nat) : h.fullMask n < 16 := by
  unfold Hw.fullMask
  rcases h.portLanes_cases n with lanes | lanes | lanes <;> simp [lanes]

theorem Hw.goodLanes_lt (h : Hw) (n : Nat) : h.goodLanes n < 16 := lt_of_le_of_lt Nat.and_le_left (h.fullMask_lt n)

theorem LinkOnly.goodLanes {h h' : Hw} {n : Nat} (only : LinkOnly h h') (stuck : (h'.link n).stuck = (h.link n).stuck) :
    h'.goodLanes n = h.goodLanes n := by rw [Hw.goodLanes, only.fullMask, stuck, Hw.goodLanes]

/-! ### A port leaves UP -/

theorem Hw.leaveUp_stands (h : Hw) (n : Nat) (f : Hw → Hw) : LinksStand (f h) (h.leaveUp n f) := by
  unfold Hw.leaveUp
  split
  · exact ((Follows.withPorts h [n] f).trans ((Hw.circuitLost_follows _ n).trans (.of_done (Hw.linkLoss_done _ n)))).stand
  · exact .refl _

theorem Hw.leaveUp_onlyPort {h : Hw} {n : Nat} {f : Hw → Hw} (change : OnlyPort n h (f h)) : OnlyPort n h (h.leaveUp n f) :=
  change.trans (.of_stand (h.leaveUp_stands n f))

/-! ### A training begins (R229) -/

theorem Hw.reloadLanes_stands (h : Hw) (v : Nv) (ns : List Nat) : LinksStand h (h.reloadLanes v ns) := by
  have emptied : LinksStand h { h with lgt := { h.lgt with liveLane := h.lgt.liveLane.filter fun x => !ns.contains x.1 } } :=
    ⟨fun _ => rfl, fun _ => rfl, rfl⟩
  exact emptied.trans (Follows.foldl _ _ (fun g _ => .of_send (Hw.record_send g _)) _).stand

theorem Hw.startTraining_spec (h : Hw) (v : Nv) (n : Nat) (fast : Bool) :
    (h.startTraining v n fast).linkState n = (if fast && h.calReady v n then 2 else 1) ∧
    ((h.startTraining v n fast).link n).lastTry = (h.link n).lastTry ∧ OnlyPort n h (h.startTraining v n fast) := by
  have loaded : LinksStand h (if fast then h.reloadLanes v (h.lanesOf n) else h) ∧
      LinkOnly h (if fast then h.reloadLanes v (h.lanesOf n) else h) := by
    split
    · exact ⟨Hw.reloadLanes_stands _ _ _, Hw.reloadLanes_link _ _ _⟩
    · exact ⟨.refl h, .refl h⟩
  unfold Hw.startTraining
  extract_lets h1 ok told h2 h3 h4 w h5
  obtain ⟨stand, only⟩ : LinksStand h h1 ∧ LinkOnly h h1 := loaded
  have counted : LinksStand h h2 := stand.trans (Follows.of_send (Hw.count_send _ _ _ _ _)).stand
  have state : h5.linkState n = if fast && h.calReady v n then 2 else 1 := by
    have moved : h3.linkState n = if ok then 2 else 1 := Hw.setLinkState_linkState _ _ (by split <;> decide)
    rw [← only.calReady v n]
    refine Eq.trans ?_ moved
    show h4.linkState n = _
    rw [Hw.linkState, Hw.fld_setFld_apart, Hw.setMasks_fld, Hw.linkState]
  have lgt : h4.lgt = h2.lgt := Hw.setLinkState_lgt _ _ _
  have tried : (h5.link n).lastTry = (h.link n).lastTry := by
    rw [← counted.read n Link.lastTry, Hw.link_setLink_self, ← Hw.link_congr lgt]
  have port : OnlyPort n h h5 := by
    refine OnlyPort.trans ?_ (.setLink _ _)
    refine OnlyPort.trans ?_ (.setFld _ _ _)
    refine OnlyPort.trans ?_ (Hw.setMasks_onlyPort _ _ _ _)
    exact (OnlyPort.of_stand counted).trans (Hw.setLinkState_onlyPort _ _ _)
  have sent : LinksStand h5 (if told then h5.sendLinkState n else h5) := by
    split
    · exact Hw.sendLinkState_stands _ _
    · exact .refl _
  exact ⟨(sent.linkState n).trans state, (sent.read n Link.lastTry).trans tried, port.trans (.of_stand sent)⟩

/-! ### Loss, end and darkening (R229, R235) -/

/-- The port itself goes from UP to LOST. -/
def Hw.lose (h : Hw) (n : Nat) (dark : Bool) : Hw :=
  let l := h.link n
  let h := h.setLink n { l with since := h.slot (portDie n), peerBefore := l.peer, light := !dark }
  let h := (h.setLinkState n 4).setFld (.portLink n) Fld.portLink_retryHeld (if h.retryOn n then 1 else 0)
  if dark then h.setFld (.portLink n) Fld.portLink_rxMask 0 else h

/-- The port itself goes to DOWN. -/
def Hw.fall (h : Hw) (n : Nat) : Hw := ((h.clearRetry n).setMasks n 0 0).setLinkState n 5

/-- What follows the loss of a port moves no other link state. -/
theorem Hw.toLost_stands {h : Hw} {n : Nat} (up : h.linkUp n = true) (dark : Bool) : LinksStand (h.lose n dark) (h.toLost n dark) := by
  unfold Hw.toLost
  rw [if_neg (by simp [up])]
  refine LinksStand.trans (LinksStand.trans ?_ (Follows.of_send (Hw.count_send _ _ _ _ _)).stand) (Hw.sendLinkState_stands _ _)
  exact h.leaveUp_stands n fun h => h.lose n dark

theorem Hw.lose_fld (h : Hw) (n : Nat) (dark : Bool) {f : Fld} (inside : f.lo + f.width ≤ 64) (low : f.lo + f.width ≤ 12 ∨ 16 ≤ f.lo) :
    (h.lose n dark).fld (.portLink n) f =
      (((h.setLink n { h.link n with since := h.slot (portDie n), peerBefore := (h.link n).peer, light := !dark }).setLinkState n 4).setFld
        (.portLink n) Fld.portLink_retryHeld (if h.retryOn n then 1 else 0)).fld (.portLink n) f := by
  unfold Hw.lose
  extract_lets l h1 h2
  split
  · exact Hw.fld_setFld_apart _ _ _ inside low
  · rfl

theorem Hw.toLost_spec {h : Hw} {n : Nat} (up : h.linkUp n = true) (dark : Bool) :
    (h.toLost n dark).linkState n = 4 ∧ (h.toLost n dark).bit (.portLink n) Fld.portLink_retryHeld = h.retryOn n ∧
    (h.toLost n dark).fld (.portLink n) Fld.portLink_peerOslux = h.fld (.portLink n) Fld.portLink_peerOslux ∧
    ((h.toLost n dark).link n).peer = (h.link n).peer := by
  have stand := Hw.toLost_stands up dark
  refine ⟨?_, ?_, ?_, ?_⟩
  · rw [stand.linkState, Hw.linkState, Hw.lose_fld _ _ _ (by decide) (by decide), Hw.fld_setFld_apart]
    exact Hw.setLinkState_linkState _ _
  · rw [Hw.bit, stand.fld, Hw.lose_fld _ _ _ (by decide) (by decide), Hw.fld_setFld_self]
    cases h.retryOn n <;> rfl
  · rw [stand.fld, Hw.lose_fld _ _ _ (by decide) (by decide), Hw.fld_setFld_apart, Hw.setLinkState_fld]
    rfl
  · rw [stand.read n Link.peer]
    have same : (h.lose n dark).lgt =
        (h.setLink n { h.link n with since := h.slot (portDie n), peerBefore := (h.link n).peer, light := !dark }).lgt := by
      unfold Hw.lose
      extract_lets l h1 h2
      have moved : h2.lgt = h1.lgt := Hw.setLinkState_lgt _ _ _
      split <;> exact moved
    rw [Hw.link_congr same, Hw.link_setLink_self]

theorem Hw.toDown_spec (h : Hw) (n : Nat) : (h.toDown n).linkState n = 5 ∧
    (h.toDown n).bit (.portLink n) Fld.portLink_retryHeld = false ∧ ((h.toDown n).link n).held = [] := by
  have stand : LinksStand (h.fall n) (h.toDown n) := by
    have left := h.leaveUp_stands n fun h => h.fall n
    unfold Hw.toDown
    dsimp only
    split
    · exact left.trans (Hw.sendLinkState_stands _ _)
    · exact left
  refine ⟨?_, ?_, ?_⟩
  · rw [stand.linkState]
    exact Hw.setLinkState_linkState _ _
  · rw [Hw.bit, stand.fld, Hw.fall, Hw.setLinkState_fld, Hw.setMasks_fld, Hw.clearRetry, Hw.fld_setFld_self]
    rfl
  · rw [stand.read n Link.held, Hw.fall, Hw.link_congr (Hw.setLinkState_lgt _ _ _)]
    show ((h.setLink n _).link n).held = []
    rw [Hw.link_setLink_self]

theorem Hw.toDark_spec (h : Hw) (n : Nat) : (h.toDark n).linkState n = 0 ∧ OnlyPort n h (h.toDark n) := by
  constructor
  · refine ((h.leaveUp_stands n _).linkState n).trans ?_
    show (Hw.setFld _ _ _ _).linkState n = 0
    rw [Hw.linkState, Hw.fld_setFld_apart]
    exact Hw.setLinkState_linkState _ _
  · refine Hw.leaveUp_onlyPort ?_
    refine OnlyPort.trans ?_ (.setLink _ _)
    refine OnlyPort.trans ?_ (.setFld _ _ _)
    refine OnlyPort.trans ?_ (Hw.setLinkState_onlyPort _ _ _)
    exact (Hw.clearRetry_onlyPort _ _).trans (Hw.setMasks_onlyPort _ _ _ _)

/-! ### Entry into UP (R229, R234, R235) -/

/-- The retry state that a port resumes or clears leaves the peer and PORT_LINK but for RETRY_HELD. -/
theorem Hw.resumeRetry_spec (h : Hw) (n : Nat) : ((h.resumeRetry n).link n).peer = (h.link n).peer ∧
    ∀ f : Fld, f.lo + f.width ≤ 64 → f.lo + f.width ≤ 17 ∨ 18 ≤ f.lo →
      (h.resumeRetry n).fld (.portLink n) f = h.fld (.portLink n) f := by
  have cleared (k : Nat) : (((h.retryLoss n k).clearRetry n).link n).peer = (h.link n).peer ∧
      ∀ f : Fld, f.lo + f.width ≤ 64 → f.lo + f.width ≤ 17 ∨ 18 ≤ f.lo →
        ((h.retryLoss n k).clearRetry n).fld (.portLink n) f = h.fld (.portLink n) f := by
    have lost : LinksStand h (h.retryLoss n k) := (Follows.of_send (Hw.retryLoss_send h n k)).stand
    constructor
    · show ((Hw.setLink _ n _).link n).peer = _
      rw [Hw.link_setLink_self]
      exact lost.read n Link.peer
    · intro f inside apart
      rw [Hw.clearRetry, Hw.fld_setFld_apart _ _ _ inside apart]
      exact lost.fld n f
  unfold Hw.resumeRetry
  extract_lets l
  split
  · split
    · refine ⟨?_, fun f inside apart => Hw.fld_setFld_apart _ _ _ inside apart⟩
      show ((Hw.setLink _ n _).link n).peer = _
      rw [Hw.link_setLink_self]
      rfl
    · exact cleared _
  · exact cleared _

/-- The port itself enters UP. -/
def Hw.rise (h : Hw) (n : Nat) : Hw :=
  let g := h.setFld (.portLink n) Fld.portLink_trainNs (min ((h.slot (portDie n) - (h.link n).since) * 25 / 16) (2 ^ 32 - 1))
  let g := g.setMasks n (g.fullMask n) (g.goodLanes n)
  let g := (g.resumeRetry n).setFld (.portFwd n) Fld.portFwd_peerVent 0
  (g.setLink n { g.link n with light := true }).setLinkState n 3

theorem Hw.enterUp_stands (h : Hw) (n : Nat) : LinksStand (h.rise n) (h.enterUp n) := by
  have risen : LinksStand (h.rise n) ((((h.withPorts [n] fun h => h.rise n).sendLinkState n).overbook n).circuitUp n) :=
    (((Follows.withPorts h [n] fun h => h.rise n).stand.trans (Hw.sendLinkState_stands _ _)).trans (Hw.overbook_follows _ _).stand).trans
      (Hw.circuitUp_follows _ _).stand
  unfold Hw.enterUp
  extract_lets q h1 h2
  split
  · exact risen
  · exact risen.trans (Follows.of_send (Hw.ventNotice_send _ _ _ _)).stand

theorem Hw.rise_fld (h : Hw) (n : Nat) {f : Fld} (inside : f.lo + f.width ≤ 17) (low : 3 ≤ f.lo) :
    ∃ g, LinkOnly h g ∧ g.link n = h.link n ∧ g.fld (.portLink n) f = h.fld (.portLink n) f ∧
      (h.rise n).fld (.portLink n) f = (g.setMasks n (g.fullMask n) (g.goodLanes n)).fld (.portLink n) f := by
  unfold Hw.rise
  extract_lets h1 h2 h3
  refine ⟨h1, LinkOnly.setFld h _ _ _ rfl, rfl, Hw.fld_setFld_apart h _ _ (by omega) (Or.inl (le_trans inside (by decide))), ?_⟩
  rw [Hw.setLinkState_fld _ _ _ (by omega) (Or.inr low)]
  show h3.fld (.portLink n) f = _
  rw [Hw.fld_setFld_ne _ (by simp)]
  exact (Hw.resumeRetry_spec h2 n).2 f (by omega) (Or.inl inside)

theorem Hw.enterUp_spec (h : Hw) (n : Nat) : (h.enterUp n).linkState n = 3 ∧
    (h.enterUp n).fld (.portLink n) Fld.portLink_txMask = h.fullMask n ∧
    (h.enterUp n).fld (.portLink n) Fld.portLink_rxMask = h.goodLanes n ∧
    (h.enterUp n).fld (.portLink n) Fld.portLink_peerOslux = h.fld (.portLink n) Fld.portLink_peerOslux ∧
    ((h.enterUp n).link n).peer = (h.link n).peer := by
  have stand := h.enterUp_stands n
  refine ⟨?_, ?_, ?_, ?_, ?_⟩
  · rw [stand.linkState]
    exact Hw.setLinkState_linkState _ _
  · obtain ⟨g, only, -, -, same⟩ := h.rise_fld n (f := Fld.portLink_txMask) (by decide) (by decide)
    rw [stand.fld, same, Hw.setMasks_txMask _ _ _ (g.fullMask_lt n), only.fullMask]
  · obtain ⟨g, only, link, -, same⟩ := h.rise_fld n (f := Fld.portLink_rxMask) (by decide) (by decide)
    rw [stand.fld, same, Hw.setMasks_rxMask _ _ _ (g.goodLanes_lt n), only.goodLanes (by rw [link])]
  · obtain ⟨g, -, -, kept, same⟩ := h.rise_fld n (f := Fld.portLink_peerOslux) (by decide) (by decide)
    rw [stand.fld, same, Hw.setMasks_fld, kept]
  · rw [stand.read n Link.peer]
    unfold Hw.rise
    extract_lets h1 h2 h3
    rw [Hw.link_congr (Hw.setLinkState_lgt _ _ _), Hw.link_setLink_self]
    exact (Hw.resumeRetry_spec h2 n).1

end Sys2Proof.Machine
end

section
/-! PROOFS. The ends of a training (R224, R229), the loss and the return of a link (R229, R235) and the commands of LINK_CTL (R237): O9,
O10 and O11. -/

namespace Sys2Proof.Machine

/-! ### FEC lock (R229) -/

theorem Hw.calibrateLane_only (h : Hw) (k : Nat) : LinkOnly h (h.calibrateLane k) ∧ LinksStand h (h.calibrateLane k) := by
  have drawn (g : Hw) : Only sendParts Reg.isNote g g.draw.2 := Hw.draw_send g
  have part : Part.lgt ∈ linkParts := List.mem_cons_self
  exact ⟨(LinkOnly.of_send ((drawn h).trans (drawn _))).trans (Only.lgt _ _ part), ⟨fun _ => rfl, fun _ => rfl, rfl⟩⟩

/-- A full training has calibrated the lanes. -/
def Hw.calibrated (h : Hw) (n : Nat) : Hw := if h.linkState n = 1 then (h.lanesOf n).foldl (fun h k => h.calibrateLane k) h else h

theorem Hw.calibrated_only (h : Hw) (n : Nat) : LinkOnly h (h.calibrated n) ∧ LinksStand h (h.calibrated n) := by
  have lanes (l : List Nat) (g : Hw) : LinkOnly g (l.foldl (fun h k => h.calibrateLane k) g) ∧
      LinksStand g (l.foldl (fun h k => h.calibrateLane k) g) := by
    induction l generalizing g with
    | nil => exact ⟨.refl g, .refl g⟩
    | cons k l ih =>
      obtain ⟨only, stand⟩ := g.calibrateLane_only k
      obtain ⟨onlys, stands⟩ := ih (g.calibrateLane k)
      exact ⟨only.trans onlys, stand.trans stands⟩
  unfold Hw.calibrated
  split
  · exact lanes _ h
  · exact ⟨.refl h, .refl h⟩

/-- The port has FEC lock and has told its peer. -/
def Hw.locked (h : Hw) (n : Nat) : Hw :=
  let g := h.calibrated n
  let g := g.setLink n { g.link n with lockAt := some (g.slot (portDie n)), light := true }
  (g.setMasks n (g.fullMask n) (g.goodLanes n)).sendLinkState n

theorem Hw.locked_spec (h : Hw) (n : Nat) : LinkOnly h (h.locked n) ∧ (h.locked n).linkState n = h.linkState n ∧
    (h.locked n).capable n = h.capable n ∧ (h.locked n).goodLanes n = h.goodLanes n ∧
    ((h.locked n).link n).lockAt = some (h.slot (portDie n)) := by
  obtain ⟨calibrated, stand⟩ := h.calibrated_only n
  have only : LinkOnly h (h.locked n) :=
    ((calibrated.trans (LinkOnly.setLink _ _ _)).trans (Hw.setMasks_link _ _ _ _)).trans (Hw.sendLinkState_link _ _)
  unfold Hw.locked
  extract_lets g w g2
  replace only : LinkOnly h ((g2.setMasks n (g2.fullMask n) (g2.goodLanes n)).sendLinkState n) := only
  have sent := Hw.sendLinkState_stands (g2.setMasks n (g2.fullMask n) (g2.goodLanes n)) n
  have fld {f : Fld} (inside : f.lo + f.width ≤ 64) (apart : f.lo + f.width ≤ 8 ∨ 16 ≤ f.lo) :
      ((g2.setMasks n (g2.fullMask n) (g2.goodLanes n)).sendLinkState n).fld (.portLink n) f = h.fld (.portLink n) f := by
    rw [sent.fld, Hw.setMasks_fld _ _ _ _ inside apart]
    exact stand.fld n f
  have link : g2.link n = { g.link n with lockAt := some (g.slot (portDie n)), light := true } := Hw.link_setLink_self _ _ _
  refine ⟨only, fld (f := Fld.portLink_state) (by decide) (by decide), ?_, only.goodLanes ?_, ?_⟩
  · rw [Hw.capable, only.oslux, Hw.bit, fld (f := Fld.portLink_peerOslux) (by decide) (by decide), Hw.capable, Hw.bit]
  · refine (sent.read n Link.stuck).trans ?_
    show (g2.link n).stuck = _
    rw [link]
    exact stand.read n Link.stuck
  · refine (sent.read n Link.lockAt).trans ?_
    show (g2.link n).lockAt = _
    rw [link, calibrated.slot]

theorem Hw.trainingComplete_eq {h : Hw} {n : Nat} (live : h.linkLive n = true) (lanes : h.lanesSuffice n = true)
    (bound : (h.linkState n = 1 ∧ h.linkAge n ≤ 50 * slotsMs) ∨ (h.linkState n = 2 ∧ h.linkAge n ≤ 100 * slotsUs)) :
    h.trainingComplete n = if (h.locked n).capable n then (h.locked n).enterUp n else h.locked n := if_pos ⟨live, lanes, bound⟩

/-- Settles O9: a training that locks is `Hw.locked`, after which a capable peer lets the port enter UP; the three timers end in `Hw.toDown`
or in a full training. -/
theorem trainingEnds : Obligations.TrainingEnds := by
  unfold Obligations.TrainingEnds
  refine ⟨fun p s live lanes bound => ?complete, fun p s live training late => ?timeout, fun p s live retraining noLock late => ?retrain,
    fun p k s live oslux training other lock late => ?noPeer⟩
  case complete =>
    have run := Hw.trainingComplete_eq live lanes bound
    obtain ⟨only, state, capable, good, lockAt⟩ := s.hw.locked_spec p
    constructor
    · intro peer
      rw [if_pos (capable.trans peer)] at run
      obtain ⟨up, tx, rx, -, -⟩ := (s.hw.locked p).enterUp_spec p
      rw [← run] at up tx rx
      refine ⟨_, rfl, up, tx.trans (only.fullMask p), rx.trans good, OnlyHw.of_onHw ?_⟩
      rw [run]
      exact only.trans (Hw.enterUp_link _ _)
    · intro peer
      rw [if_neg (by simp [capable, peer])] at run
      rw [← run] at only state lockAt
      exact ⟨_, rfl, state, lockAt, OnlyHw.of_onHw only⟩
  case timeout =>
    have run : s.hw.trainingTimeout p = (s.hw.trainFail p).toDown p := if_pos ⟨live, training, late⟩
    obtain ⟨down, -, -⟩ := (s.hw.trainFail p).toDown_spec p
    have only : LinkOnly s.hw ((s.hw.trainFail p).toDown p) := (LinkOnly.of_send (Hw.record_send _ _)).trans (Hw.toDown_link _ _)
    rw [← run] at down only
    exact ⟨_, rfl, down, OnlyHw.of_onHw only⟩
  case retrain =>
    have run : s.hw.retrainTimeout s.nv p = s.hw.startTraining s.nv p false := if_pos ⟨live, retraining, noLock, late⟩
    have began := (s.hw.startTraining_spec s.nv p false).1
    have only := s.hw.startTraining_link s.nv p false
    rw [← run] at began only
    exact ⟨_, rfl, by simpa using began, OnlyHw.of_onHw only⟩
  case noPeer =>
    have run : s.hw.noOsluxPeer p = (s.hw.record { code := 0x0201, die := portDie p, unit := p }).toDown p := by
      rw [Hw.noOsluxPeer, lock]
      exact if_pos ⟨live, oslux, training, other, late⟩
    obtain ⟨down, -, -⟩ := (s.hw.record { code := 0x0201, die := portDie p, unit := p }).toDown_spec p
    have only : LinkOnly s.hw ((s.hw.record { code := 0x0201, die := portDie p, unit := p }).toDown p) :=
      (LinkOnly.of_send (Hw.record_send _ _)).trans (Hw.toDown_link _ _)
    rw [← run] at down only
    exact ⟨_, rfl, down, OnlyHw.of_onHw only⟩

/-! ### Loss and return (R229, R235) -/

/-- Settles O10: `Hw.toLost`, `Hw.startTraining` and `Hw.toDown` as each event's condition lets them run. -/
theorem linkLossAndReturn : Obligations.LinkLossAndReturn := by
  unfold Obligations.LinkLossAndReturn
  refine ⟨fun p c s live up => ?lost, fun p s live lost => ?returns, fun p s live down => ?light, fun p s live lost late => ?expires,
    fun p s live down light enabled due => ?retry⟩
  case lost =>
    have run : s.hw.linkLost p c = s.hw.toLost p (c == .dark) := if_pos live
    obtain ⟨state, held, -, -⟩ := Hw.toLost_spec up (c == .dark)
    have only := s.hw.toLost_link p (c == .dark)
    rw [← run] at state held only
    exact ⟨_, rfl, state, held, OnlyHw.of_onHw only⟩
  case returns =>
    have run : s.hw.lightReturn s.nv p = (s.hw.setLink p { s.hw.link p with light := true }).startTraining s.nv p true :=
      if_pos ⟨live, lost⟩
    obtain ⟨state, -, -⟩ := (s.hw.setLink p { s.hw.link p with light := true }).startTraining_spec s.nv p true
    have only : LinkOnly s.hw _ := (LinkOnly.setLink s.hw p { s.hw.link p with light := true }).trans (Hw.startTraining_link _ s.nv p true)
    rw [← run] at state only
    exact ⟨_, rfl, state, OnlyHw.of_onHw only⟩
  case light =>
    have run : s.hw.lightReturn s.nv p = s.hw.setLink p { s.hw.link p with light := true } := by
      rw [Hw.lightReturn, if_neg (by simp [down]), if_pos ⟨live, down⟩]
    refine ⟨_, rfl, ?_, OnlyHw.of_onHw ?_⟩
    · rw [State.onHw_hw, run, Hw.link_setLink_self]
    · rw [run]
      exact Hw.setLink_only _ _ _ List.mem_cons_self
  case expires =>
    have run : s.hw.lossHoldExpire p = s.hw.toDown p := if_pos ⟨live, lost, late⟩
    obtain ⟨state, retry, held⟩ := s.hw.toDown_spec p
    have only := s.hw.toDown_link p
    rw [← run] at state retry held only
    exact ⟨_, rfl, state, retry, held, OnlyHw.of_onHw only⟩
  case retry =>
    generalize tried : s.hw.setLink p { s.hw.link p with lastTry := some (s.hw.slot (portDie p)) } = g
    have run : s.hw.downRetry s.nv p = g.startTraining s.nv p false := by
      rw [← tried]
      refine if_pos ⟨live, down, light, enabled, ?_⟩
      split
      · next k last => exact decide_eq_true (due k last)
      · rfl
    obtain ⟨state, last, -⟩ := g.startTraining_spec s.nv p false
    have only : LinkOnly s.hw (g.startTraining s.nv p false) :=
      (tried ▸ LinkOnly.setLink s.hw p _ : LinkOnly s.hw g).trans (Hw.startTraining_link _ _ _ _)
    have noted : (g.link p).lastTry = some (s.hw.slot (portDie p)) := by rw [← tried, Hw.link_setLink_self]
    rw [← run] at state last only
    exact ⟨_, rfl, by simpa using state, last.trans noted, OnlyHw.of_onHw only⟩

/-! ### LINK_CTL (R229, R237) -/

section
variable {h : Hw} {n : Nat}

theorem Hw.linkCommand_of_dark (v : Nv) (fast : Bool) (start : h.portStart n = true) (reach : h.quadReach (portDie n) = true)
    (dark : h.linkState n = 0) : h.linkCommand v n fast = h.setFld (.linkCtl n) Fld.linkCtl_cmdErr 1 := by
  simp [Hw.linkCommand, start, reach, dark]

theorem Hw.rejoin_of_dark (start : h.portStart n = true) (reach : h.quadReach (portDie n) = true) (dark : h.linkState n = 0) :
    h.rejoin n = h.setFld (.linkCtl n) Fld.linkCtl_cmdErr 1 := by simp [Hw.rejoin, start, reach, dark]

/-- Outside DARK a training command leaves UP, if the port is there, and trains. -/
theorem Hw.linkCommand_spec (v : Nv) (fast : Bool) (start : h.portStart n = true) (reach : h.quadReach (portDie n) = true)
    (lit : h.linkState n ≠ 0) : (h.linkCommand v n fast).linkState n = (if fast && h.calReady v n then 2 else 1) ∧
      LinkOnly h (h.linkCommand v n fast) := by
  unfold Hw.linkCommand
  rw [if_neg (by simp [start, reach]), if_neg lit]
  extract_lets l g
  have noted : LinkOnly h g := by
    show LinkOnly h (if h.linkUp n then h.setLink n { l with peerBefore := l.peer } else h)
    split
    · exact .setLink _ _ _
    · exact .refl h
  constructor
  · rw [(g.leaveUp_stands n _).linkState, (g.startTraining_spec v n fast).1, noted.calReady]
  · exact noted.trans (Hw.leaveUp_link _ _ _ (Hw.startTraining_link _ _ _ _))

end

/-- Settles O11: outside DARK `Hw.linkCommand_spec`; in DARK each command is the write of CMD_ERR. -/
theorem linkCommandsTrain : Obligations.LinkCommandsTrain := by
  unfold Obligations.LinkCommandsTrain
  intro p s start reach
  constructor
  · intro lit
    obtain ⟨full, fullOnly⟩ := Hw.linkCommand_spec s.nv false start reach lit
    obtain ⟨fast, fastOnly⟩ := Hw.linkCommand_spec s.nv true start reach lit
    have run : s.hw.rejoin p = s.hw.setLink p { s.hw.link p with stuck := 0, fails := [] } := by simp [Hw.rejoin, start, reach, lit]
    refine ⟨⟨_, rfl, by simpa using full, OnlyHw.of_onHw fullOnly⟩, ⟨_, rfl, by simpa using fast, OnlyHw.of_onHw fastOnly⟩, _, rfl, ?_⟩
    rw [State.onHw_hw, run, Hw.link_setLink_self]
    refine ⟨rfl, rfl, OnlyHw.of_onHw ?_⟩
    rw [run]
    exact Hw.setLink_only _ _ _ List.mem_cons_self
  · intro dark c command
    have refused : ∃ f : Hw → Hw, exec c s = .next (s.onHw f) ∧ f s.hw = s.hw.setFld (.linkCtl p) Fld.linkCtl_cmdErr 1 := by
      rcases command with rfl | rfl | rfl
      · exact ⟨_, rfl, Hw.linkCommand_of_dark _ _ start reach dark⟩
      · exact ⟨_, rfl, Hw.linkCommand_of_dark _ _ start reach dark⟩
      · exact ⟨_, rfl, Hw.rejoin_of_dark start reach dark⟩
    obtain ⟨f, ran, run⟩ := refused
    refine ⟨_, ran, ?_, OnlyHw.of_onHw ?_⟩
    · rw [State.onHw_hw, run, Hw.bit, Hw.fld_setFld_self]
      rfl
    · rw [run]
      exact Only.setFld (P := fun r => r = .linkCtl p) _ _ _ _ rfl

end Sys2Proof.Machine
end

section
/-! PROOFS. Narrowing (R236 to R238), LINK_STATE (R234, R235) and link-layer retry (R230, R231): O12 and O13. -/

namespace Sys2Proof.Machine

/-! ### Lanes that fail and rejoin (R236, R237) -/

/-- The failure of lane `l` of port `n` is counted and noted. -/
def Hw.laneNoted (h : Hw) (n l : Nat) : Hw := (h.count (portDie n) 0x046 (n + l) 1).noteFail n l

/-- Lane `l` of port `n` is out: its failure is noted, and its bit of RX_MASK is cleared. -/
def Hw.laneOut (h : Hw) (n l : Nat) : Hw :=
  ((h.laneNoted n l).setLink n { (h.laneNoted n l).link n with
      outAt := aput l ((h.laneNoted n l).slot (portDie n)) ((h.laneNoted n l).link n).outAt }).setFld (.portLink n) Fld.portLink_rxMask
    (h.fld (.portLink n) Fld.portLink_rxMask - 2 ^ l)

theorem Hw.noteFail_only (h : Hw) (n l : Nat) :
    LinkOnly h (h.noteFail n l) ∧ ∀ m, (h.noteFail n l).reg (.portLink m) = h.reg (.portLink m) := by
  unfold Hw.noteFail
  dsimp only
  split
  · exact ⟨(LinkOnly.setLink _ _ _).trans (.of_send (Hw.record_send _ _)), (Follows.of_send (Hw.record_send _ _)).portLink⟩
  · exact ⟨.setLink _ _ _, fun _ => rfl⟩

theorem Hw.laneNoted_only (h : Hw) (n l : Nat) :
    LinkOnly h (h.laneNoted n l) ∧ ∀ m, (h.laneNoted n l).reg (.portLink m) = h.reg (.portLink m) := by
  have counted := Follows.of_send (Hw.count_send h (portDie n) 0x046 (n + l) 1)
  obtain ⟨only, stands⟩ := Hw.noteFail_only (h.count (portDie n) 0x046 (n + l) 1) n l
  exact ⟨counted.linkOnly.trans only, fun m => (stands m).trans (counted.portLink m)⟩

theorem Hw.laneOut_spec (h : Hw) (n l : Nat) : LinkOnly h (h.laneOut n l) ∧ (h.laneOut n l).linkState n = h.linkState n ∧
    (h.laneOut n l).fld (.portLink n) Fld.portLink_rxMask = h.fld (.portLink n) Fld.portLink_rxMask - 2 ^ l := by
  have rx : h.fld (.portLink n) Fld.portLink_rxMask < 16 := Fld.get_lt _ _
  obtain ⟨only, stands⟩ := h.laneNoted_only n l
  unfold Hw.laneOut
  refine ⟨(only.trans (.setLink _ _ _)).trans (.setFld _ _ _ _ rfl), ?_, ?_⟩
  · rw [Hw.linkState, Hw.fld_setFld_apart, Hw.fld, Hw.setLink_reg, stands]
    rfl
  · rw [Hw.fld_setFld_self]
    exact Nat.mod_eq_of_lt (lt_of_le_of_lt (Nat.sub_le _ _) rx)

section
variable {h : Hw} {n l : Nat}

/-- Where a port does not narrow, the failure of a lane is its loss (R236). -/
theorem Hw.laneFail_of_whole (live : h.linkLive n = true) (up : h.linkUp n = true)
    (used : Nat.testBit (h.fld (.portLink n) Fld.portLink_rxMask) l = true)
    (whole : h.portLanes n = 1 ∨ h.oslux n = false ∨ h.bit (.octetCfg (n / 8)) Fld.octetCfg_narrowEn = false) :
    h.laneFail n l = h.toLost n true := by
  unfold Hw.laneFail
  rw [if_neg (by simp [live, up, used]), if_pos whole]

theorem Hw.laneFail_of_narrow (live : h.linkLive n = true) (up : h.linkUp n = true)
    (used : Nat.testBit (h.fld (.portLink n) Fld.portLink_rxMask) l = true)
    (narrow : ¬(h.portLanes n = 1 ∨ h.oslux n = false ∨ h.bit (.octetCfg (n / 8)) Fld.octetCfg_narrowEn = false)) :
    h.laneFail n l = if h.fld (.portLink n) Fld.portLink_rxMask - 2 ^ l = 0 then (h.laneOut n l).toLost n true
      else ((h.laneOut n l).sendLinkState n).widthChanged n := by
  unfold Hw.laneFail
  rw [if_neg (by simp [live, up, used]), if_neg narrow]
  rfl

/-- A new width is told to the peer and noted, and moves neither PORT_LINK nor a link (R234, R238). -/
theorem Hw.told_width (g : Hw) (n : Nat) : LinkOnly g ((g.sendLinkState n).widthChanged n) ∧
    LinksStand g ((g.sendLinkState n).widthChanged n) :=
  ⟨(Hw.sendLinkState_link g n).trans (Hw.widthChanged_follows _ n).linkOnly,
    (Hw.sendLinkState_stands g n).trans (Hw.widthChanged_follows _ n).stand⟩

end

/-! ### The LINK_STATE frame (R230, R234) -/

/-- The CTRL bit of a sealed preamble is the one that was put. -/
theorem Preamble.ctrl_ofWord_seal (p : Preamble) : (Preamble.ofWord p.seal.word).ctrl = p.ctrl := by
  simp only [Preamble.ofWord, Preamble.word, Preamble.seal, BitVec.getLsbD_append]
  simp

theorem Hw.hdr_vframe (h : Hw) (hd : VHdr) (n : Nat) : (stampSource n (h.vframe hd [])).hdr = { hd with plen := 0 }.seal := by
  have body (d : VHdr) : VHdr.ofBytes (padTo 46 (d.bytes ++ [])) = d := by
    rw [padTo, List.append_assoc]
    exact headerBytesRoundTrip.1 _ _
  exact body _

theorem Hw.nakSent_only {ps : List Part} {P : Reg → Prop} (h : Hw) (n : Nat) (part : Part.lgt ∈ ps) : Only ps P h (h.nakSent n) :=
  Hw.preambleSent_only h n true part

theorem Hw.told_only (h : Hw) (n : Nat) (f : Frame) : Only [.lgt, .out] (fun r => r.isCnt = true) h (h.told n f) := by
  refine Only.trans ?_ (Hw.setLink_only _ _ _ List.mem_cons_self)
  exact (Hw.frameOut_only _ _ _ _ (by simp)).trans (Hw.nakSent_only _ _ List.mem_cons_self)

/-- A port that can send LINK_STATE sends it in a preamble outside the retry sequence, and notes the time. -/
theorem Hw.sendLinkState_spec {h : Hw} {n : Nat} (may : h.MayTell n) : ∃ l pre f,
    (h.sendLinkState n).out = l ++ .frame n (some pre) f :: h.out ∧ (Preamble.ofWord pre).ctrl = true ∧ f.hdr.opcode = 0x74 ∧
    ((h.sendLinkState n).link n).lsAt = h.slot (portDie n) ∧ Only linkParts Reg.isDone h (h.sendLinkState n) := by
  obtain ⟨hd, opcode, run⟩ := Hw.sendLinkState_of_may may
  generalize frame : stampSource n (h.vframe hd []) = f at run
  obtain ⟨seen, l, out⟩ := Hw.mirrors_ended (h.told n f) n 1 1 f
  have told := h.told_only n f
  rw [← run] at seen out
  have pre : ∃ pre, h.preamble n (h.link n).txSeq true = some pre ∧ (Preamble.ofWord pre).ctrl = true := by
    unfold Hw.preamble
    rw [if_pos may.1]
    exact ⟨_, rfl, Preamble.ctrl_ofWord_seal _⟩
  obtain ⟨pre, fixed, ctrl⟩ := pre
  have left : (h.told n f).out = .frame n (some pre) f :: h.out := by
    rw [← fixed, ← Hw.frameOut_out]
    exact (Hw.nakSent_only (ps := [.lgt]) (P := noRegs) _ n List.mem_cons_self).parts .out (by simp)
  refine ⟨l, pre, f, by rw [← out, left], ctrl, ?_, ?_, (told.mono ?_ ?_).trans (seen.mono ?_ ?_)⟩
  · rw [← frame, Hw.hdr_vframe]
    exact opcode
  · rw [Hw.link_congr (seen.parts .lgt (by simp))]
    refine (congrArg Link.lsAt (Hw.link_setLink_self _ _ _)).trans ?_
    have sent : Only [.lgt, .out] (fun r => r.isCnt = true) h ((h.frameOut n (h.preamble n (h.link n).txSeq true) f).nakSent n) :=
      (Hw.frameOut_only _ _ _ _ (by simp)).trans (Hw.nakSent_only _ _ List.mem_cons_self)
    exact congrArg (fun t => t.slot.get (portDie n)) (sent.parts .tim (by simp))
  · simp [linkParts]
  · exact fun _ cnt => Or.inl (Or.inl cnt)
  · simp [linkParts, pathParts, sendParts]
  · rintro r (cnt | ring)
    · exact Or.inl (Or.inl cnt)
    · exact Or.inr ring

theorem Hw.linkLive_not_fatal {h : Hw} {n : Nat} (live : h.linkLive n = true) : h.fatalChip = false ∧ h.fatalQ (portDie n) = false := by
  simp only [Hw.linkLive, Bool.and_eq_true, Bool.not_eq_true'] at live
  tauto

/-- Settles O12: a narrowing port is `Hw.laneOut`, told to the peer; the last lane and a port that does not narrow are `Hw.toLost`. -/
theorem lanesNarrowAndRejoin : Obligations.LanesNarrowAndRejoin := by
  unfold Obligations.LanesNarrowAndRejoin
  refine ⟨fun p l s live up used => ?fail, fun p l s live up oslux inside unused free clean => ?rejoin, fun p s live up oslux due => ?timer⟩
  case fail =>
    obtain ⟨only, state, rx⟩ := s.hw.laneOut_spec p l
    have stillUp : (s.hw.laneOut p l).linkUp p = true := by rw [Hw.linkUp, state, ← Hw.linkUp, up]
    constructor
    · intro oslux lanes narrow more
      have run := Hw.laneFail_of_narrow live up used (by simp [lanes, oslux, narrow])
      have lane : 2 ^ l.val ≤ s.hw.fld (.portLink p) Fld.portLink_rxMask := Nat.ge_two_pow_of_testBit used
      rw [if_neg (by omega)] at run
      obtain ⟨told, stand⟩ := (s.hw.laneOut p l).told_width p
      rw [← run] at told stand
      exact ⟨_, rfl, ((stand.linkState p).trans state).trans (by simpa [Hw.linkUp] using up), (stand.fld p _).trans rx,
        OnlyHw.of_onHw (only.trans told)⟩
    · intro lost
      by_cases whole : s.hw.portLanes p = 1 ∨ s.hw.oslux p = false ∨ s.hw.bit (.octetCfg (p / 8)) Fld.octetCfg_narrowEn = false
      · have run := Hw.laneFail_of_whole live up used whole
        have down := (Hw.toLost_spec up true).1
        have told := s.hw.toLost_link p true
        rw [← run] at down told
        exact ⟨_, rfl, down, OnlyHw.of_onHw told⟩
      · have last : s.hw.fld (.portLink p) Fld.portLink_rxMask = 2 ^ l.val := by tauto
        have run := Hw.laneFail_of_narrow live up used whole
        rw [if_pos (by omega)] at run
        have down := (Hw.toLost_spec stillUp true).1
        have told := only.trans ((s.hw.laneOut p l).toLost_link p true)
        rw [← run] at down told
        exact ⟨_, rfl, down, OnlyHw.of_onHw told⟩
  case rejoin =>
    have room : ∀ k : Fin 4, ∀ rx < 16, Nat.testBit rx k = false → rx + 2 ^ k.val < 16 := by decide
    have small := room l _ (Fld.get_lt _ _) unused
    generalize counted : s.hw.count (portDie p) 0x047 (p + l) 1 = g
    have follows : Follows s.hw g := counted ▸ Follows.of_send (Hw.count_send _ _ _ _ _)
    have run : s.hw.laneRejoin p l = ((g.setFld (.portLink p) Fld.portLink_rxMask
        (s.hw.fld (.portLink p) Fld.portLink_rxMask + 2 ^ l.val)).sendLinkState p).widthChanged p := by
      rw [← counted]
      refine if_pos ⟨live, up, oslux, inside, unused, free, ?_⟩
      split
      · next k out => exact decide_eq_true (clean k out)
      · rfl
    generalize widened : g.setFld (.portLink p) Fld.portLink_rxMask (s.hw.fld (.portLink p) Fld.portLink_rxMask + 2 ^ l.val) = k at run
    obtain ⟨told, stand⟩ := k.told_width p
    have only : LinkOnly s.hw k := widened ▸ follows.linkOnly.trans (.setFld _ _ _ _ rfl)
    rw [← run] at told stand
    refine ⟨_, rfl, (stand.linkState p).trans ?_, (stand.fld p _).trans ?_, OnlyHw.of_onHw (only.trans told)⟩
    · rw [← widened, Hw.linkState, Hw.fld_setFld_apart]
      exact (follows.stand.linkState p).trans (by simpa [Hw.linkUp] using up)
    · rw [← widened, Hw.fld_setFld_self]
      exact Nat.mod_eq_of_lt small
  case timer =>
    have run : s.hw.linkStateTimer p = s.hw.sendLinkState p := if_pos ⟨live, up, due⟩
    obtain ⟨chip, quad⟩ := Hw.linkLive_not_fatal live
    obtain ⟨l, pre, f, out, ctrl, opcode, lsAt, only⟩ := Hw.sendLinkState_spec (h := s.hw) (n := p) ⟨oslux, chip, quad⟩
    rw [← run] at out lsAt only
    exact ⟨_, l, pre, f, rfl, out, ctrl, opcode, lsAt, OnlyHw.of_onHw only⟩

/-! ### Consumed frames stand where a link changes (R97) -/

theorem Hw.dropCopies_taken (h : Hw) (id : Nat) (p : Copy → Bool) : (h.dropCopies id p).buf.taken = h.buf.taken := by
  unfold Hw.dropCopies
  split
  · rfl
  · exact foldl_keeps (fun g : Hw => g.buf.taken) (fun g c => congrArg Buf.taken (Hw.onEmpty_buf g _ _)) _ _

theorem Hw.sampleCopy_taken (h : Hw) (x : Held) (n outcome : Nat) : (h.sampleCopy x n outcome).buf.taken = h.buf.taken := by
  unfold Hw.sampleCopy
  split
  · split
    · rw [← Hw.sampleHeld_buf h x (some n) outcome 0]
      rfl
    · rfl
  · rfl

theorem Hw.exhausted_taken (h : Hw) (x : Held) : (h.exhausted x).buf.taken = h.buf.taken := by
  refine (Hw.notice_taken _ _ _ _ _).trans ((Hw.dropCopies_taken _ _ _).trans ?_)
  rw [Hw.sampleHeld_buf, Hw.count_buf]

theorem Hw.mapHeld_taken (h : Hw) (i : Nat) (f : Held → Held) : (h.mapHeld i f).buf.taken = h.buf.taken := rfl

theorem Hw.noteSource_taken (h : Hw) (q n t : Nat) (src : Option Node) : (h.noteSource q n t src).buf.taken = h.buf.taken := rfl

theorem Hw.bpNotice_taken (h : Hw) (x : Held) (n t : Nat) : (h.bpNotice x n t).buf.taken = h.buf.taken := by
  unfold Hw.bpNotice
  dsimp only
  split
  · rfl
  · exact Hw.notice_taken _ _ _ _ _

theorem Hw.enterQueue_taken (h : Hw) (x : Held) (ports : List Nat) (spot : Spot) : (h.enterQueue x ports spot).buf.taken = h.buf.taken := by
  unfold Hw.enterQueue
  dsimp only
  rw [foldl_keeps (fun g : Hw => g.buf.taken) (fun g n => by rw [Hw.bpNotice_taken, Hw.noteSource_taken]), Hw.samplePoint, Hw.mapHeld_taken,
    Hw.joinAll_taken]

theorem Hw.spillMoved_taken (h : Hw) (q len : Nat) : (h.spillMoved q len).buf.taken = h.buf.taken := rfl

theorem Hw.enterAt_taken (h : Hw) (x : Held) (n : Nat) : (h.enterAt x n).buf.taken = h.buf.taken := by
  unfold Hw.enterAt
  split
  · exact Hw.enterQueue_taken _ _ _ _
  · dsimp only
    rw [Hw.enterQueue_taken, Hw.mapHeld_taken]
    split
    · rfl
    · rw [Hw.count_buf, Hw.spillMoved_taken]

theorem Hw.routeRoom_buf (h : Hw) (x : Held) (chosen : Nat) : (h.routeRoom x chosen).2.buf = h.buf := by
  unfold Hw.routeRoom
  cases x.route
  case spar s => exact Hw.sparParity_buf h x.die s
  all_goals rfl

theorem Hw.zoneSpar_buf (h : Hw) (q : Nat) (dst : Node) : (h.zoneSpar q dst).2.buf = h.buf := by
  unfold Hw.zoneSpar
  dsimp only
  split
  · exact Hw.parityMiss_buf _ _ _
  · rfl

theorem Hw.zoneRoom_buf (h : Hw) (x : Held) (dst : Node) (chosen : Nat) : (h.zoneRoom x dst chosen).2.buf = h.buf := by
  have read := h.zoneSpar_buf x.die dst
  unfold Hw.zoneRoom
  generalize h.zoneSpar x.die dst = r at read ⊢
  rcases r with ⟨_ | s, g⟩
  · exact read
  · exact (Hw.sparParity_buf g x.die s).trans read

theorem Hw.deflectPort_buf (h : Hw) (x : Held) (dst : Node) (chosen : Nat) : (h.deflectPort x dst chosen).2.buf = h.buf := by
  have route := h.routeRoom_buf x chosen
  unfold Hw.deflectPort
  generalize h.routeRoom x chosen = r at route ⊢
  rcases r with ⟨_ | n, g⟩
  · exact (g.zoneRoom_buf x dst chosen).trans route
  · exact route

theorem Hw.findsFull_taken (h : Hw) (x : Held) (chosen : Nat) : (h.findsFull x chosen).buf.taken = h.buf.taken := by
  unfold Hw.findsFull
  split
  · rfl
  next d _ =>
  split
  · rfl
  split
  · exact Hw.exhausted_taken _ _
  · have tried := Hw.deflectPort_buf h x d.dst chosen
    generalize h.deflectPort x d.dst chosen = r at tried ⊢
    rcases r with ⟨_ | n, g⟩
    · exact congrArg Buf.taken tried
    · dsimp only at tried ⊢
      rw [Hw.onEmpty_buf, Hw.enterAt_taken, ← tried, ← Hw.count_buf g x.die 0x031 x.cls 1]
      rfl

theorem Hw.linkLoss_taken (h : Hw) (n : Nat) : (h.linkLoss n).buf.taken = h.buf.taken := by
  refine foldl_keeps (fun g : Hw => g.buf.taken) (fun g x => ?_) _ h
  split
  · rfl
  next c _ =>
  split
  · refine (Hw.dropCopies_taken _ _ _).trans ((Hw.sampleCopy_taken _ _ _ _).trans ?_)
    split <;> simp
  split
  · exact Hw.findsFull_taken _ _ _
  · rfl

theorem Hw.events_buf (h : Hw) (i j : Nat) : ((h.hostEvent i).icEvent j).buf = h.buf :=
  ((Hw.icEvent_only _ j).parts .buf (by simp)).trans ((Hw.hostEvent_only h i).parts .buf (by simp))

theorem Hw.circuitLost_taken (h : Hw) (n : Nat) : (h.circuitLost n).buf.taken = h.buf.taken := by
  unfold Hw.circuitLost
  split
  · rfl
  dsimp only
  split
  · split
    · rw [Hw.reroute_taken, Hw.events_buf, Hw.setFld_buf]
    · rw [Hw.events_buf, Hw.setFld_buf]
  · rfl

theorem Hw.ventNotice_taken (h : Hw) (n scope st : Nat) : (h.ventNotice n scope st).buf.taken = h.buf.taken := by
  unfold Hw.ventNotice
  dsimp only
  split
  · rfl
  split
  · rw [Hw.count_buf]
  · exact Hw.originateOn_taken _ _ _ _ _ _

theorem Hw.circuitUp_taken (h : Hw) (n : Nat) : (h.circuitUp n).buf.taken = h.buf.taken := by
  unfold Hw.circuitUp
  split
  · rfl
  dsimp only
  split
  · rw [Hw.reroute_taken, Hw.ventNotice_taken]
    rfl
  · rfl

theorem Hw.setLinkState_buf (h : Hw) (n st : Nat) : (h.setLinkState n st).buf = h.buf := by
  unfold Hw.setLinkState
  split
  · rfl
  · rw [Hw.events_buf, Hw.setFld_buf]

theorem Hw.toRing_buf (h : Hw) (r : Nat) (b : List Byte) : (h.toRing r b).buf = h.buf :=
  (Hw.toRing_host h r b).parts .buf (by simp [hostParts])

theorem Hw.mirrorOne_buf (h : Hw) (m n dir t : Nat) (f : Frame) : (h.mirrorOne m n dir t f).buf = h.buf := by
  unfold Hw.mirrorOne
  extract_lets r every k w g b ring g'
  have noted : g'.buf = h.buf := by
    show (if g.ringTakes ring b.length then g else g.count (portDie n) 0x027 m 1).buf = h.buf
    split
    · rfl
    · exact Hw.count_buf g _ _ _ _
  split
  · rfl
  split
  · rfl
  split
  · exact (Hw.toRing_buf _ _ _).trans noted
  · rfl

theorem Hw.sendLinkState_buf (h : Hw) (n : Nat) : (h.sendLinkState n).buf = h.buf := by
  by_cases may : h.MayTell n
  · obtain ⟨hd, -, run⟩ := Hw.sendLinkState_of_may may
    rw [run]
    exact (foldl_keeps Hw.buf (fun g m => Hw.mirrorOne_buf g m n 1 1 _) _ _).trans ((Hw.told_only h n _).parts .buf (by simp))
  · rw [Hw.sendLinkState_of_not may]

theorem Hw.leaveUp_taken (h : Hw) (n : Nat) (f : Hw → Hw) : (h.leaveUp n f).buf.taken = (f h).buf.taken := by
  unfold Hw.leaveUp
  split
  · rw [Hw.linkLoss_taken, Hw.circuitLost_taken, Hw.withPorts_taken]
  · rfl

theorem Hw.lose_buf (h : Hw) (n : Nat) (dark : Bool) : (h.lose n dark).buf = h.buf := by
  unfold Hw.lose
  extract_lets l h1 h2
  have moved : h2.buf = h.buf := Hw.setLinkState_buf _ _ _
  split <;> exact moved

theorem Hw.toLost_taken (h : Hw) (n : Nat) (dark : Bool) : (h.toLost n dark).buf.taken = h.buf.taken := by
  unfold Hw.toLost
  split
  · rfl
  · dsimp only
    rw [Hw.sendLinkState_buf, Hw.count_buf, Hw.leaveUp_taken]
    exact congrArg Buf.taken (h.lose_buf n dark)

theorem Hw.resumeRetry_buf (h : Hw) (n : Nat) : (h.resumeRetry n).buf = h.buf := by
  have cleared (k : Nat) : ((h.retryLoss n k).clearRetry n).buf = h.buf := by
    show (h.retryLoss n k).buf = h.buf
    unfold Hw.retryLoss
    split <;> simp
  unfold Hw.resumeRetry
  extract_lets l
  split
  · split
    · rfl
    · exact cleared _
  · exact cleared _

theorem Hw.rise_buf (h : Hw) (n : Nat) : (h.rise n).buf = h.buf :=
  (Hw.setLinkState_buf _ _ _).trans (Hw.resumeRetry_buf _ n)

theorem Hw.enterUp_taken (h : Hw) (n : Nat) : (h.enterUp n).buf.taken = h.buf.taken := by
  have risen : ((((h.withPorts [n] fun h => h.rise n).sendLinkState n).overbook n).circuitUp n).buf.taken = h.buf.taken := by
    rw [Hw.circuitUp_taken, Hw.overbook, Hw.setFld_buf, Hw.sendLinkState_buf, Hw.withPorts_taken, Hw.rise_buf]
  unfold Hw.enterUp
  extract_lets q h1 h2
  split
  · exact risen
  · exact (Hw.ventNotice_taken _ _ _ _).trans risen

theorem Hw.widthChanged_buf (h : Hw) (n : Nat) : (h.widthChanged n).buf = h.buf := by
  rw [Hw.widthChanged, Hw.overbook, Hw.setFld_buf, Hw.record_buf]

/-! ### LINK_STATE_RECEIVE (R225, R234, R235) -/

/-- The port has heard LINK_STATE frame `x` of its peer: who it is, what it receives, and whether it is an Oslux 400 peer. -/
def Hw.heard (h : Hw) (n : Nat) (x : Taken) : Hw :=
  (h.setLink n { h.link n with
      peer := some (x.hdr.src, bits x.hdr.opData.toNat 0 10, BitVec.ofNat 16 (bits x.hdr.opData.toNat 26 16)),
      peerRx := BitVec.ofNat 4 (bits x.hdr.opData.toNat 52 4) }).setFld (.portLink n) Fld.portLink_peerOslux (bits x.hdr.opData.toNat 56 1)

/-- Where LINK_STATE of the data word `d`, once heard, takes a port: to LOST, to a narrower transmitter, or into UP. -/
def Hw.heardMove (h : Hw) (n d : Nat) : Hw :=
  if h.linkUp n then
    if bits d 47 1 = 1 then h.toLost n false
    else if bits d 52 4 % 2 ^ h.portLanes n = h.fld (.portLink n) Fld.portLink_txMask then h
    else if bits d 52 4 % 2 ^ h.portLanes n = 0 then h.toLost n false
    else (h.setFld (.portLink n) Fld.portLink_txMask (bits d 52 4 % 2 ^ h.portLanes n)).widthChanged n
  else if (h.linkState n = 1 ∨ h.linkState n = 2) ∧ (h.link n).lockAt.isSome ∧ h.capable n = true then h.enterUp n
  else h

/-- What a port knows of its peer stands, with the consumed frames. -/
structure PeerStands (n : Nat) (h h' : Hw) : Prop where
  peer : (h'.link n).peer = (h.link n).peer
  oslux : h'.fld (.portLink n) Fld.portLink_peerOslux = h.fld (.portLink n) Fld.portLink_peerOslux
  taken : h'.buf.taken = h.buf.taken
  only : LinkOnly h h'

theorem Hw.heardMove_stands (g : Hw) (n d : Nat) : PeerStands n g (g.heardMove n d) := by
  have same : PeerStands n g g := ⟨rfl, rfl, rfl, .refl g⟩
  have lost (up : g.linkUp n = true) : PeerStands n g (g.toLost n false) := by
    obtain ⟨-, -, peerOslux, peer⟩ := Hw.toLost_spec up false
    exact ⟨peer, peerOslux, g.toLost_taken n false, g.toLost_link n false⟩
  have risen : PeerStands n g (g.enterUp n) := by
    obtain ⟨-, -, -, peerOslux, peer⟩ := g.enterUp_spec n
    exact ⟨peer, peerOslux, g.enterUp_taken n, g.enterUp_link n⟩
  have narrowed (tx : Nat) : PeerStands n g ((g.setFld (.portLink n) Fld.portLink_txMask tx).widthChanged n) := by
    have width := (g.setFld (.portLink n) Fld.portLink_txMask tx).widthChanged_follows n
    exact ⟨width.stand.read n Link.peer, (width.stand.fld n _).trans (Hw.fld_setFld_apart g _ tx), congrArg Buf.taken (Hw.widthChanged_buf _ n),
      (LinkOnly.setFld g _ _ tx rfl).trans width.linkOnly⟩
  unfold Hw.heardMove
  split
  case isTrue up =>
    split
    · exact lost up
    split
    · exact same
    split
    · exact lost up
    · exact narrowed _
  case isFalse =>
    split
    · exact risen
    · exact same

section
variable {h : Hw} {n : Nat} {x : Taken}

theorem Hw.linkStateReceive_of_some (oldest : (h.takeFrame n [0x74]).1 = some x) : h.linkStateReceive n =
    if !(h.servedTaken x).oslux n then (h.servedTaken x).count (portDie n) 0x04e n 1
    else ((h.servedTaken x).heard n x).heardMove n x.hdr.opData.toNat := by
  unfold Hw.linkStateReceive
  rw [Hw.takeFrame_of_some oldest]
  rfl

theorem Hw.servedTaken_oslux (h : Hw) (n : Nat) (x : Taken) : (h.servedTaken x).oslux n = h.oslux n :=
  (LinkOnly.of_done (h.servedTaken_done x)).oslux n

/-- An Oslux 400 port that has heard its peer may go to LOST, narrow its transmitter, or enter UP; what it has heard stands. -/
theorem Hw.linkStateReceive_of_oslux (oldest : (h.takeFrame n [0x74]).1 = some x) (oslux : h.oslux n = true) :
    PeerStands n ((h.servedTaken x).heard n x) (h.linkStateReceive n) := by
  rw [Hw.linkStateReceive_of_some oldest, Hw.servedTaken_oslux, if_neg (by simp [oslux])]
  exact Hw.heardMove_stands _ _ _

theorem Hw.linkStateReceive_of_200g (oldest : (h.takeFrame n [0x74]).1 = some x) (other : h.oslux n = false) :
    h.linkStateReceive n = (h.servedTaken x).count (portDie n) 0x04e n 1 := by
  rw [Hw.linkStateReceive_of_some oldest, Hw.servedTaken_oslux, if_pos (by simp [other])]

end

/-! ### Retry (R230, R231) -/

/-- A NAK for a frame that is still held starts a replay from it. -/
theorem Hw.nakFrom_of_held {h : Hw} {n : Nat} {ack : BitVec 16} {f : RetryFrame} (held : f ∈ (h.link n).held) (next : f.lseq = ack + 1) :
    h.nakFrom n ack = h.setLink n { (h.link n).acked ack with replayFrom := some (ack + 1) } := by
  have stays : f ∈ ((h.link n).acked ack).held := List.mem_filter.2 ⟨held, by simp [next]⟩
  unfold Hw.nakFrom
  dsimp only
  exact if_pos (List.any_eq_true.2 ⟨f, stays, by simp [next]⟩)

/-- A NAK that has gone out is not due again within 1 µs. -/
theorem Hw.nakSent_nakDue {h : Hw} {n : Nat} (due : h.nakDue n = true) : (h.nakSent n).nakDue n = false := by
  have later : ¬h.slot (portDie n) + slotsUs ≤ h.slot (portDie n) := by
    have : 0 < slotsUs := by decide
    omega
  rw [Hw.nakSent, if_pos due, Hw.nakDue, Hw.link_setLink_self]
  exact (congrArg _ (decide_eq_false later)).trans (Bool.and_false _)

/-- Settles O13: what was heard stands after every move that LINK_STATE brings; the NAK and the control block are one change each. -/
theorem linkStateAndRetry : Obligations.LinkStateAndRetry := by
  unfold Obligations.LinkStateAndRetry
  refine ⟨fun p x s oldest => ?heard, fun p ack f s live up retry held next => ?nak, fun p s live up retry => ?control⟩
  case heard =>
    have done := s.hw.servedTaken_done x
    have out : (s.hw.servedTaken x).buf.taken = s.hw.buf.taken.filter fun y => y.id != x.id :=
      congrArg Buf.taken (s.hw.servedTaken_buf x)
    have gone : ∀ y ∈ s.hw.buf.taken.filter (fun y => y.id != x.id), y.id ≠ x.id := by simp
    cases oslux : s.hw.oslux p
    case true =>
      obtain ⟨peer, peerOslux, taken, only⟩ := Hw.linkStateReceive_of_oslux oldest oslux
      have heard : LinkOnly (s.hw.servedTaken x) ((s.hw.servedTaken x).heard p x) := (LinkOnly.setLink _ _ _).trans (.setFld _ _ _ _ rfl)
      refine ⟨_, rfl, OnlyHw.of_onHw (((LinkOnly.of_done done).trans heard).trans only), ?_, fun _ => ⟨peer.trans ?_, peerOslux.trans ?_⟩,
        fun other => absurd other (by decide)⟩
      · rw [State.onHw_hw, taken]
        exact out ▸ gone
      · exact congrArg Link.peer (Hw.link_setLink_self _ _ _)
      · rw [Hw.heard, Hw.fld_setFld_self]
        exact Nat.mod_mod _ _
    case false =>
      have run := Hw.linkStateReceive_of_200g oldest oslux
      have counted := Hw.count_only [] (s.hw.servedTaken x) (portDie p) 0x04e p 1
      have follows : Follows s.hw (s.hw.linkStateReceive p) := run ▸ (Follows.of_done done).trans (.of_send (Hw.count_send _ _ _ _ _))
      have taken : (s.hw.linkStateReceive p).buf.taken = s.hw.buf.taken.filter fun y => y.id != x.id := by
        rw [run, Hw.count_buf, out]
      refine ⟨_, rfl, OnlyHw.of_onHw follows.linkOnly, ?_, fun on => absurd on (by decide), fun _ => ⟨follows.portLink p, follows.lgt, taken⟩⟩
      rw [State.onHw_hw, taken]
      exact gone
  case nak =>
    have run : (if s.hw.linkLive p && s.hw.linkUp p && s.hw.retryOn p then s.hw.nakFrom p ack else s.hw) =
        s.hw.setLink p { (s.hw.link p).acked ack with replayFrom := some (ack + 1) } := by
      rw [if_pos (by simp [live, up, retry]), Hw.nakFrom_of_held held next]
    refine ⟨_, rfl, ?_, fun g inHeld => ?_, OnlyHw.of_onHw ?_⟩
    · rw [State.onHw_hw, run, Hw.link_setLink_self]
    · rw [State.onHw_hw, run, Hw.link_setLink_self] at inHeld
      exact List.mem_of_mem_filter inHeld
    · rw [run]
      exact Hw.setLink_only _ _ _ List.mem_cons_self
  case control =>
    generalize sent : s.hw.emit (.control p ((s.hw.link p).rxNext - 1) (s.hw.nakDue p)) = g
    have run : (if s.hw.linkLive p && s.hw.linkUp p && s.hw.retryOn p then
        (s.hw.emit (.control p ((s.hw.link p).rxNext - 1) (s.hw.nakDue p))).nakSent p else s.hw) = g.nakSent p := by
      rw [if_pos (by simp [live, up, retry]), sent]
    have out : (g.nakSent p).out = g.out := (Hw.nakSent_only (ps := [.lgt]) (P := noRegs) g p List.mem_cons_self).parts .out (by simp)
    refine ⟨_, rfl, ?_, fun due => ?_, OnlyHw.of_onHw ?_⟩
    · rw [State.onHw_hw, run, out, ← sent, Hw.emit_out]
    · rw [State.onHw_hw, run]
      exact Hw.nakSent_nakDue (sent ▸ due)
    · rw [run, ← sent]
      exact (Only.emit _ _ (by simp)).trans (Hw.nakSent_only _ _ List.mem_cons_self)

end Sys2Proof.Machine
end

section
/-! PROOFS. A hand-over entry whose spare is a primary: O15 fails. -/

namespace Sys2Proof.Machine

/-- A WARNED primary, emitter 45, that stands as the spare of a hand-over from emitter 69 to it. -/
def primaryAsSpare : State :=
  { State.reset with hw := { State.reset.hw with
      regs := [(.emitStatus 45, BitVec.ofNat 64 (699 + 1024 * 2))], lgt := { State.reset.hw.lgt with handover := [(69, 45)] } } }

theorem primaryAsSpare_warned : octetOf (45 : Emitter) = some 41 ∧ primaryAsSpare.hw.emitState (45 : Emitter) = 2 := by decide

/-- The hand-over is gone, and emitter 45 has been made DEAD, and then to serve octet 41. -/
def Hw.deadThenServing (h : Hw) : Hw := ((((h.dropHandover (69, 45)).setEmit 45 5).setFeeds 45 0x7f).setEmit 45 10).setFeeds 45 41

theorem LinkOnly.emitState {h h' : Hw} (only : LinkOnly h h') (e : Nat) : h'.emitState e = h.emitState e :=
  only.fld (by simp [Reg.isLink, Reg.isPort, Reg.isRing, Reg.isEpoch, Reg.isNote, Reg.isCnt, Reg.isIcSrc]) _

theorem Hw.relightOctet_link (h : Hw) (v : Nv) (o : Nat) : LinkOnly h (h.relightOctet v o) := by
  refine LinkOnly.foldl _ _ (fun g n => ?_) h
  split
  · exact (g.toLost_link n true).trans (Hw.startTraining_link _ v n true)
  split
  · exact .refl g
  · exact g.startTraining_link v n true

theorem Hw.emitState_setEmit_self (h : Hw) (e : Nat) {st : Nat} (known : st < 16) : (h.setEmit e st).emitState e = st := by
  unfold Hw.setEmit
  split
  case isTrue same => exact same
  case isFalse =>
    rw [Hw.emitState, Hw.fld, (Hw.icEvent_only _ _).regs (.emitStatus e) (by simp [Reg.isIcSrc])]
    exact (Hw.fld_setFld_self h _ st).trans (Nat.mod_eq_of_lt known)

theorem Hw.emitState_setFeeds (h : Hw) (e o : Nat) : (h.setFeeds e o).emitState e = h.emitState e := Hw.fld_setFld_apart h _ o

theorem Hw.deadThenServing_serves (h : Hw) : h.deadThenServing.emitState 45 = 10 := by
  rw [Hw.deadThenServing, Hw.emitState_setFeeds]
  exact Hw.emitState_setEmit_self _ 45 (by decide)

theorem primaryAsSpare_dead : primaryAsSpare.hw.emitterDead primaryAsSpare.nv 45 =
    (primaryAsSpare.hw.deadThenServing.emitDeadRec 45 45).relightOctet primaryAsSpare.nv 41 := by
  obtain ⟨octet, warned⟩ := primaryAsSpare_warned
  unfold Hw.emitterDead
  dsimp only
  split
  case h_1 o found =>
    obtain rfl := Option.some.inj (found.symm.trans octet)
    exact if_pos (Or.inr (Or.inl warned))
  case h_2 none =>
    exact absurd (none.symm.trans octet) (by decide)

/-- The emitter that died is made to serve as the spare of its own hand-over. -/
theorem primaryAsSpare_serves : (primaryAsSpare.hw.emitterDead primaryAsSpare.nv 45).emitState 45 = 10 := by
  have serving := primaryAsSpare.hw.deadThenServing_serves
  rw [primaryAsSpare_dead]
  generalize primaryAsSpare.hw.deadThenServing = g at serving ⊢
  have later : LinkOnly g ((g.emitDeadRec 45 45).relightOctet primaryAsSpare.nv 41) :=
    (LinkOnly.of_send (Hw.record_send g _)).trans (Hw.relightOctet_link _ _ _)
  rw [later.emitState, serving]

theorem State.retireDead_hw (s : State) (e : Nat) (h : Hw) : (s.retireDead e h).hw = h := by
  unfold State.retireDead
  split <;> rfl

/-- Refutes O15: the first clause takes any hand-over list. Where a lit primary stands in an entry's second place, EMITTER_DEAD makes it DEAD
and then, as the spare of that entry, SERVE. HANDOVER_START puts no primary there; the clauses for `sp` and for a spare in its hand-over
exclude `sp = e` and `f = e`, and the clause that `e` ends DEAD does not. -/
theorem not_emittersFailAndHandOver : ¬ Obligations.EmittersFailAndHandOver := by
  unfold Obligations.EmittersFailAndHandOver
  rintro ⟨lit, -⟩
  obtain ⟨octet, warned⟩ := primaryAsSpare_warned
  obtain ⟨t, run, dead, -⟩ := lit 45 41 primaryAsSpare octet (Or.inr (Or.inl warned))
  have after : primaryAsSpare.retireDead 45 (primaryAsSpare.hw.emitterDead primaryAsSpare.nv 45) = t := Host.Outcome.next.inj run
  rw [← after, State.retireDead_hw] at dead
  exact absurd (primaryAsSpare_serves.symm.trans dead) (by decide)

end Sys2Proof.Machine
end

section
/-! PROOFS. Floor paths, ring locks and hub paths (R21, R239, R241, R256): O14. -/

namespace Sys2Proof.Machine

/-! ### The quadrants that the hub has lost -/

theorem Hw.count_err (h : Hw) (d ev qual n : Nat) : (h.count d ev qual n).err = h.err :=
  (Hw.count_only [] h d ev qual n).parts .err (by simp)

theorem Hw.icEvent_err (h : Hw) (n : Nat) : (h.icEvent n).err = h.err := (Hw.icEvent_only h n).parts .err (by simp)

/-- A record moves queues, not the quadrants that are reachable. -/
theorem Hw.record_hubLost (h : Hw) (a : RecArgs) : (h.record a).err.hubLost = h.err.hubLost := by
  have made : (h.mkRec a).2.err = h.err := (Hw.mkRec_only noRegs h a).parts .err (by simp)
  unfold Hw.record
  dsimp only
  split
  · split
    · split
      · rw [Hw.icEvent_err, made]
      · rw [made]
    · rw [Hw.count_err, made]
  · split
    · rw [made]
    · rw [Hw.count_err, made]

theorem Hw.hubPathNote_spec (h : Hw) (q : Nat) (back : Bool) :
    (h.hubPathNote q back).err.hubLost.get q = !back ∧ Only sendParts Reg.isNote h (h.hubPathNote q back) := by
  have noted (g : Hw) (a : RecArgs) (n : Nat) : Only sendParts Reg.isNote g ((g.record a).icEvent n) :=
    (Hw.record_send g a).trans ((Hw.icEvent_only _ n).mono (by simp [sendParts]) fun _ => Or.inr)
  unfold Hw.hubPathNote
  constructor
  · rw [Hw.icEvent_err, Hw.record_hubLost, Four.get_set_self]
  · exact (Only.err h _ (by simp [sendParts])).trans (noted _ _ _)

theorem isNote_floorPath (k : Nat) : ¬(Reg.floorPath k).isNote := by simp [Reg.isNote, Reg.isCnt, Reg.isIcSrc]

theorem Hw.hubPathNote_floor (h : Hw) (q : Nat) (back : Bool) (k : Nat) (f : Fld) :
    (h.hubPathNote q back).fld (.floorPath k) f = h.fld (.floorPath k) f := (h.hubPathNote_spec q back).2.fld (isNote_floorPath k) f

/-! ### Groups of a floor path -/

/-- A bit that reads 0 can be added to a number without a carry out of its width. -/
theorem add_two_pow_lt {m g w : Nat} (small : m < 2 ^ w) (inside : g < w) (unused : Nat.testBit m g = false) : m + 2 ^ g < 2 ^ w := by
  have split : 2 ^ w = 2 ^ g * (2 * 2 ^ (w - g - 1)) := by rw [← Nat.pow_succ', ← Nat.pow_add]; congr 1; omega
  have even : m / 2 ^ g % 2 = 0 := by simpa [Nat.testBit_eq_decide_div_mod_eq] using unused
  have below : m / 2 ^ g < 2 * 2 ^ (w - g - 1) := Nat.div_lt_of_lt_mul (split ▸ small)
  have room : m / 2 ^ g + 2 ≤ 2 * 2 ^ (w - g - 1) := by omega
  calc m + 2 ^ g < 2 ^ g * (m / 2 ^ g + 1) + 2 ^ g := Nat.add_lt_add_right (Nat.lt_mul_div_succ m (Nat.two_pow_pos g)) _
    _ = 2 ^ g * (m / 2 ^ g + 2) := by ring
    _ ≤ 2 ^ w := split ▸ Nat.mul_le_mul_left _ room

theorem Hw.groupDrop_only (h : Hw) (k g : Nat) : Only sendParts (fun r => r = .floorPath k ∨ r.isNote) h (h.groupDrop k g) := by
  have note (r : Reg) (n : r.isNote) : r = .floorPath k ∨ r.isNote := Or.inr n
  unfold Hw.groupDrop
  dsimp only
  split
  · refine Only.trans ?_ ((Hw.record_send _ _).mono (fun _ => id) note)
    refine Only.trans ?_ ((Hw.count_send _ _ _ _ _).mono (fun _ => id) note)
    exact (Only.setFld h _ _ _ (Or.inl rfl)).trans (Only.satFld _ _ _ _ (Or.inl rfl))
  · exact .refl _ _ h

section
variable {h : Hw} {k g : Nat}

/-- A group in use leaves its path: its bit of UP_MASK goes, and the reachable quadrants stand. -/
theorem Hw.groupDrop_spec (inside : g < pathWidth k) (used : Nat.testBit (h.fld (.floorPath k) Fld.floorPath_upMask) g = true) :
    (h.groupDrop k g).fld (.floorPath k) Fld.floorPath_upMask = h.fld (.floorPath k) Fld.floorPath_upMask - 2 ^ g ∧
    (h.groupDrop k g).err.hubLost = h.err.hubLost := by
  have mask : h.fld (.floorPath k) Fld.floorPath_upMask < 2 ^ 16 := Fld.get_lt _ _
  unfold Hw.groupDrop
  rw [if_pos ⟨inside, used⟩]
  constructor
  · rw [(Hw.record_send _ _).fld (isNote_floorPath k), (Hw.count_send _ _ _ _ _).fld (isNote_floorPath k), Hw.satFld,
      Hw.fld_setFld_apart, Hw.fld_setFld_self]
    exact Nat.mod_eq_of_lt (lt_of_le_of_lt (Nat.sub_le _ _) mask)
  · rw [Hw.record_hubLost, Hw.count_err, Hw.satFld_err, Hw.setFld_err]

/-- FLOOR_GROUP_DROP of a group in use (R239); the last lane of a hub path cuts its quadrant off (R21). -/
theorem Hw.floorDrop_spec (inside : g < pathWidth k) (used : Nat.testBit (h.fld (.floorPath k) Fld.floorPath_upMask) g = true) :
    (h.floorDrop k g).fld (.floorPath k) Fld.floorPath_upMask = h.fld (.floorPath k) Fld.floorPath_upMask - 2 ^ g ∧
    (∀ q, hubOf k = some q → h.fld (.floorPath k) Fld.floorPath_upMask = 2 ^ g → (h.floorDrop k g).err.hubLost.get q = true) ∧
    Only sendParts (fun r => r = .floorPath k ∨ r.isNote) h (h.floorDrop k g) := by
  have mask := (Hw.groupDrop_spec inside used).1
  have only := h.groupDrop_only k g
  unfold Hw.floorDrop
  dsimp only
  split
  case h_1 q hub =>
    split
    case isTrue =>
      obtain ⟨cut, note⟩ := (h.groupDrop k g).hubPathNote_spec q false
      refine ⟨(Hw.hubPathNote_floor _ q false k _).trans mask, fun p named _ => ?_, only.trans (note.mono (fun _ => id) fun _ => Or.inr)⟩
      obtain rfl := Option.some.inj (hub.symm.trans named)
      exact cut
    case isFalse other =>
      refine ⟨mask, fun p named last => ?_, only⟩
      obtain rfl := Option.some.inj (hub.symm.trans named)
      have empty : (h.groupDrop k g).fld (.floorPath k) Fld.floorPath_upMask = 0 := by rw [mask, last, Nat.sub_self]
      simpa [empty] using other
  case h_2 none => exact ⟨mask, fun q named => absurd (none.symm.trans named) (by simp), only⟩

end

/-! ### The replicas of a quadrant that is reachable again (R256) -/

theorem RegMap.find_append_of_not_mem {l m : RegMap} {x : Reg} (other : ∀ p ∈ l, p.1 ≠ x) : RegMap.find (l ++ m) x = RegMap.find m x := by
  induction l with
  | nil => rfl
  | cons p l ih =>
    obtain ⟨differs, rest⟩ := List.forall_mem_cons.1 other
    rw [List.cons_append, RegMap.find, if_neg differs, ih rest]

theorem RegMap.find_filter_of_kept (m : RegMap) {keep : Reg × W64 → Bool} {x : Reg} (kept : ∀ v, keep (x, v) = true) :
    RegMap.find (m.filter keep) x = RegMap.find m x := by
  induction m with
  | nil => rfl
  | cons p m ih =>
    obtain ⟨r, v⟩ := p
    by_cases same : r = x
    · subst same
      rw [List.filter_cons_of_pos (kept v), RegMap.find, RegMap.find, if_pos rfl, if_pos rfl]
    · by_cases stays : keep (r, v) = true
      · rw [List.filter_cons_of_pos stays, RegMap.find, RegMap.find, if_neg same, if_neg same, ih]
      · rw [List.filter_cons_of_neg stays, RegMap.find, if_neg same, ih]

/-- Copied replicas are tables and recipes: a floor path's register reads what it read. -/
theorem Hw.copyReplicas_floor (h : Hw) (q from_ k : Nat) : (h.copyReplicas q from_).reg (.floorPath k) = h.reg (.floorPath k) := by
  unfold Hw.copyReplicas
  extract_lets move own copied
  have tables : ∀ p ∈ copied, p.1 ≠ .floorPath k := by
    intro p copy
    obtain ⟨⟨r, v⟩, -, moved⟩ := List.mem_filterMap.1 copy
    obtain ⟨r', goes, rfl⟩ := Option.map_eq_some_iff.1 moved
    rintro rfl
    cases r <;> simp [move] at goes
  exact congrArg (Option.getD · _) ((RegMap.find_append_of_not_mem tables).trans (RegMap.find_filter_of_kept _ fun _ => rfl))

/-- A quadrant that is reachable again holds the entries of the lowest quadrant that stayed reachable. -/
theorem Hw.hubPathBack_spec (h : Hw) (q : Nat) :
    (h.hubPathBack q).err.hubLost.get q = false ∧ (∀ k f, (h.hubPathBack q).fld (.floorPath k) f = h.fld (.floorPath k) f) ∧
    ∀ k, (List.range 4).find? (fun k => !h.err.hubLost.get k) = some k →
      (h.hubPathBack q).fwd.exc.get q = h.fwd.exc.get k ∧ (h.hubPathBack q).fwd.mcast.get q = h.fwd.mcast.get k := by
  unfold Hw.hubPathBack
  generalize source : (List.range 4).find? (fun k => !h.err.hubLost.get k) = found
  cases found
  case none =>
    exact ⟨(Hw.hubPathNote_spec _ q true).1, fun k f => Hw.hubPathNote_floor _ q true k f, by simp⟩
  case some k =>
    refine ⟨(Hw.hubPathNote_spec _ q true).1, fun j f => (Hw.hubPathNote_floor _ q true j f).trans ?_, fun j same => ?_⟩
    · exact congrArg f.get (h.copyReplicas_floor q k j)
    · obtain rfl := Option.some.inj same
      have fwd := (Hw.hubPathNote_spec { h.copyReplicas q k with
        coll := { (h.copyReplicas q k).coll with absent := (h.copyReplicas q k).coll.absent.filter fun x => x.2 != q } } q true).2.parts .fwd
          (by simp [sendParts])
      dsimp only at fwd ⊢
      rw [fwd]
      exact ⟨Four.get_set_self _ _ _, Four.get_set_self _ _ _⟩

/-- A group whose rings hold lock joins its path again; a hub path that was lost may then be back. -/
theorem Hw.floorRejoin_of_ready {h : Hw} {k g : Nat} (inside : g < pathWidth k)
    (unused : Nat.testBit (h.fld (.floorPath k) Fld.floorPath_upMask) g = false) (locked : (k, g) ∉ h.lgt.floorOut)
    (ready : h.dpReady = true) (wide : h.pathNarrow k = false) :
    (h.floorRejoin k g).fld (.floorPath k) Fld.floorPath_upMask = h.fld (.floorPath k) Fld.floorPath_upMask + 2 ^ g ∧
    ((∀ q, hubOf k = some q → h.err.hubLost.get q = false) → Only [] (fun r => r = .floorPath k) h (h.floorRejoin k g)) := by
  have width : pathWidth k ≤ 16 := by
    unfold pathWidth
    split <;> omega
  have small := add_two_pow_lt (Fld.get_lt _ _) (Nat.lt_of_lt_of_le inside width) unused
  unfold Hw.floorRejoin
  rw [if_pos ⟨inside, unused, locked, ready, wide⟩]
  generalize joined : h.setFld (.floorPath k) Fld.floorPath_upMask (h.fld (.floorPath k) Fld.floorPath_upMask + 2 ^ g) = j
  have mask : j.fld (.floorPath k) Fld.floorPath_upMask = h.fld (.floorPath k) Fld.floorPath_upMask + 2 ^ g := by
    rw [← joined, Hw.fld_setFld_self]
    exact Nat.mod_eq_of_lt small
  have only : Only [] (fun r => r = .floorPath k) h j := joined ▸ Only.setFld h _ _ _ rfl
  have reached : j.err = h.err := only.parts .err (by simp)
  dsimp only
  split
  case h_1 q hub =>
    split
    case isTrue back =>
      refine ⟨((j.hubPathBack_spec q).2.1 k _).trans mask, fun all => ?_⟩
      exact absurd (reached ▸ back.1) (by simp [all q hub])
    case isFalse => exact ⟨mask, fun _ => only⟩
  case h_2 => exact ⟨mask, fun _ => only⟩

/-- Settles O14: a group drops and rejoins by its bit of UP_MASK, and a hub path is noted lost or back with the replicas of the first
reachable quadrant. -/
theorem floorAndHubPaths : Obligations.FloorAndHubPaths := by
  unfold Obligations.FloorAndHubPaths
  refine ⟨fun k g s inside used => ⟨?drop, fun live locked => ?unlock⟩, fun k g s inside unused locked ready wide => ?rejoin,
    fun p s live lanes serves up used => ?lane, fun s live => ⟨fun k g => ?relock, fun p => ?counted⟩, fun q s live reached => ?lost,
    fun q k s live lost reached least upLane downLane => ?restored⟩
  case drop =>
    obtain ⟨mask, cut, only⟩ := Hw.floorDrop_spec inside used
    exact ⟨_, rfl, mask, cut, OnlyHw.of_onHw only⟩
  case unlock =>
    generalize noted : { s.hw with lgt := { s.hw.lgt with floorOut := (k.val, g.val) :: s.hw.lgt.floorOut } } = h
    have run : s.hw.ringUnlock (.floor k g) = h.floorDrop k g := by
      rw [← noted]
      exact if_pos ⟨inside, locked⟩
    have first : Only (.lgt :: sendParts) (fun r => r = .floorPath k ∨ r.isNote) s.hw h := noted ▸ Only.lgt s.hw _ List.mem_cons_self
    obtain ⟨mask, -, only⟩ := Hw.floorDrop_spec (h := h) inside (noted ▸ used)
    have out : (h.floorDrop k g).lgt = h.lgt := only.parts .lgt (by simp [sendParts])
    refine ⟨_, next_onLive live _, ?_, ?_, OnlyHw.of_onHw ?_⟩
    · rw [State.onHw_hw, run, out, ← noted]
      exact List.mem_cons_self
    · rw [State.onHw_hw, run, mask, ← noted]
      rfl
    · rw [run]
      exact first.trans (only.mono (fun _ => List.mem_cons_of_mem _) fun _ => id)
  case rejoin =>
    obtain ⟨mask, only⟩ := Hw.floorRejoin_of_ready inside unused locked ready wide
    exact ⟨_, rfl, mask, rfl, rfl, rfl, fun all => OnlyHw.of_onHw (only all)⟩
  case lane =>
    have own : s.hw.portOf p = p := by rw [Hw.portOf, lanes, Nat.div_one, Nat.mul_one]
    have run : s.hw.ringUnlock (.lane p) = s.hw.toLost p true := by
      show s.hw.laneFail (s.hw.portOf p) (p - s.hw.portOf p) = _
      rw [own, Nat.sub_self]
      exact Hw.laneFail_of_whole serves up used (Or.inl lanes)
    refine ⟨_, next_onLive live _, ?_, OnlyHw.of_onHw ?_⟩
    · rw [State.onHw_hw, run]
      exact (Hw.toLost_spec up true).1
    · rw [run]
      exact s.hw.toLost_link p true
  case relock =>
    generalize noted : { s.hw with lgt := { s.hw.lgt with floorOut := s.hw.lgt.floorOut.filter fun x => x != (k.val, g.val) } } = h
    have run : s.hw.ringRelock (.floor k g) = h.count (pathDie k) 0x04d (0x800 + floorGroup k g) 1 := noted ▸ rfl
    have counted := Hw.count_only [.lgt] h (pathDie k) 0x04d (0x800 + floorGroup k g) 1
    have first : Only [.lgt] (fun r => r.isCnt = true) s.hw h := noted ▸ Only.lgt s.hw _ List.mem_cons_self
    refine ⟨_, next_onLive live _, ?_, OnlyHw.of_onHw ?_⟩
    · rw [State.onHw_hw, run, Hw.count_lgt, ← noted]
      simp
    · rw [run]
      exact first.trans counted
  case counted => exact ⟨_, next_onLive live _, OnlyHw.of_onHw (Hw.count_only [] s.hw _ _ _ _)⟩
  case lost =>
    generalize dropped : (s.hw.setFld (.floorPath (12 + 2 * q)) Fld.floorPath_upMask 0).setFld (.floorPath (13 + 2 * q)) Fld.floorPath_upMask 0 = h
    have run : s.hw.hubPathLost q = h.hubPathNote q false := by
      rw [← dropped]
      exact if_neg (by simp [reached])
    obtain ⟨cut, note⟩ := h.hubPathNote_spec q false
    have apart : Reg.floorPath (12 + 2 * q) ≠ .floorPath (13 + 2 * q) := by simp
    refine ⟨_, next_onLive live _, ?_, ?_, ?_, ?_, OnlyHw.of_onHw ?_⟩
    · rw [State.onHw_hw, run]
      exact cut
    · rw [State.onHw_hw, run, Hw.quadReach, cut]
      simp
    · rw [State.onHw_hw, run, Hw.hubPathNote_floor, ← dropped, Hw.fld_setFld_ne _ apart, Hw.fld_setFld_self, Nat.zero_mod]
    · rw [State.onHw_hw, run, Hw.hubPathNote_floor, ← dropped, Hw.fld_setFld_self, Nat.zero_mod]
    · rw [run]
      refine Only.trans ?_ (note.mono (fun _ => id) fun _ => Or.inr ∘ Or.inr)
      exact dropped ▸ (Only.setFld s.hw _ _ _ (Or.inl rfl)).trans (Only.setFld _ _ _ _ (Or.inr (Or.inl rfl)))
  case restored =>
    generalize carried : (s.hw.setFld (.floorPath (12 + 2 * q)) Fld.floorPath_upMask (s.hw.hubLanes (12 + 2 * q))).setFld
      (.floorPath (13 + 2 * q)) Fld.floorPath_upMask (s.hw.hubLanes (13 + 2 * q)) = h
    have run : s.hw.hubPathRestored q = h.hubPathBack q := by
      rw [← carried]
      exact if_neg (by simp [lost, upLane, downLane])
    have source : (List.range 4).find? (fun k => !h.err.hubLost.get k) = some k.val := by
      rw [← carried, Hw.setFld_err, Hw.setFld_err, List.find?_range_eq_some]
      exact ⟨by simp [reached], List.mem_range.2 k.isLt, fun j below => by simp [least j below]⟩
    obtain ⟨back, -, copied⟩ := h.hubPathBack_spec q
    obtain ⟨exc, mcast⟩ := copied _ source
    have fwd : h.fwd = s.hw.fwd := by rw [← carried, Hw.setFld_fwd, Hw.setFld_fwd]
    refine ⟨_, next_onLive live _, ?_, ?_, ?_, rfl, rfl, rfl⟩
    · rw [State.onHw_hw, run]
      exact back
    · rw [State.onHw_hw, run, exc, fwd]
    · rw [State.onHw_hw, run, mcast, fwd]

end Sys2Proof.Machine
end

section
/-! PROOFS. The commands of the calibration store (R246 to R248): O16. -/

namespace Sys2Proof.Machine

/-! ### The running command -/

/-- The command that runs, and the BUSY bit that shows it, stand. -/
structure CalStands (h h' : Hw) : Prop where
  busy : h'.fld .calStatus Fld.calStatus_busy = h.fld .calStatus Fld.calStatus_busy
  cal : h'.lgt.cal = h.lgt.cal

namespace CalStands

theorem refl (h : Hw) : CalStands h h := ⟨rfl, rfl⟩

theorem trans {a b c : Hw} (first : CalStands a b) (second : CalStands b c) : CalStands a c :=
  ⟨second.busy.trans first.busy, second.cal.trans first.cal⟩

theorem foldl {α : Type} {step : Hw → α → Hw} (each : ∀ h x, CalStands h (step h x)) (l : List α) (h : Hw) :
    CalStands h (l.foldl step h) := by
  induction l generalizing h with
  | nil => exact .refl h
  | cons x l ih => exact (each h x).trans (ih _)

theorem of_only {ps : List Part} {P : Reg → Prop} {h h' : Hw} (only : Only ps P h h') (lgt : Part.lgt ∉ ps) (apart : ¬P .calStatus) :
    CalStands h h' := ⟨only.fld apart _, congrArg Lgt.cal (only.parts .lgt lgt)⟩

theorem of_send {h h' : Hw} (sent : Only sendParts Reg.isNote h h') : CalStands h h' :=
  .of_only sent (by simp [sendParts]) (by simp [Reg.isNote, Reg.isCnt, Reg.isIcSrc])

theorem of_link {h h' : Hw} (only : LinkOnly h h') (cal : h'.lgt.cal = h.lgt.cal) : CalStands h h' :=
  ⟨only.fld (by simp [Reg.isLink, Reg.isPort, Reg.isRing, Reg.isEpoch, Reg.isNote, Reg.isCnt, Reg.isIcSrc]) _, cal⟩

theorem skipped (h : Hw) (n : Nat) : CalStands h (h.setFld .calStatus Fld.calStatus_skipped n) := ⟨Hw.fld_setFld_apart h _ n, rfl⟩

theorem setLives (h : Hw) (ws : List (Nat × W64 × W64)) : CalStands h (ws.foldl (fun h w => h.setLive w.1 w.2) h) := by
  refine foldl (fun _ _ => ?_) ws h
  exact ⟨rfl, rfl⟩

theorem setLiveFloors (h : Hw) (ws : List (Nat × Nat × W64)) : CalStands h (ws.foldl (fun h w => h.setLiveFloor w.2.1 w.2.2) h) := by
  refine foldl (fun _ _ => ?_) ws h
  exact ⟨rfl, rfl⟩

end CalStands

/-! ### What a command does while it runs -/

theorem Hw.adaptLane_calStands (h : Hw) (v : Nv) (n : Nat) : CalStands h (h.adaptLane v n) := by
  unfold Hw.adaptLane
  split
  · exact .refl h
  · exact ⟨rfl, rfl⟩

theorem Hw.adaptFloor_calStands (h : Hw) (v : Nv) (j : Nat) : CalStands h (h.adaptFloor v j) := by
  unfold Hw.adaptFloor
  split
  · exact .refl h
  · exact ⟨rfl, rfl⟩

theorem Hw.saveOctet_calStands (h : Hw) (v : Nv) (o : Nat) : CalStands h (h.saveOctet v o) := by
  refine (CalStands.skipped h 0).trans (.foldl (fun g i => ?_) _ _)
  dsimp only
  split
  · exact (g.adaptLane_calStands v _).trans ⟨rfl, rfl⟩
  · exact .skipped g _

theorem Hw.saveFloor_calStands (h : Hw) (v : Nv) (k : Nat) : CalStands h (h.saveFloor v k) := by
  refine (CalStands.skipped h 0).trans (.foldl (fun g j => ?_) _ _)
  dsimp only
  split
  · exact (g.adaptFloor_calStands v _).trans ⟨rfl, rfl⟩
  · exact .skipped g _

theorem Hw.loadOctet_calStands (h : Hw) (v : Nv) (o : Nat) : CalStands h (h.loadOctet v o) := by
  refine (CalStands.of_link (h.reloadLanes_link v _) (h.reloadLanes_stands v _).cal).trans (.foldl (fun g n => ?_) _ _)
  split
  · exact .refl g
  · obtain ⟨-, -, only⟩ := g.startTraining_spec v n true
    exact .of_link (g.leaveUp_link n _ (g.startTraining_link v n true)) (Hw.leaveUp_onlyPort only).cal

theorem Hw.cycleGroup_calStands (h : Hw) (k g : Nat) {f : Hw → Hw} (change : ∀ h, CalStands h (f h)) : CalStands h (h.cycleGroup k g f) := by
  have dropped : CalStands h (h.groupDrop k g) :=
    .of_only (h.groupDrop_only k g) (by simp [sendParts]) (by simp [Reg.isNote, Reg.isCnt, Reg.isIcSrc])
  unfold Hw.cycleGroup
  dsimp only
  split
  · exact (dropped.trans (change _)).trans ⟨Hw.fld_setFld_ne _ (by simp) _ _ _, rfl⟩
  · exact dropped.trans (change _)

theorem Hw.reloadFloorLanes_calStands (h : Hw) (v : Nv) (js : List Nat) : CalStands h (h.reloadFloorLanes v js) := by
  have emptied : CalStands h { h with lgt := { h.lgt with liveFloor := h.lgt.liveFloor.filter fun x => !js.contains x.1 } } := ⟨rfl, rfl⟩
  exact emptied.trans (.foldl (fun g _ => .of_send (Hw.record_send g _)) _ _)

theorem Hw.reloadFloor_calStands (h : Hw) (v : Nv) (k : Nat) : CalStands h (h.reloadFloor v k) :=
  .foldl (fun g i => g.cycleGroup_calStands k i fun g => g.reloadFloorLanes_calStands v _) _ h

theorem Hw.recommissionOctet_calStands (h : Hw) (o : Nat) (seen : Bool) (recs : List (W64 × W64)) :
    CalStands h (h.recommissionOctet o seen recs) := by
  unfold Hw.recommissionOctet
  split
  · exact ⟨rfl, rfl⟩
  · extract_lets new g
    have live : CalStands h g := .setLives h new
    exact live.trans ⟨rfl, rfl⟩

theorem Hw.recommissionFloor_calStands (h : Hw) (k : Nat) (recs : List W64) : CalStands h (h.recommissionFloor k recs) := by
  unfold Hw.recommissionFloor
  extract_lets new g
  have cycled : CalStands h g := .foldl (fun g i => g.cycleGroup_calStands k i fun g => .setLiveFloors g _) _ h
  exact cycled.trans ⟨rfl, rfl⟩

/-! ### Admission and end (R247) -/

theorem Hw.calEnd_refused (h : Hw) (result : Nat) : (h.calEnd result false).fld .calStatus Fld.calStatus_result = result % 8 ∧
    (h.calEnd result false).bit .calStatus Fld.calStatus_done = true ∧
    Only [.hst, .out] (fun r => r = .calStatus ∨ r = .hostIrqSts) h (h.calEnd result false) := by
  have told (g : Hw) := Hw.hostEvent_only g 6
  have stands (g : Hw) (f : Fld) : (g.hostEvent 6).fld .calStatus f = g.fld .calStatus f := (told g).fld (by simp) f
  show (Hw.hostEvent _ 6).fld _ _ = _ ∧ (Hw.hostEvent _ 6).bit _ _ = true ∧ Only _ _ _ (Hw.hostEvent _ 6)
  refine ⟨?_, ?_, ?_⟩
  · rw [stands, Hw.fld_setFld_apart, Hw.fld_setFld_self]
    rfl
  · rw [Hw.bit, stands, Hw.fld_setFld_self]
    rfl
  · refine Only.trans ?_ ((told _).mono (fun _ => id) fun _ => Or.inr)
    exact (Only.setFld h _ _ _ (Or.inl rfl)).trans (Only.setFld _ _ _ _ (Or.inl rfl))

theorem Hw.calEnd_ran (h : Hw) (result : Nat) : (h.calEnd result true).fld .calStatus Fld.calStatus_result = result % 8 ∧
    (h.calEnd result true).bit .calStatus Fld.calStatus_done = true ∧ (h.calEnd result true).bit .calStatus Fld.calStatus_busy = false ∧
    (h.calEnd result true).lgt = h.lgt := by
  obtain ⟨read, done, only⟩ := h.calEnd_refused result
  have stands (g : Hw) (f : Fld) : (g.icEvent 79).fld .calStatus f = g.fld .calStatus f := (Hw.icEvent_only g 79).fld (by simp [Reg.isIcSrc]) f
  have run : h.calEnd result true = ((h.calEnd result false).setFld .calStatus Fld.calStatus_busy 0).icEvent 79 := rfl
  rw [run]
  generalize h.calEnd result false = g at read done only
  refine ⟨?_, ?_, ?_, ?_⟩
  · rw [stands, Hw.fld_setFld_apart, read]
  · rw [Hw.bit, stands, Hw.fld_setFld_apart]
    exact done
  · rw [Hw.bit, stands, Hw.fld_setFld_self]
    rfl
  · exact ((Hw.icEvent_only _ 79).parts .lgt (by simp)).trans (only.parts .lgt (by simp))

/-- A command that was admitted has begun: BUSY reads 1, and it holds no record yet. -/
def Hw.calBegun (h : Hw) (cmd target : Nat) : Hw :=
  { (h.setFld .calStatus Fld.calStatus_busy 1) with lgt := { h.lgt with cal := some (cmd, target), calResult := 0, calWrites := [] } }

theorem Hw.calBegun_busy (h : Hw) (cmd target : Nat) : (h.calBegun cmd target).fld .calStatus Fld.calStatus_busy = 1 :=
  Hw.fld_setFld_self h .calStatus 1

section
variable {h : Hw} {cmd target guard : Nat} {writes idle : Bool} {f : Hw → Hw}

theorem Hw.calBegin_of_badGuard (free : h.bit .calStatus Fld.calStatus_busy = false) (store : writes = true) (bad : guard ≠ 0xca1b) :
    h.calBegin cmd target guard writes idle f = h.calEnd 5 false := by
  unfold Hw.calBegin
  rw [if_neg (by simp [free]), if_pos ⟨store, bad⟩]

theorem Hw.calBegin_of_admitted (free : h.bit .calStatus Fld.calStatus_busy = false) (guarded : writes = true → guard = 0xca1b)
    (met : idle = true) : h.calBegin cmd target guard writes idle f = f (h.calBegun cmd target) := by
  unfold Hw.calBegin
  rw [if_neg (by simp [free]), if_neg (by simpa using guarded), if_neg (by simp [met])]
  rfl

/-- A command that is admitted runs: BUSY reads 1, whatever its work moves. -/
theorem Hw.calBegin_runs (free : h.bit .calStatus Fld.calStatus_busy = false) (guarded : writes = true → guard = 0xca1b)
    (met : idle = true) (work : ∀ g, CalStands g (f g)) :
    (h.calBegin cmd target guard writes idle f).bit .calStatus Fld.calStatus_busy = true ∧
      (h.calBegin cmd target guard writes idle f).lgt.cal = some (cmd, target) := by
  obtain ⟨busy, cal⟩ := work (h.calBegun cmd target)
  rw [Hw.calBegin_of_admitted free guarded met]
  exact ⟨bne_iff_ne.2 (by rw [busy, Hw.calBegun_busy]; decide), cal⟩

end

/-! ### The records of a command reach the store -/

theorem Nv.putCal_lane (v : Nv) (w : Nat × W64 × W64) (n : Nat) : (v.putCal false w).calOf n = if n = w.1 then w.2 else v.calOf n := by
  show (aget n (aput w.1 w.2 v.calLane)).getD _ = _
  rw [aget_aput]
  split <;> rfl

theorem Nv.putCal_floor (v : Nv) (w : Nat × W64 × W64) (j : Nat) :
    (v.putCal true w).calFloorOf j = if j = w.1 then w.2.1 else v.calFloorOf j := by
  show (aget j (aput w.1 w.2.1 v.calFloor)).getD _ = _
  rw [aget_aput]
  split <;> rfl

theorem Hw.pinLive_calResult (h : Hw) (v : Nv) (floor : Bool) (n : Nat) : (h.pinLive v floor n).lgt.calResult = h.lgt.calResult := by
  cases floor <;> rfl

/-- While the store works, putting the records of a command leaves its result, and the fuses, the keys and the fences. -/
theorem putCals_stands (floor : Bool) (ws : List (Nat × W64 × W64)) (h : Hw) (v : Nv) :
    (putCals true floor ws (h, v)).1.lgt.calResult = h.lgt.calResult ∧ (putCals true floor ws (h, v)).2.otp = v.otp ∧
    (putCals true floor ws (h, v)).2.keys = v.keys ∧ (putCals true floor ws (h, v)).2.laneFence = v.laneFence := by
  induction ws generalizing h v with
  | nil => exact ⟨rfl, rfl, rfl, rfl⟩
  | cons w ws ih =>
    obtain ⟨result, otp, keys, fence⟩ := ih (h.pinLive v floor w.1) (v.putCal floor w)
    exact ⟨result.trans (h.pinLive_calResult v floor w.1), otp, keys, fence⟩

/-- What a record of the store reads, after the records of a command were put, by a read `read` of the store. -/
theorem putCals_reads {α : Type} {floor : Bool} {read : Nv → Nat → α} {value : Nat × W64 × W64 → α}
    (put : ∀ v w n, read (v.putCal floor w) n = if n = w.1 then value w else read v n) (ws : List (Nat × W64 × W64)) (h : Hw) (v : Nv) :
    (∀ n, n ∉ ws.map (·.1) → read (putCals true floor ws (h, v)).2 n = read v n) ∧
    ((ws.map (·.1)).Nodup → ∀ w ∈ ws, read (putCals true floor ws (h, v)).2 w.1 = value w) := by
  induction ws generalizing h v with
  | nil => exact ⟨fun _ _ => rfl, fun _ w none => absurd none (by simp)⟩
  | cons x ws ih =>
    obtain ⟨others, held⟩ := ih (h.pinLive v floor x.1) (v.putCal floor x)
    constructor
    · intro n outside
      obtain ⟨differs, rest⟩ := not_or.1 (List.mem_cons.not.1 outside)
      exact (others n rest).trans ((put v x n).trans (if_neg differs))
    · intro distinct w inside
      obtain ⟨once, rest⟩ := List.nodup_cons.1 distinct
      obtain rfl | later := List.mem_cons.1 inside
      · exact (others w.1 once).trans ((put v w w.1).trans (if_pos rfl))
      · exact held rest w later

/-- While the store works, a command ends with the result that its work left. -/
theorem State.calDone_of_runs {s : State} {cmd target : Nat} (runs : s.hw.lgt.cal = some (cmd, target)) :
    ∃ h v, putCals true (decide (cmd % 2 = 0)) s.hw.lgt.calWrites (s.hw, s.nv) = (h, v) ∧
      s.calDone true = { s with
        hw := { h with lgt := { h.lgt with cal := none, calResult := 0, calWrites := [] } }.calEnd h.lgt.calResult true, nv := v } := by
  refine ⟨_, _, rfl, ?_⟩
  unfold State.calDone
  rw [runs]
  dsimp only
  congr 2
  by_cases failed : (putCals true (decide (cmd % 2 = 0)) s.hw.lgt.calWrites (s.hw, s.nv)).1.lgt.calResult = 0
  · simp [failed]
  · simp [failed]

/-- Settles O16: a refused command only ends; the work of one that begins leaves BUSY and the command as `CalStands` says; at its end the
records are put one by one. -/
theorem calibrationCommands : Obligations.CalibrationCommands := by
  unfold Obligations.CalibrationCommands
  refine ⟨fun c g s live free bad which => ?refused, fun c s live free which => ?begun, fun cmd target s runs => ?ended⟩
  case refused =>
    have wrong : g.toNat ≠ 0xca1b := fun same => bad (BitVec.eq_of_toNat_eq same)
    obtain ⟨result, done, only⟩ := s.hw.calEnd_refused 5
    have ends (cmd target : Nat) (idle : Bool) (f : Hw → Hw) : ∃ t,
        (.next (s.onLive fun h => h.calBegin cmd target g.toNat true idle f) : Host.Outcome State Fault Refusal) = .next t ∧
        t.hw.fld .calStatus Fld.calStatus_result = 5 ∧ t.hw.bit .calStatus Fld.calStatus_done = true ∧
        OnlyHw [.hst, .out] (fun r => r = .calStatus ∨ r = .hostIrqSts) s t := by
      rw [← Hw.calBegin_of_badGuard (cmd := cmd) (target := target) (idle := idle) (f := f) free rfl wrong] at result done only
      exact ⟨_, next_onLive live _, result, done, OnlyHw.of_onHw only⟩
    obtain ⟨o, rfl⟩ | ⟨k, rfl⟩ | ⟨o, b, l, rfl⟩ | ⟨k, l, rfl⟩ := which
    · exact ends _ _ _ _
    · exact ends _ _ _ _
    · exact ends _ _ _ _
    · exact ends _ _ _ _
  case begun =>
    have begins (cmd target guard : Nat) (writes idle : Bool) (f : Hw → Hw) (guarded : writes = true → guard = 0xca1b) (met : idle = true)
        (work : ∀ g, CalStands g (f g)) :
        ∃ t, (.next (s.onLive fun h => h.calBegin cmd target guard writes idle f) : Host.Outcome State Fault Refusal) = .next t ∧
          t.hw.bit .calStatus Fld.calStatus_busy = true ∧ t.hw.lgt.cal.isSome = true ∧
          t.nv = s.nv ∧ t.mem = s.mem ∧ t.pending = s.pending := by
      obtain ⟨busy, cal⟩ := Hw.calBegin_runs (cmd := cmd) (target := target) free guarded met work
      exact ⟨_, next_onLive live _, busy, Option.isSome_of_eq_some cal, rfl, rfl, rfl⟩
    obtain ⟨o, rfl⟩ | ⟨k, rfl⟩ | ⟨k, l, rfl⟩ | ⟨k, rfl⟩ | ⟨o, b, l, rfl, dark⟩ | ⟨o, rfl, idle⟩ := which
    · exact begins 1 o _ true true _ (fun _ => rfl) rfl fun g => g.saveOctet_calStands s.nv o
    · exact begins 2 k _ true true _ (fun _ => rfl) rfl fun g => g.saveFloor_calStands s.nv k
    · exact begins 6 k _ true true _ (fun _ => rfl) rfl fun g => g.recommissionFloor_calStands k l
    · exact begins 4 k 0 false true _ (by simp) rfl fun g => g.reloadFloor_calStands s.nv k
    · exact begins 5 o _ true _ _ (fun _ => rfl) (by simpa using dark) fun g => g.recommissionOctet_calStands o b l
    · exact begins 3 o 0 false _ _ (by simp) (by simpa using idle) fun g => g.loadOctet_calStands s.nv o
  case ended =>
    obtain ⟨h, v, put, ends⟩ := State.calDone_of_runs runs
    have stands := putCals_stands (decide (cmd % 2 = 0)) s.hw.lgt.calWrites s.hw s.nv
    rw [put] at stands
    obtain ⟨result, otp, keys, fence⟩ := stands
    obtain ⟨read, done, idle, lgt⟩ := Hw.calEnd_ran { h with lgt := { h.lgt with cal := none, calResult := 0, calWrites := [] } } h.lgt.calResult
    refine ⟨_, congrArg Host.Outcome.next ends, idle, done, congrArg Lgt.cal lgt, read.trans (congrArg (· % 8) result),
      fun distinct w inside => ⟨fun odd => ?_, fun even => ?_⟩, otp, keys, fence, rfl, rfl⟩
    · have reads := (putCals_reads Nv.putCal_lane s.hw.lgt.calWrites s.hw s.nv).2 distinct w inside
      rw [decide_eq_false odd] at put
      rwa [put] at reads
    · have reads := (putCals_reads Nv.putCal_floor s.hw.lgt.calWrites s.hw s.nv).2 distinct w inside
      rw [decide_eq_true even] at put
      rwa [put] at reads

end Sys2Proof.Machine
end

section
/-! PROOFS. The commands of an octet: ENABLE, its clearing, and the write of OCTET_CFG (R222, R226, R229, R75): O8. -/

namespace Sys2Proof.Machine

/-! ### Fields and the word of OCTET_CFG -/

theorem Fld.put_get (f : Fld) (v : W64) : f.put v (f.get v) = v := by
  apply BitVec.eq_of_getLsbD_eq
  intro i inside
  rw [Fld.put_getLsbD _ _ _ _ inside]
  split
  case isTrue field => rw [Fld.get_eq_testBit, decide_eq_true (by omega), Bool.true_and, Nat.add_sub_cancel' field.1]
  case isFalse => rfl

theorem Fld.put_put (f : Fld) (v : W64) (a b : Nat) : f.put (f.put v a) b = f.put v b := by
  apply BitVec.eq_of_getLsbD_eq
  intro i inside
  rw [Fld.put_getLsbD _ _ _ _ inside, Fld.put_getLsbD _ _ _ _ inside, Fld.put_getLsbD _ _ _ _ inside]
  split <;> rfl

/-- The register holds the field that was put, and the rest of the word. -/
theorem Fld.put_of_get {f : Fld} {v : W64} {n : Nat} (same : f.get v = n) : f.put v n = v := same ▸ f.put_get v

section
variable {h : Hw} {o : Nat}

/-- A write of OCTET_CFG moves the bits of its fields that the access reaches. -/
theorem Hw.writeWord_octetCfg (a : Acc) (v : W64) {i : Nat} (bit : i < 64) : (h.writeWord (.octetCfg o) a v).getLsbD i =
    if (0xffffff3f : W64).getLsbD i && (accMask a).getLsbD i then (accWord a 0 v).getLsbD i else (h.reg (.octetCfg o)).getLsbD i := by
  have rw : (Reg.octetCfg o).rwMask = 0xffffff3f := rfl
  have w1c : (Reg.octetCfg o).w1cMask = 0 := rfl
  have w1s : (Reg.octetCfg o).w1sMask = 0 := rfl
  rw [Hw.writeWord, rw, w1c, w1s]
  simp only [BitVec.getLsbD_or, BitVec.getLsbD_and, BitVec.getLsbD_not, bit,
    decide_true, Bool.true_and]
  generalize (0xffffff3f : W64).getLsbD i = m
  cases m <;> cases (accMask a).getLsbD i <;> simp

/-- A word that moves only bits of the fields of OCTET_CFG is written as it stands. -/
theorem Hw.writeWord_octetCfg_full {w : W64}
    (kept : ∀ i, (0xffffff3f : W64).getLsbD i = false → w.getLsbD i = (h.reg (.octetCfg o)).getLsbD i) :
    h.writeWord (.octetCfg o) .full w = w := by
  apply BitVec.eq_of_getLsbD_eq
  intro i inside
  rw [Hw.writeWord_octetCfg _ _ inside]
  have all : (accMask .full).getLsbD i = true := by
    rw [show accMask .full = BitVec.allOnes 64 from rfl, BitVec.getLsbD_allOnes]
    exact decide_eq_true inside
  split
  case isTrue => rfl
  case isFalse off => exact (kept i (by simpa [all] using off)).symm

/-- A write of OCTET_CFG gives a word that can be written again, with either value of ENABLE (R222). -/
theorem Hw.writeWord_octetCfg_again (a : Acc) (v : W64) (en : Nat) :
    h.writeWord (.octetCfg o) .full (Fld.octetCfg_enable.put (h.writeWord (.octetCfg o) a v) en) =
      Fld.octetCfg_enable.put (h.writeWord (.octetCfg o) a v) en := by
  refine Hw.writeWord_octetCfg_full fun i unwritten => ?_
  have low : i ≠ 0 := by
    rintro rfl
    exact absurd unwritten (by decide)
  rw [Fld.put_getLsbD_out _ _ _ _ (Or.inr (by show 0 + 1 ≤ i; omega))]
  by_cases inside : i < 64
  · rw [Hw.writeWord_octetCfg a v inside, unwritten]
    rfl
  · rw [BitVec.getLsbD_of_ge _ _ (by omega), BitVec.getLsbD_of_ge _ _ (by omega)]

/-- An access of the upper half does not reach ENABLE. -/
theorem Hw.writeWord_octetCfg_hi (v : W64) :
    Fld.octetCfg_enable.get (h.writeWord (.octetCfg o) .hi v) = h.fld (.octetCfg o) Fld.octetCfg_enable := by
  have unreached : (accMask .hi).getLsbD 0 = false := by decide
  apply Nat.eq_of_testBit_eq
  intro i
  rw [Fld.get_eq_testBit, Hw.fld, Fld.get_eq_testBit]
  by_cases first : i < 1
  · obtain rfl : i = 0 := by omega
    rw [Hw.writeWord_octetCfg .hi v (by decide), show 0 + 0 = 0 from rfl, unreached, Bool.and_false]
    rfl
  · rw [decide_eq_false first, Bool.false_and, Bool.false_and]

end

/-! ### The ports of an octet -/

/-- The lanes of an octet. -/
def octetLanes (o : Nat) : List Nat := (List.range 8).map (8 * o + ·)

theorem mem_octetLanes {o n : Nat} : n ∈ octetLanes o ↔ n / 8 = o := by
  constructor
  · intro lane
    obtain ⟨i, small, rfl⟩ := List.mem_map.1 lane
    have := List.mem_range.1 small
    omega
  · rintro rfl
    exact List.mem_map.2 ⟨n % 8, List.mem_range.2 (by omega), by omega⟩

theorem Hw.mem_octetPorts {h : Hw} {o n : Nat} : n ∈ h.octetPorts o ↔ n / 8 = o ∧ h.portStart n = true := by
  show n ∈ (octetLanes o).filter h.portStart ↔ _
  rw [List.mem_filter, mem_octetLanes]

theorem Hw.octetPorts_congr {h h' : Hw} {o : Nat} (shape : h'.shape o = h.shape o) : h'.octetPorts o = h.octetPorts o := by
  refine List.filter_congr fun n lane => ?_
  rw [Hw.portStart, Hw.portStart, Hw.portLanes, Hw.portLanes, mem_octetLanes.1 lane, shape]

/-! ### The emitter of an octet (R367) -/

/-- Only the emitters, and the sources of their interrupts, change. -/
def EmitOnly (h h' : Hw) : Prop := Only [.mgt] (fun r => (∃ e, r = .emitStatus e) ∨ r.isIcSrc = true) h h'

theorem EmitOnly.refl (h : Hw) : EmitOnly h h := Only.refl _ _ h

theorem EmitOnly.trans {a b c : Hw} (first : EmitOnly a b) (second : EmitOnly b c) : EmitOnly a c := Only.trans first second

theorem EmitOnly.setFld (h : Hw) (e : Nat) (f : Fld) (n : Nat) : EmitOnly h (h.setFld (.emitStatus e) f n) :=
  Only.setFld h _ _ _ (Or.inl ⟨e, rfl⟩)

theorem EmitOnly.setEmit (h : Hw) (e st : Nat) : EmitOnly h (h.setEmit e st) := by
  unfold Hw.setEmit
  split
  · exact .refl h
  · exact (EmitOnly.setFld h e _ st).trans ((Hw.icEvent_only _ _).mono (fun _ => id) fun _ => Or.inr)

theorem EmitOnly.feeds (h : Hw) (e st o : Nat) : EmitOnly h ((h.setEmit e st).setFeeds e o) :=
  (EmitOnly.setEmit h e st).trans (.setFld _ e _ o)

theorem Hw.lightOctet_emit (h : Hw) (v : Nv) (o : Nat) : EmitOnly h (h.lightOctet v o) := by
  unfold Hw.lightOctet
  extract_lets e sp g
  have idle : EmitOnly h g := by
    show EmitOnly h (if h.emitState sp = 0 ∧ v.isRetired sp = false then (h.setEmit sp 6).setFeeds sp 0x7f else h)
    split
    · exact .feeds h sp 6 _
    · exact .refl h
  split
  · split
    · exact idle.trans (.feeds g e 1 o)
    · exact idle
  split
  · exact idle.trans (.feeds g sp 10 o)
  · exact idle

theorem Hw.darkOctet_emit (h : Hw) (v : Nv) (o : Nat) : EmitOnly h (h.darkOctet v o) := by
  unfold Hw.darkOctet
  split
  · exact .refl h
  next e _ =>
  split
  · exact (EmitOnly.feeds h e 0 _).trans (.setFld _ e _ 0)
  · exact (EmitOnly.feeds h e 6 _).trans (.setFld _ e _ 0)

namespace EmitOnly

variable {h h' : Hw} (only : EmitOnly h h')
include only

theorem octetCfg (o : Nat) : h'.reg (.octetCfg o) = h.reg (.octetCfg o) := only.regs _ (by simp [Reg.isIcSrc])

theorem shape (o : Nat) : h'.shape o = h.shape o := by rw [Hw.shape, Hw.fld, only.octetCfg o, Hw.shape, Hw.fld]

theorem linkState (n : Nat) : h'.linkState n = h.linkState n := Only.fld only (by simp [Reg.isIcSrc]) _

end EmitOnly

/-! ### Ports that wake and go dark (R229) -/

theorem Hw.calReady_congr {h h' : Hw} {n : Nat} (v : Nv) (shape : h'.shape (n / 8) = h.shape (n / 8)) : h'.calReady v n = h.calReady v n := by
  rw [Hw.calReady, Hw.calReady, Hw.portLanes, Hw.portLanes, shape]

theorem Hw.wakePort_spec (h : Hw) (v : Nv) (n : Nat) : LinkOnly h (h.wakePort v n) ∧ ∀ m, (h.wakePort v n).linkState m =
    if m = n ∧ h.linkState m = 0 then (if h.calReady v m then 2 else 1) else h.linkState m := by
  unfold Hw.wakePort
  split
  case isTrue dark =>
    obtain ⟨state, -, only⟩ := h.startTraining_spec v n true
    refine ⟨h.startTraining_link v n true, fun m => ?_⟩
    split
    case isTrue same =>
      obtain ⟨rfl, -⟩ := same
      simpa using state
    case isFalse other => exact only.linkState fun same => other ⟨same, same ▸ dark⟩
  case isFalse lit =>
    refine ⟨.refl h, fun m => (if_neg ?_).symm⟩
    rintro ⟨rfl, dark⟩
    exact lit dark

/-- The ports of a list that are DARK begin to train, fast from valid records and fully otherwise; every other port stands. -/
theorem Hw.wakePorts_spec (v : Nv) (l : List Nat) (h : Hw) : LinkOnly h (l.foldl (fun h n => h.wakePort v n) h) ∧
    ∀ m, (l.foldl (fun h n => h.wakePort v n) h).linkState m =
      if m ∈ l ∧ h.linkState m = 0 then (if h.calReady v m then 2 else 1) else h.linkState m := by
  induction l generalizing h with
  | nil => exact ⟨.refl h, fun m => by simp⟩
  | cons n l ih =>
    obtain ⟨first, woken⟩ := h.wakePort_spec v n
    obtain ⟨only, state⟩ := ih (h.wakePort v n)
    refine ⟨first.trans only, fun m => (state m).trans ?_⟩
    rw [woken, first.calReady]
    by_cases dark : h.linkState m = 0
    · by_cases same : m = n
      · subst same
        cases h.calReady v m <;> simp [dark]
      · simp [same]
    · simp [dark]

theorem Hw.darkPorts_spec (l : List Nat) (h : Hw) : LinkOnly h (l.foldl (fun h n => h.toDark n) h) ∧
    ∀ m, (l.foldl (fun h n => h.toDark n) h).linkState m = if m ∈ l then 0 else h.linkState m := by
  induction l generalizing h with
  | nil => exact ⟨.refl h, fun m => by simp⟩
  | cons n l ih =>
    obtain ⟨dark, others⟩ := h.toDark_spec n
    obtain ⟨only, state⟩ := ih (h.toDark n)
    refine ⟨(h.toDark_link n).trans only, fun m => (state m).trans ?_⟩
    by_cases same : m = n
    · simp [same, dark]
    · rw [others.linkState same]
      simp [same]

/-! ### OCTET_ENABLE and OCTET_DISABLE -/

/-- Octet `o` can be written and lit: its quadrant is reachable, serves, and is not parked, and the octet does not sleep. -/
structure Hw.Awake (h : Hw) (o : Nat) : Prop where
  reach : h.quadReach (o / 32) = true
  chip : h.fatalChip = false
  quad : h.fatalQ (o / 32) = false
  woken : h.asleep o = false
  unparked : h.parked (o / 32) = false

/-- The registers and the quadrants lost that say whether an octet is awake. -/
structure SameWake (h h' : Hw) : Prop where
  hub : h'.reg .hubState = h.reg .hubState
  err : h'.reg .errStatus = h.reg .errStatus
  reset : h'.reg .resetStatus = h.reg .resetStatus
  power : h'.reg .powerStatus = h.reg .powerStatus
  sleep : ∀ k, h'.reg (.octetSleep k) = h.reg (.octetSleep k)
  lost : h'.err.hubLost = h.err.hubLost

namespace SameWake

variable {h h' : Hw} (same : SameWake h h')
include same

theorem dpReady : h'.dpReady = h.dpReady := by rw [Hw.dpReady, Hw.bit, Hw.fld, same.hub, Hw.dpReady, Hw.bit, Hw.fld]

theorem quadReach (q : Nat) : h'.quadReach q = h.quadReach q := by
  rw [Hw.quadReach, same.dpReady, same.lost, Hw.qdBusy, same.reset, Hw.quadReach, Hw.qdBusy]

theorem awake {o : Nat} (awake : h.Awake o) : h'.Awake o where
  reach := (same.quadReach _).trans awake.reach
  chip := by rw [Hw.fatalChip, Hw.bit, Hw.fld, same.err]; exact awake.chip
  quad := by rw [Hw.fatalQ, same.err]; exact awake.quad
  woken := by rw [Hw.asleep, same.sleep]; exact awake.woken
  unparked := by rw [Hw.parked, same.power]; exact awake.unparked

end SameWake

section
variable {h : Hw} {o : Nat}

theorem Hw.dpReady_of_quadReach {q : Nat} (reach : h.quadReach q = true) : h.dpReady = true := by
  simp only [Hw.quadReach, Bool.and_eq_true] at reach
  exact reach.1.1

/-- ENABLE of octet `o` is set, and its readiness is no longer asked for. -/
def Hw.octetOn (h : Hw) (o : Nat) : Hw :=
  let g := h.setFld (.octetCfg o) Fld.octetCfg_enable 1
  { g with pwr := { g.pwr with unready := g.pwr.unready.filter fun x => x != o } }

theorem Hw.octetOn_reg (h : Hw) (o : Nat) : (h.octetOn o).reg (.octetCfg o) = Fld.octetCfg_enable.put (h.reg (.octetCfg o)) 1 :=
  Hw.reg_setFld_self h _ _ _

theorem Hw.octetOn_reg_ne (h : Hw) (o : Nat) {r : Reg} (other : r ≠ .octetCfg o) : (h.octetOn o).reg r = h.reg r :=
  Hw.reg_setFld_ne h other _ _

theorem Hw.octetOn_shape (h : Hw) (o : Nat) (k : Nat) : (h.octetOn o).shape k = h.shape k := by
  by_cases same : k = o
  · subst same
    rw [Hw.shape, Hw.fld, Hw.octetOn_reg, Fld.get_put_ne _ _ (by decide) (by decide), Hw.shape, Hw.fld]
  · rw [Hw.shape, Hw.fld, Hw.octetOn_reg_ne h o (by simpa using same), Hw.shape, Hw.fld]

theorem Hw.octetEnable_of_awake (v : Nv) (awake : h.Awake o) : h.octetEnable v o =
    ((h.octetOn o).octetPorts o).foldl (fun h n => h.wakePort v n) ((h.octetOn o).lightOctet v o) := by
  obtain ⟨reach, chip, quad, woken, unparked⟩ := awake
  have stays : (h.octetOn o).asleep o = h.asleep o ∧ (h.octetOn o).parked (o / 32) = h.parked (o / 32) ∧ (h.octetOn o).dpReady = h.dpReady := by
    refine ⟨?_, ?_, ?_⟩
    · rw [Hw.asleep, Hw.octetOn_reg_ne h o (by simp), Hw.asleep]
    · rw [Hw.parked, Hw.octetOn_reg_ne h o (by simp), Hw.parked]
    · rw [Hw.dpReady, Hw.bit, Hw.fld, Hw.octetOn_reg_ne h o (by simp), Hw.dpReady, Hw.bit, Hw.fld]
  have lights : ¬((h.octetOn o).asleep o || (h.octetOn o).parked (o / 32) || !(h.octetOn o).dpReady) = true := by
    simp [stays, woken, unparked, Hw.dpReady_of_quadReach reach]
  unfold Hw.octetEnable
  rw [if_neg (by simp [reach, chip, quad])]
  exact if_neg lights

/-- OCTET_ENABLE of an octet that is awake: ENABLE is set, and its DARK ports begin to train. -/
theorem Hw.octetEnable_spec (v : Nv) (awake : h.Awake o) :
    (h.octetEnable v o).reg (.octetCfg o) = Fld.octetCfg_enable.put (h.reg (.octetCfg o)) 1 ∧
    (h.octetEnable v o).octetPorts o = h.octetPorts o ∧
    ∀ m, (h.octetEnable v o).linkState m =
      if m ∈ h.octetPorts o ∧ h.linkState m = 0 then (if h.calReady v m then 2 else 1) else h.linkState m := by
  rw [Hw.octetEnable_of_awake v awake]
  have lit := (h.octetOn o).lightOctet_emit v o
  obtain ⟨only, state⟩ := Hw.wakePorts_spec v ((h.octetOn o).octetPorts o) ((h.octetOn o).lightOctet v o)
  have shape (k : Nat) : ((h.octetOn o).lightOctet v o).shape k = h.shape k := (lit.shape k).trans (h.octetOn_shape o k)
  have state0 (m : Nat) : ((h.octetOn o).lightOctet v o).linkState m = h.linkState m :=
    (lit.linkState m).trans (congrArg _ (h.octetOn_reg_ne o (r := .portLink m) (by simp)))
  refine ⟨(only.octetCfg o).trans ((lit.octetCfg o).trans (h.octetOn_reg o)),
    Hw.octetPorts_congr ((only.shape o).trans (shape o)), fun m => (state m).trans ?_⟩
  rw [state0, Hw.calReady_congr v (shape _), Hw.octetPorts_congr (h.octetOn_shape o o)]

/-- OCTET_DISABLE: ENABLE is cleared, and every port of the octet is DARK. -/
theorem Hw.octetDisable_spec (v : Nv) (reach : h.quadReach (o / 32) = true) :
    (h.octetDisable v o).reg (.octetCfg o) = Fld.octetCfg_enable.put (h.reg (.octetCfg o)) 0 ∧
    ∀ m, (h.octetDisable v o).linkState m = if m ∈ h.octetPorts o then 0 else h.linkState m := by
  generalize cleared : h.setFld (.octetCfg o) Fld.octetCfg_enable 0 = g
  have run : h.octetDisable v o = (g.darkPorts o).darkOctet v o := by
    rw [← cleared]
    exact if_neg (by simp [reach])
  have dark := (g.darkPorts o).darkOctet_emit v o
  obtain ⟨only, state⟩ := Hw.darkPorts_spec (g.octetPorts o) g
  have shape : g.shape o = h.shape o := by
    rw [← cleared]
    exact Hw.fld_setFld_apart h _ 0
  rw [run]
  refine ⟨(dark.octetCfg o).trans ((only.octetCfg o).trans ?_), fun m => (dark.linkState m).trans ((state m).trans ?_)⟩
  · rw [← cleared, Hw.reg_setFld_self]
  · rw [Hw.octetPorts_congr shape, ← cleared, Hw.linkState, Hw.fld_setFld_ne h (by simp), Hw.linkState]

end

/-! ### A re-route leaves the quadrants that are reachable (R21, R83) -/

theorem Hw.parityMiss_hubLost (h : Hw) (q : Nat) (t : TblRef) : (h.parityMiss q t).err.hubLost = h.err.hubLost := by
  rw [Hw.parityMiss, Hw.record_hubLost, Hw.count_err]

theorem Hw.unreachable_hubLost (h : Hw) (q : Nat) (dst : Node) : (h.unreachable q dst).err.hubLost = h.err.hubLost := by
  rw [Hw.unreachable, Hw.record_hubLost, Hw.count_err]

theorem Hw.levelLookup_hubLost (ls : List Level) (h : Hw) (q : Nat) (dst : Node) :
    (h.levelLookup q dst ls).2.err.hubLost = h.err.hubLost := by
  induction ls generalizing h with
  | nil => rfl
  | cons l ls ih =>
    unfold Hw.levelLookup
    dsimp only
    split
    · rw [ih, Hw.parityMiss_hubLost]
    split
    · rfl
    · exact ih h

theorem Hw.lookup_hubLost (h : Hw) (q : Nat) (a : Ask) : (h.lookup q a).2.err.hubLost = h.err.hubLost := by
  have circuits (l : List Nat) (g : Hw) : (l.foldl (fun h i => h.parityMiss q ⟨.circuit, i⟩) g).err.hubLost = g.err.hubLost :=
    foldl_keeps (fun g : Hw => g.err.hubLost) (fun g i => g.parityMiss_hubLost q ⟨.circuit, i⟩) l g
  have exc : (if (h.excFind q a.dst).isSome && h.tblBad q ⟨.exc, a.dst.toNat⟩ then h.parityMiss q ⟨.exc, a.dst.toNat⟩ else h).err.hubLost =
      h.err.hubLost := by
    split
    · exact h.parityMiss_hubLost q _
    · rfl
  unfold Hw.lookup
  dsimp only
  split
  · exact exc
  split
  · rw [Hw.levelLookup_hubLost, circuits, exc]
  · rw [circuits, exc]

theorem Hw.sparParity_hubLost (h : Hw) (q s : Nat) : (h.sparParity q s).err.hubLost = h.err.hubLost := by
  unfold Hw.sparParity
  generalize List.range 32 = words
  refine foldl_keeps (fun g : Hw => g.err.hubLost) (fun g w => ?_) words h
  split
  · exact g.parityMiss_hubLost q _
  · rfl

theorem Hw.sparPick_hubLost (h : Hw) (q s : Nat) (a : Ask) : (h.sparPick q s a).2.err.hubLost = h.err.hubLost := by
  have parity := h.sparParity_hubLost q s
  unfold Hw.sparPick
  generalize h.sparParity q s = g at parity ⊢
  dsimp only
  split
  · exact parity
  split
  · exact parity
  · exact parity

theorem Hw.targets_hubLost (h : Hw) (q : Nat) (a : Ask) (r : Route) : (h.targets q a r).2.err.hubLost = h.err.hubLost := by
  cases r with
  | none => rfl
  | port n => rfl
  | spar s => simp [Hw.targets, Hw.sparPick_hubLost]
  | flood s => simp [Hw.targets, Hw.count_err, Hw.sparParity_hubLost]
  | mcast g =>
    unfold Hw.targets
    dsimp only
    split
    · exact h.parityMiss_hubLost q _
    dsimp only
    split
    · exact congrArg Err.hubLost (Hw.count_err _ _ _ _ _)
    · rfl

theorem Hw.joinCopy_err (h : Hw) (id n t : Nat) (spot : Spot) : (h.joinCopy id n t spot).err = h.err := by
  unfold Hw.joinCopy
  dsimp only
  split <;> rfl

theorem Hw.joinOwn_err (h : Hw) (id q n t len : Nat) (src : Option Node) : (h.joinOwn id q n t len src).err = h.err := by
  have noted (g : Hw) : (g.noteSource q n t src).err = g.err := rfl
  unfold Hw.joinOwn
  dsimp only
  split <;> split <;> simp [noted, Hw.count_err, Hw.joinCopy_err]

theorem Hw.originateTo_err (h : Hw) (q : Nat) (f : Frame) (hd : Option VHdr) (t : Nat) (route : Route) (ports : List Nat) (ballast : Bool) :
    (h.originateTo q f hd t route ports ballast).err = h.err := by
  have fresh (x : Held) : (h.freshId.2.addHeld x).err = h.err := rfl
  unfold Hw.originateTo
  dsimp only
  split
  · exact foldl_keeps Hw.err (fun g n => g.joinCopy_err _ n _ _) _ _
  split
  · exact foldl_keeps Hw.err (fun g n => g.joinOwn_err _ _ n _ _ _) _ _
  · exact (Hw.count_err _ _ _ _ _).trans (fresh _)

theorem Hw.originate_hubLost (h : Hw) (q : Nat) (hd : VHdr) (payload : List Byte) :
    (h.originate q hd payload).err.hubLost = h.err.hubLost := by
  unfold Hw.originate
  split
  · rfl
  dsimp only
  split
  · rw [Hw.unreachable_hubLost, Hw.targets_hubLost, Hw.lookup_hubLost]
  · rw [Hw.originateTo_err, Hw.targets_hubLost, Hw.lookup_hubLost]

theorem Hw.epochNotice_hubLost (h : Hw) (k : RouteKey) : (h.epochNotice k).err.hubLost = h.err.hubLost := by
  unfold Hw.epochNotice
  split
  · rfl
  dsimp only
  split
  · rw [Hw.count_err, Hw.satFld_err]
  split
  · rfl
  split
  · rw [Hw.count_err]
  · exact Hw.originate_hubLost _ _ _ _

theorem Hw.reroute_hubLost (h : Hw) (ks : List RouteKey) : (h.reroute ks).err.hubLost = h.err.hubLost := by
  unfold Hw.reroute
  split
  · rfl
  · exact foldl_keeps (fun g : Hw => g.err.hubLost) Hw.epochNotice_hubLost _ _

/-- Where no port of the change was in service, none leaves it: the quadrants that are reachable stand as the change leaves them. -/
theorem Hw.withPorts_hubLost {h : Hw} {ns : List Nat} (f : Hw → Hw) (idle : ∀ n ∈ ns, h.inService n = false) :
    (h.withPorts ns f).err.hubLost = (f h).err.hubLost := by
  have none : (ns.filter fun n => h.inService n && !(h.portsChange ns f).inService n) = [] :=
    List.filter_eq_nil_iff.2 fun n port => by simp [idle n port]
  unfold Hw.withPorts
  dsimp only
  rw [none]
  show (h.portsChange ns f).err.hubLost = _
  unfold Hw.portsChange
  dsimp only
  split
  · rfl
  · exact Hw.reroute_hubLost _ _

/-! ### A change of SHAPE or MODE (R75, R226) -/

/-- The words that OCTET_SHAPE_CHANGE may give a register: OCTET_CFG, PORT_FWD of the octet's lanes, and what a re-route writes. -/
def Reg.OfShape (o : Nat) (r : Reg) : Prop := r = .octetCfg o ∨ (∃ n, n / 8 = o ∧ r = .portFwd n) ∨ r.isEpoch

theorem octetStatus_not_ofShape (o k : Nat) : ¬(Reg.octetStatus k).OfShape o := by
  simp [Reg.OfShape, Reg.isEpoch, Reg.isNote, Reg.isCnt, Reg.isIcSrc]

theorem Hw.resetFwds_reg (l : List Nat) (h : Hw) (n : Nat) :
    (l.foldl (fun h n => h.setReg (.portFwd n) (Reg.reset (.portFwd n))) h).reg (.portFwd n) =
    if n ∈ l then Reg.reset (.portFwd n) else h.reg (.portFwd n) := by
  induction l generalizing h with
  | nil => simp
  | cons m l ih =>
    rw [List.foldl_cons, ih]
    by_cases same : n = m
    · subst same
      rw [Hw.reg_setReg_self]
      simp
    · rw [Hw.reg_setReg_ne _ (by simpa using same)]
      simp [same]

theorem Hw.unlearnOctet_only (h : Hw) (o : Nat) :
    Only (.fwd :: sendParts) Reg.isEpoch h (h.unlearnOctet o) ∧ (h.unlearnOctet o).err.hubLost = h.err.hubLost := by
  have forgets (f : List ExcEnt → List ExcEnt) (ks : List RouteKey) : Only (.fwd :: sendParts) Reg.isEpoch h ((h.mapExc f).reroute ks) ∧
      ((h.mapExc f).reroute ks).err.hubLost = h.err.hubLost :=
    ⟨(Only.fwd h _ List.mem_cons_self).trans (Hw.reroute_only _ ks), (h.mapExc f).reroute_hubLost ks⟩
  unfold Hw.unlearnOctet
  dsimp only
  split
  · exact ⟨.refl _ _ h, rfl⟩
  · exact forgets _ _

/-- OCTET_CFG holds `w`, and PORT_FWD of the octet's lanes reads its Reset value. -/
def Hw.octetFresh (h : Hw) (o : Nat) (w : W64) : Hw :=
  (octetLanes o).foldl (fun h n => h.setReg (.portFwd n) (Reg.reset (.portFwd n))) (h.setReg (.octetCfg o) w)

/-- Octet `o` has the shape of word `w`: its learned entries are gone, and re-routes may follow. -/
def Hw.octetReshaped (h : Hw) (o : Nat) (w : W64) : Hw := (h.withPorts (octetLanes o) fun h => h.octetFresh o w).unlearnOctet o

theorem Hw.octetFresh_only (h : Hw) (o : Nat) (w : W64) : Only [] (fun r => r = .octetCfg o ∨ ∃ n, r = .portFwd n) h (h.octetFresh o w) := by
  refine Only.trans (Only.setReg h _ w (Or.inl rfl)) (Only.foldl _ _ (fun g n => ?_) _)
  exact Only.setReg g _ _ (Or.inr ⟨n, rfl⟩)

theorem Hw.octetFresh_octetCfg (h : Hw) (o : Nat) (w : W64) : (h.octetFresh o w).reg (.octetCfg o) = w := by
  refine (foldl_keeps (fun g : Hw => g.reg (.octetCfg o)) (fun g n => g.reg_setReg_ne (by simp) _) _ _).trans ?_
  exact h.reg_setReg_self _ w

theorem Hw.octetFresh_portFwd (h : Hw) (o : Nat) (w : W64) (n : Nat) : (h.octetFresh o w).reg (.portFwd n) =
    if n / 8 = o then Reg.reset (.portFwd n) else h.reg (.portFwd n) := by
  rw [Hw.octetFresh, Hw.resetFwds_reg, Hw.reg_setReg_ne _ (by simp)]
  simp only [mem_octetLanes]

/-- No lane of an octet is in service while its ports are DARK. -/
theorem Hw.inService_of_dark {h : Hw} {o : Nat} (dark : ∀ n ∈ h.octetPorts o, h.linkState n = 0) :
    ∀ n ∈ octetLanes o, h.inService n = false := by
  intro n lane
  cases start : h.portStart n
  case false => simp [Hw.inService, start]
  case true =>
    have down := dark n (Hw.mem_octetPorts.2 ⟨mem_octetLanes.1 lane, start⟩)
    simp [Hw.inService, Hw.linkUp, down]

section
variable {h : Hw} {o : Nat} {w : W64}

theorem Hw.octetReshaped_reg {r : Reg} (kept : ¬r.isEpoch) : (h.octetReshaped o w).reg r = (h.octetFresh o w).reg r :=
  ((Hw.unlearnOctet_only _ o).1.regs r kept).trans (h.withPorts_reg _ _ kept)

theorem Hw.octetReshaped_only : Only pathParts (Reg.OfShape o) h (h.octetReshaped o w) := by
  constructor
  · intro r outside
    obtain ⟨cfg, fwd, epoch⟩ : r ≠ .octetCfg o ∧ (∀ n, n / 8 = o → r ≠ .portFwd n) ∧ ¬r.isEpoch := by
      simpa [Reg.OfShape] using outside
    rw [Hw.octetReshaped_reg epoch]
    by_cases port : ∃ n, r = .portFwd n
    · obtain ⟨n, rfl⟩ := port
      rw [Hw.octetFresh_portFwd, if_neg fun inside => fwd n inside rfl]
    · exact (h.octetFresh_only o w).regs r (by simp [cfg, port])
  · have parts : Only pathParts (fun _ => True) h (h.octetReshaped o w) := by
      refine Only.trans ?_ ((Hw.unlearnOctet_only _ o).1.mono (by simp +contextual [pathParts]) fun _ _ => trivial)
      refine Only.trans ?_ ((Hw.withPorts_after (P := noRegs) h _ _).mono (fun _ => id) fun _ _ => trivial)
      exact (h.octetFresh_only o w).mono (by simp) fun _ _ => trivial
    exact parts.parts

theorem Hw.octetReshaped_hubLost (dark : ∀ n ∈ h.octetPorts o, h.linkState n = 0) :
    (h.octetReshaped o w).err.hubLost = h.err.hubLost := by
  rw [Hw.octetReshaped, (Hw.unlearnOctet_only _ o).2, Hw.withPorts_hubLost _ (Hw.inService_of_dark dark)]
  exact congrArg Err.hubLost ((h.octetFresh_only o w).parts .err (by simp))

end

/-! ### The guard of R226 -/

theorem reshapes_congr {h h' : Hw} {o : Octet} {w w' : W64} (same : h'.reg (.octetCfg o) = h.reg (.octetCfg o))
    (shape : Fld.octetCfg_shape.get w' = Fld.octetCfg_shape.get w) (mode : Fld.octetCfg_mode.get w' = Fld.octetCfg_mode.get w) :
    Reshapes h' o w' ↔ Reshapes h o w := by
  rw [Reshapes, Reshapes, shape, mode, Hw.fld, Hw.fld, same, Hw.fld, Hw.fld]

theorem mayReshape_congr {h h' : Hw} {o : Octet} {w w' : W64} (same : h'.reg (.octetCfg o) = h.reg (.octetCfg o))
    (links : ∀ n, h'.linkState n = h.linkState n) (shape : Fld.octetCfg_shape.get w' = Fld.octetCfg_shape.get w)
    (mode : Fld.octetCfg_mode.get w' = Fld.octetCfg_mode.get w) : MayReshape h' o w' ↔ MayReshape h o w := by
  have cfg : h'.fld (.octetCfg o) = h.fld (.octetCfg o) := funext fun f => congrArg f.get same
  have ports : h'.octetPorts o = h.octetPorts o := Hw.octetPorts_congr (congrFun cfg _)
  constructor
  · rintro ⟨off, dark, agrees⟩
    exact ⟨cfg ▸ off, fun n port => (links n).symm.trans (dark n (ports ▸ port)), by rwa [shape, mode] at agrees⟩
  · rintro ⟨off, dark, agrees⟩
    exact ⟨cfg ▸ off, fun n port => (links n).trans (dark n (ports ▸ port)), by rwa [shape, mode]⟩

theorem mayReshape_iff {h : Hw} {o : Octet} {w : W64} : MayReshape h o w ↔
    ¬(Fld.octetCfg_enable.get (h.reg (.octetCfg o)) = 1 ∨ ((h.octetPorts o).any fun n => h.linkState n != 0) = true ∨
      (Fld.octetCfg_shape.get w = 3) ≠ (Fld.octetCfg_mode.get w = 1)) := by
  have bit : Fld.octetCfg_enable.get (h.reg (.octetCfg o)) < 2 := Fld.get_lt _ _
  constructor
  · rintro ⟨off, dark, agrees⟩ (on | lit | differs)
    · exact absurd (off.symm.trans on) (by decide)
    · obtain ⟨n, port, lights⟩ := List.any_eq_true.1 lit
      exact absurd (dark n port) (by simpa using lights)
    · exact differs (propext agrees)
  · intro allowed
    obtain ⟨off, dark, agrees⟩ := (not_or.1 allowed).imp_right not_or.1
    refine ⟨?_, fun n port => ?_, iff_of_eq (not_not.1 agrees)⟩
    · show Fld.octetCfg_enable.get (h.reg (.octetCfg o)) = 0
      omega
    · by_contra lit
      exact dark (List.any_eq_true.2 ⟨n, port, by simpa using lit⟩)

/-! ### OCTET_SHAPE_CHANGE of a whole word -/

/-- OCTET_CFG was asked to hold `new` and holds `word`: SHAPE and MODE moved with what R75 says, or nothing else changed. -/
structure ShapeTaken (h h' : Hw) (o : Octet) (new word : W64) : Prop where
  word : h'.reg (.octetCfg o) = word
  lost : h'.err.hubLost = h.err.hubLost
  kept : ¬Reshapes h o new → Only [] (fun r => r = .octetCfg o) h h'
  moved : Reshapes h o new → (∀ n, n / 8 = o.val → h'.reg (.portFwd n) = Reg.reset (.portFwd n)) ∧ Only pathParts (Reg.OfShape o) h h'

namespace ShapeTaken

variable {h h' : Hw} {o : Octet} {new word : W64} (taken : ShapeTaken h h' o new word)
include taken

theorem only : Only pathParts (Reg.OfShape o) h h' := by
  by_cases moves : Reshapes h o new
  · exact (taken.moved moves).2
  · exact (taken.kept moves).mono (by simp) fun _ => Or.inl

theorem linkState (n : Nat) : h'.linkState n = h.linkState n :=
  taken.only.fld (by simp [Reg.OfShape, Reg.isEpoch, Reg.isNote, Reg.isCnt, Reg.isIcSrc]) _

theorem wake : SameWake h h' := by
  refine ⟨?_, ?_, ?_, ?_, fun k => ?_, taken.lost⟩ <;>
    exact taken.only.regs _ (by simp [Reg.OfShape, Reg.isEpoch, Reg.isNote, Reg.isCnt, Reg.isIcSrc])

end ShapeTaken

section
variable {h : Hw} {o : Octet} {w : W64} (reach : h.quadReach (o / 32) = true) (written : h.writeWord (.octetCfg o) .full w = w)
include reach written

theorem Hw.octetShape_of_refused (refused : Fld.octetCfg_laneUcwMax.get w = 0 ∨ Fld.octetCfg_lossHoldUs.get w < 150 ∨
    (Reshapes h o w ∧ ¬MayReshape h o w)) : h.octetShape o .full w = h.octetErr o := by
  unfold Hw.octetShape
  rw [if_neg (by simp [reach])]
  dsimp only
  rw [written]
  rw [mayReshape_iff, not_not] at refused
  obtain range | range | ⟨moves, barred⟩ := refused
  · exact if_pos (Or.inl range)
  · exact if_pos (Or.inr range)
  · split
    · rfl
    · exact if_pos ⟨moves, barred⟩

theorem Hw.octetShape_of_taken (lanes : Fld.octetCfg_laneUcwMax.get w ≠ 0) (hold : 150 ≤ Fld.octetCfg_lossHoldUs.get w)
    (may : Reshapes h o w → MayReshape h o w) : ShapeTaken h (h.octetShape o .full w) o w w := by
  have run : (Reshapes h o w → h.octetShape o .full w = h.octetReshaped o w) ∧
      (¬Reshapes h o w → h.octetShape o .full w = h.setReg (.octetCfg o) w) := by
    unfold Hw.octetShape
    rw [if_neg (by simp [reach])]
    dsimp only
    rw [written, if_neg (by omega), if_neg fun barred => mayReshape_iff.1 (may barred.1) barred.2]
    exact ⟨fun moves => if_neg (not_not.2 moves), fun stands => if_pos stands⟩
  have apart {r : Reg} (cfg : r = .octetCfg o ∨ ∃ n, r = .portFwd n) : ¬r.isEpoch := by
    obtain rfl | ⟨n, rfl⟩ := cfg <;> simp [Reg.isEpoch, Reg.isNote, Reg.isCnt, Reg.isIcSrc]
  by_cases moves : Reshapes h o w
  · rw [run.1 moves]
    refine ⟨?_, Hw.octetReshaped_hubLost (may moves).dark, fun stands => absurd moves stands,
      fun _ => ⟨fun n lane => ?_, Hw.octetReshaped_only⟩⟩
    · rw [Hw.octetReshaped_reg (apart (Or.inl rfl)), Hw.octetFresh_octetCfg]
    · rw [Hw.octetReshaped_reg (apart (Or.inr ⟨n, rfl⟩)), Hw.octetFresh_portFwd, if_pos lane]
  · rw [run.2 moves]
    exact ⟨h.reg_setReg_self _ w, rfl, fun _ => Only.setReg h _ w rfl, fun other => absurd other moves⟩

end

/-! ### OCTET_SHAPE_CHANGE: the other fields, then ENABLE -/

/-- A field of a register outside the change that was set aside and put back reads what it read. -/
theorem Only.restored {ps : List Part} {P : Reg → Prop} {h h' : Hw} {r : Reg} {f : Fld} {n : Nat} (only : Only ps P (h.setFld r f n) h')
    (apart : ¬P r) : Only ps P h (h'.setFld r f (h.fld r f)) := by
  constructor
  · intro x outside
    by_cases same : x = r
    · subst same
      rw [Hw.reg_setFld_self, only.regs x apart, Hw.reg_setFld_self, Fld.put_put]
      exact Fld.put_get f _
    · rw [Hw.reg_setFld_ne _ same, only.regs x outside, Hw.reg_setFld_ne _ same]
  · have set (g : Hw) (n : Nat) : Only ps (fun _ => True) g (g.setFld r f n) := Only.setFld g r f n trivial
    exact ((set h n).trans ((only.mono (fun _ => id) fun _ _ => trivial).trans (set h' _))).parts

/-- CFG_ERR of octet `o` is set aside. -/
def Hw.errAside (h : Hw) (o : Nat) : Hw := h.setFld (.octetStatus o) Fld.octetStatus_cfgErr 0

theorem Hw.errAside_reg (h : Hw) {o : Nat} {r : Reg} (other : r ≠ .octetStatus o) : (h.errAside o).reg r = h.reg r :=
  Hw.reg_setFld_ne h other _ _

theorem Hw.errAside_wake (h : Hw) (o : Nat) : SameWake h (h.errAside o) :=
  ⟨h.errAside_reg (by simp), h.errAside_reg (by simp), h.errAside_reg (by simp), h.errAside_reg (by simp),
    fun _ => h.errAside_reg (by simp), rfl⟩

theorem Hw.errAside_linkState (h : Hw) (o n : Nat) : (h.errAside o).linkState n = h.linkState n := Hw.fld_setFld_ne h (by simp) _ _ _

/-- The write of OCTET_CFG but for ENABLE, which keeps its value; CFG_ERR is as it was. -/
def Hw.octetTaken (h : Hw) (o : Nat) (w : W64) : Hw :=
  ((h.errAside o).octetShape o .full (Fld.octetCfg_enable.put w (h.fld (.octetCfg o) Fld.octetCfg_enable))).setFld (.octetStatus o)
    Fld.octetStatus_cfgErr (h.fld (.octetStatus o) Fld.octetStatus_cfgErr)

/-- A field of OCTET_CFG beside ENABLE reads the same whatever ENABLE is put. -/
theorem get_put_enable (f : Fld) (w : W64) (en : Nat) (inside : f.lo + f.width ≤ 64 := by decide) (above : 1 ≤ f.lo := by decide) :
    f.get (Fld.octetCfg_enable.put w en) = f.get w := Fld.get_put_ne f Fld.octetCfg_enable inside (Or.inr above) w en

section
variable {h : Hw} {o : Octet} {a : Acc} {v new : W64} (reach : h.quadReach (o / 32) = true) (written : new = h.writeWord (.octetCfg o) a v)

theorem reshapes_errAside {en : Nat} : Reshapes (h.errAside o) o (Fld.octetCfg_enable.put new en) ↔ Reshapes h o new :=
  reshapes_congr (h.errAside_reg (by simp)) (get_put_enable _ _ _) (get_put_enable _ _ _)

theorem mayReshape_errAside {en : Nat} : MayReshape (h.errAside o) o (Fld.octetCfg_enable.put new en) ↔ MayReshape h o new :=
  mayReshape_congr (h.errAside_reg (by simp)) (h.errAside_linkState o) (get_put_enable _ _ _) (get_put_enable _ _ _)

include written in
theorem Hw.errAside_writeWord (en : Nat) :
    (h.errAside o).writeWord (.octetCfg o) .full (Fld.octetCfg_enable.put new en) = Fld.octetCfg_enable.put new en := by
  rw [written, Hw.writeWord, h.errAside_reg (by simp)]
  exact Hw.writeWord_octetCfg_again a v en

include reach written

theorem Hw.octetCfgWrite_of_refused (nv : Nv) (refused : Fld.octetCfg_laneUcwMax.get new = 0 ∨ Fld.octetCfg_lossHoldUs.get new < 150 ∨
    (Reshapes h o new ∧ ¬MayReshape h o new)) : h.octetCfgWrite nv o a v = h.octetErr o := by
  have asked := Hw.octetShape_of_refused (o := o) (((h.errAside_wake o).quadReach _).trans reach)
    (Hw.errAside_writeWord written (h.fld (.octetCfg o) Fld.octetCfg_enable))
    (by rwa [get_put_enable Fld.octetCfg_laneUcwMax, get_put_enable Fld.octetCfg_lossHoldUs, reshapes_errAside, mayReshape_errAside])
  unfold Hw.octetCfgWrite
  rw [← written]
  refine if_pos ?_
  show ((h.errAside o).octetShape o .full _).bit _ _ = true
  rw [asked, Hw.octetErr, Hw.bit, Hw.fld_setFld_self]
  rfl

theorem Hw.octetShape_taken (lanes : Fld.octetCfg_laneUcwMax.get new ≠ 0) (hold : 150 ≤ Fld.octetCfg_lossHoldUs.get new)
    (may : Reshapes h o new → MayReshape h o new) (en : Nat) :
    ShapeTaken (h.errAside o) ((h.errAside o).octetShape o .full (Fld.octetCfg_enable.put new en)) o (Fld.octetCfg_enable.put new en)
      (Fld.octetCfg_enable.put new en) :=
  Hw.octetShape_of_taken (((h.errAside_wake o).quadReach _).trans reach) (Hw.errAside_writeWord written en)
    (by rwa [get_put_enable Fld.octetCfg_laneUcwMax]) (by rwa [get_put_enable Fld.octetCfg_lossHoldUs])
    fun moves => mayReshape_errAside.2 (may (reshapes_errAside.1 moves))

theorem Hw.octetTaken_spec (lanes : Fld.octetCfg_laneUcwMax.get new ≠ 0) (hold : 150 ≤ Fld.octetCfg_lossHoldUs.get new)
    (may : Reshapes h o new → MayReshape h o new) :
    ShapeTaken h (h.octetTaken o new) o new (Fld.octetCfg_enable.put new (h.fld (.octetCfg o) Fld.octetCfg_enable)) := by
  have taken := Hw.octetShape_taken reach written lanes hold may (h.fld (.octetCfg o) Fld.octetCfg_enable)
  unfold Hw.octetTaken
  generalize (h.errAside o).octetShape o .full (Fld.octetCfg_enable.put new (h.fld (.octetCfg o) Fld.octetCfg_enable)) = g at taken ⊢
  obtain ⟨word, lost, kept, moved⟩ := taken
  refine ⟨(Hw.reg_setFld_ne g (by simp) _ _).trans word, lost, fun stands => ?_, fun reshaped => ⟨fun n lane => ?_, ?_⟩⟩
  · exact (kept (reshapes_errAside.not.2 stands)).restored (by simp)
  · exact (Hw.reg_setFld_ne g (by simp) _ _).trans ((moved (reshapes_errAside.2 reshaped)).1 n lane)
  · exact (moved (reshapes_errAside.2 reshaped)).2.restored (octetStatus_not_ofShape o o)

theorem Hw.octetCfgWrite_of_taken (nv : Nv) (lanes : Fld.octetCfg_laneUcwMax.get new ≠ 0) (hold : 150 ≤ Fld.octetCfg_lossHoldUs.get new)
    (may : Reshapes h o new → MayReshape h o new) : h.octetCfgWrite nv o a v =
      if a = .hi then h.octetTaken o new else if Fld.octetCfg_enable.get new = 1 then (h.octetTaken o new).octetEnable nv o
      else if h.fld (.octetCfg o) Fld.octetCfg_enable = 1 then (h.octetTaken o new).octetDisable nv o else h.octetTaken o new := by
  have only := (Hw.octetShape_taken reach written lanes hold may (h.fld (.octetCfg o) Fld.octetCfg_enable)).only
  have clear : ¬((h.errAside o).octetShape o .full (Fld.octetCfg_enable.put new (h.fld (.octetCfg o) Fld.octetCfg_enable))).bit
      (.octetStatus o) Fld.octetStatus_cfgErr = true := by
    rw [Hw.bit, only.fld (octetStatus_not_ofShape o o), Hw.errAside, Hw.fld_setFld_self]
    decide
  unfold Hw.octetCfgWrite
  rw [← written]
  exact if_neg clear

end

/-- Settles O8: the write of OCTET_CFG but for ENABLE is `Hw.octetTaken`, which leaves what OCTET_ENABLE and OCTET_DISABLE ask of the chip. -/
theorem octetCommandsDarkenAndLight : Obligations.OctetCommandsDarkenAndLight := by
  unfold Obligations.OctetCommandsDarkenAndLight
  refine ⟨fun o s reach chip quad woken unparked => ?enable, fun o s reach => ?disable, fun o acc v new s reach written =>
    ⟨fun refused => ?refused, fun lanes hold may => ⟨fun off was => ?kept, fun off was => ?darkened,
      fun on full chip quad woken unparked => ?lit⟩⟩⟩
  case enable =>
    obtain ⟨word, -, state⟩ := Hw.octetEnable_spec s.nv (Hw.Awake.mk reach chip quad woken unparked)
    refine ⟨_, rfl, ?_, fun n port dark => (state n).trans (if_pos ⟨port, dark⟩), fun n lit => (state n).trans (if_neg fun dark => lit dark.2),
      rfl, rfl, rfl⟩
    exact (congrArg Fld.octetCfg_enable.get word).trans (Fld.get_put_self _ (by decide) _ 1)
  case disable =>
    obtain ⟨word, state⟩ := Hw.octetDisable_spec (h := s.hw) (o := o) s.nv reach
    refine ⟨_, rfl, ?_, fun n port => (state n).trans (if_pos port),
      fun n other => (state n).trans (if_neg fun port => other (Hw.mem_octetPorts.1 port).1), rfl, rfl, rfl⟩
    exact (congrArg Fld.octetCfg_enable.get word).trans (Fld.get_put_self _ (by decide) _ 0)
  case refused =>
    have run := Hw.octetCfgWrite_of_refused reach written s.nv refused
    refine ⟨_, rfl, ?_, ?_, OnlyHw.of_onHw ?_⟩
    · rw [State.onHw_hw, run]
      exact Hw.reg_setFld_ne _ (by simp) _ _
    · rw [State.onHw_hw, run, Hw.octetErr, Hw.bit, Hw.fld_setFld_self]
      rfl
    · rw [run]
      exact Only.setFld _ _ _ _ rfl
  all_goals
    have taken := Hw.octetTaken_spec reach written lanes hold may
    have run := Hw.octetCfgWrite_of_taken reach written s.nv lanes hold may
  case kept =>
    have same : s.hw.octetCfgWrite s.nv o acc v = s.hw.octetTaken o new := by
      rw [run, off, was]
      simp
    refine ⟨_, rfl, ?_, fun moves => ⟨?_, OnlyHw.of_onHw ?_⟩, fun stands => OnlyHw.of_onHw ?_⟩
    · rw [State.onHw_hw, same, taken.word, was, Fld.put_of_get off]
    · rw [State.onHw_hw, same]
      exact (taken.moved moves).1
    · rw [same]
      exact (taken.moved moves).2
    · rw [same]
      exact taken.kept stands
  case darkened =>
    have full : acc ≠ .hi := by
      rintro rfl
      rw [written, Hw.writeWord_octetCfg_hi, was] at off
      exact absurd off (by decide)
    have same : s.hw.octetCfgWrite s.nv o acc v = (s.hw.octetTaken o new).octetDisable s.nv o := by
      rw [run, if_neg full, if_neg (by omega), if_pos was]
    have stands : ¬Reshapes s.hw o new := fun moves => absurd ((may moves).off.symm.trans was) (by decide)
    have shape : (s.hw.octetTaken o new).shape o = s.hw.shape o := by
      rw [Hw.shape, Hw.fld, taken.word, get_put_enable Fld.octetCfg_shape]
      exact not_not.1 (not_or.1 stands).1
    obtain ⟨word, state⟩ := Hw.octetDisable_spec (o := o) s.nv ((taken.wake.quadReach _).trans reach)
    rw [← same] at word state
    refine ⟨_, rfl, ?_, fun n port => (state n).trans (if_pos ?_), rfl, rfl, rfl⟩
    · rw [State.onHw_hw, word, taken.word, Fld.put_put, Fld.put_of_get off]
    · rwa [Hw.octetPorts_congr shape]
  case lit =>
    have same : s.hw.octetCfgWrite s.nv o acc v = (s.hw.octetTaken o new).octetEnable s.nv o := by
      rw [run, if_neg full, if_pos on]
    obtain ⟨word, ports, state⟩ := Hw.octetEnable_spec s.nv (taken.wake.awake (Hw.Awake.mk reach chip quad woken unparked))
    rw [← same] at word ports state
    refine ⟨_, rfl, ?_, fun n port => ?_, rfl, rfl, rfl⟩
    · rw [State.onHw_hw, word, taken.word, Fld.put_put, Fld.put_of_get on]
    · rw [State.onHw_hw, ports] at port
      rw [State.onHw_hw, state]
      by_cases dark : (s.hw.octetTaken o new).linkState n = 0
      · rw [if_pos ⟨port, dark⟩]
        split <;> decide
      · rwa [if_neg fun down => dark down.2]

end Sys2Proof.Machine
end

section
/-! PROOFS. Ring pairs (R254, R257 to R263, R270, R271): what completions and messages change, said once; doorbells, starts and stops,
descriptor fetches, interrupts and record buffers, with them O54. -/

namespace Sys2Proof.Machine

/-! ### What a command leaves -/

/-- A command that takes the volatile part to `g` answers the state with `g` in it. -/
theorem next_onHw {s : State} {f : Hw → Hw} {g : Hw} (run : f s.hw = g) :
    (.next (s.onHw f) : Host.Outcome State Fault Refusal) = .next { s with hw := g } := by rw [State.onHw, run]

/-- So does one that acts outside a power-on reset alone. -/
theorem next_onLive_of {s : State} {f : Hw → Hw} {g : Hw} (power : s.hw.pwr.porHeld = false) (run : f s.hw = g) :
    (.next (s.onLive f) : Host.Outcome State Fault Refusal) = .next { s with hw := g } := (next_onLive power f).trans (next_onHw run)

theorem OnlyHw.of_hw {ps : List Part} {P : Reg → Prop} {s : State} {g : Hw} (only : Only ps P s.hw g) : OnlyHw ps P s { s with hw := g } :=
  ⟨rfl, fun _ => rfl, rfl, rfl, only⟩

/-! ### Completions and messages (R262, R271) -/

/-- From `h` to `h'` the chip wrote completions, in the registers `P`, and sent messages or holds them: of the host interface only what the
pairs keep, the pending messages, the started descriptors and the turns served may differ, and every pair keeps its state. -/
structure HostTold (P : Reg → Prop) (h h' : Hw) : Prop where
  only : Only [.hst, .out] P h h'
  host : h'.hst = { h.hst with
    rings := h'.hst.rings, msixPending := h'.hst.msixPending, started := h'.hst.started, round := h'.hst.round }
  state : ∀ r, h'.ringState r = h.ringState r
  grows : OutGrows h h'

namespace HostTold

section
variable {P : Reg → Prop}

theorem refl (h : Hw) : HostTold P h h := ⟨.refl _ _ _, rfl, fun _ => rfl, .refl h⟩

theorem trans {a b c : Hw} (first : HostTold P a b) (second : HostTold P b c) : HostTold P a c where
  only := first.only.trans second.only
  host := second.host.trans (by rw [first.host])
  state r := (second.state r).trans (first.state r)
  grows := first.grows.trans second.grows

theorem foldl {α : Type} (l : List α) (g : Hw → α → Hw) (each : ∀ h, ∀ x ∈ l, HostTold P h (g h x)) (h : Hw) :
    HostTold P h (l.foldl g h) :=
  List.foldlRecOn (motive := fun k => HostTold P h k) l g (refl h) fun k told x listed => told.trans (each k x listed)

theorem mono {Q : Reg → Prop} {h h' : Hw} (told : HostTold P h h') (wider : ∀ r, P r → Q r) : HostTold Q h h' :=
  { told with only := told.only.mono (fun _ => id) wider }

theorem mayRequest {h h' : Hw} (told : HostTold P h h') : h'.hst.mayRequest = h.hst.mayRequest := by
  rw [told.host]
  rfl

theorem emit (h : Hw) (o : Out) : HostTold P h (h.emit o) := ⟨.emit _ _ (by simp), rfl, fun _ => rfl, .emit h o⟩

theorem setRing (h : Hw) (r : Nat) (x : RingSt) : HostTold P h (h.setRing r x) := ⟨.hst _ _ (by simp), rfl, fun _ => rfl, .of_eq rfl⟩

theorem dropDesc (h : Hw) (ix : Nat) : HostTold P h (h.dropDesc ix) := ⟨.hst _ _ (by simp), rfl, fun _ => rfl, .of_eq rfl⟩

theorem tookTurn (h : Hw) (i : Nat) : HostTold P h (h.tookTurn i) := ⟨.hst _ _ (by simp), rfl, fun _ => rfl, .of_eq rfl⟩

theorem msix (h : Hw) (v : Nat) : HostTold P h (h.msix v) := by
  unfold Hw.msix
  split
  · exact emit h _
  · exact ⟨.hst _ _ (by simp), rfl, fun _ => rfl, .of_eq rfl⟩

theorem cqSignal (h : Hw) (r : Nat) (force : Bool) : HostTold P h (h.cqSignal r force) := by
  unfold Hw.cqSignal
  dsimp only
  split
  · exact (setRing h r _).trans (msix _ _)
  · exact refl h

theorem cqTail {r : Nat} (here : P (.ringStatus r)) (h : Hw) (n : Nat) :
    HostTold P h (h.setFld (.ringStatus r) Fld.ringStatus_cqTail n) where
  only := .setFld h _ _ _ here
  host := rfl
  state x := by
    by_cases same : x = r
    · subst same
      exact Hw.fld_setFld_apart h _ n
    · exact Hw.fld_setFld_ne h (by simpa using same) _ _ n
  grows := .of_eq rfl

theorem cqWrite {r : Nat} (here : P (.ringStatus r)) (h : Hw) (tag status result : Nat) :
    HostTold P h (h.cqWrite r tag status result) := by
  unfold Hw.cqWrite
  extract_lets x t e h1 t' h2 h3
  have written : HostTold P h h3 := ((emit h _).trans (cqTail here h1 t')).trans (setRing h2 r _)
  exact written.trans (cqSignal h3 r false)

theorem complete {r : Nat} (here : P (.ringStatus r)) (h : Hw) (tag status result : Nat) :
    HostTold P h (h.complete r tag status result) := by
  unfold Hw.complete
  split
  · exact refl h
  · split
    · exact setRing h r _
    · exact cqWrite here h tag status result

theorem finish {d : Desc} (here : P (.ringStatus d.ring)) (h : Hw) (status result : Nat) : HostTold P h (h.finish d status result) :=
  (dropDesc h d.ix).trans (complete here _ _ _ _)

theorem finishBuf {d : Desc} (here : P (.ringStatus d.ring)) (h : Hw) (status : Nat) : HostTold P h (h.finishBuf d status) := by
  unfold Hw.finishBuf
  dsimp only
  refine HostTold.trans ?_ (finish here _ _ _)
  split
  · exact refl h
  · exact emit h _

end

end HostTold

theorem Hw.finish_started (h : Hw) (d : Desc) (status result : Nat) :
    (h.finish d status result).hst.started = h.hst.started.filter fun x => x.ix != d.ix := Hw.complete_started _ _ _ _ _

theorem Hw.finishBuf_started (h : Hw) (d : Desc) (status : Nat) :
    (h.finishBuf d status).hst.started = h.hst.started.filter fun x => x.ix != d.ix := by
  unfold Hw.finishBuf
  dsimp only
  rw [Hw.finish_started]
  split <;> rfl

/-- A completion shows what it is told, whatever was done before, if the pair's state stands and so does the right to start requests. -/
theorem Hw.finish_completed_of {h g : Hw} {d : Desc} (state : g.ringState d.ring = h.ringState d.ring)
    (may : g.hst.mayRequest = h.hst.mayRequest) (status result : Nat) : Completed h (g.finish d status result) d status result :=
  have ended := Hw.finish_completed g d status result
  ⟨ended.gone, state ▸ may ▸ ended.entry, state ▸ may ▸ ended.held⟩

/-! ### Errors of a pair (R257) -/

/-- A pair in ERROR with its cause, and RING_ERR raised. -/
theorem Hw.ringError_spec (h : Hw) (r : Nat) {e : Nat} (small : e < 32) :
    (h.ringError r e).ringState r = 3 ∧ (h.ringError r e).fld (.ringStatus r) Fld.ringStatus_err = e ∧
      ((h.ringError r e).reg .hostIrqSts).getLsbD 8 = true ∧ (h.ringError r e).hst.started = h.hst.started ∧
      Only [.hst, .out] (fun x => x = .ringStatus r ∨ x = .hostIrqSts) h (h.ringError r e) := by
  obtain ⟨g, hg⟩ : ∃ g, g = (h.setRingState r 3).setFld (.ringStatus r) Fld.ringStatus_err e := ⟨_, rfl⟩
  have run : h.ringError r e = g.hostEvent 8 := by rw [hg, Hw.ringError]
  have kept (f : Fld) : (g.hostEvent 8).fld (.ringStatus r) f = g.fld (.ringStatus r) f := (Hw.hostEvent_only g 8).fld (by simp) f
  rw [run]
  refine ⟨?_, ?_, Hw.hostEvent_latched g (by decide), ?_, ?_⟩
  · rw [Hw.ringState, kept, hg, Hw.fld_setFld_apart, Hw.setRingState, Hw.fld_setFld_self]
    rfl
  · rw [kept, hg, Hw.fld_setFld_self]
    exact Nat.mod_eq_of_lt small
  · have same : g.hst.started = h.hst.started := by rw [hg]; rfl
    rw [← same]
    unfold Hw.hostEvent
    dsimp only
    split
    · exact Hw.msix_started _ _
    · rfl
  · refine Only.trans (b := g) ?_ ((Hw.hostEvent_only g 8).mono (fun _ => id) fun _ => .inr)
    rw [hg]
    exact (Only.setFld h _ _ _ (.inl rfl)).trans (Only.setFld _ _ _ _ (.inl rfl))

/-! ### Doorbells (R254, R258) -/

theorem Hw.ringDead_iff (h : Hw) (r : Nat) : h.ringDead r = true ↔ h.ringState r = 0 ∨ h.ringState r = 3 := by simp [Hw.ringDead]

theorem Hw.badDoorbell_spec (h : Hw) :
    h.badDoorbell.fld .hqStatus Fld.hqStatus_badDoorbells =
        min (h.fld .hqStatus Fld.hqStatus_badDoorbells + 1) (2 ^ Fld.hqStatus_badDoorbells.width - 1) ∧
      Only [] (fun x => x = .hqStatus) h h.badDoorbell := by
  refine ⟨?_, .satFld h _ _ _ rfl⟩
  rw [Hw.badDoorbell, Hw.satFld, Hw.fld_setFld_self]
  exact Nat.mod_eq_of_lt (lt_of_le_of_lt (Nat.min_le_right _ _) (by decide))

/-- A pair that takes no doorbell counts it. -/
theorem Hw.doorbell_of_dead {h : Hw} {r : Nat} (dead : h.ringState r = 0 ∨ h.ringState r = 3) (v : W64) :
    h.sqDoorbell r v = h.badDoorbell ∧ h.cqDoorbell r v = h.badDoorbell := by
  have dead' := (h.ringDead_iff r).2 dead
  exact ⟨if_pos dead', if_pos dead'⟩

section
variable {h : Hw} {r : Nat} (enabled : h.ringState r ≠ 0) (alive : h.ringState r ≠ 3)
include enabled alive

theorem Hw.ringDead_of_alive : ¬h.ringDead r = true := by simp [Hw.ringDead_iff, enabled, alive]

theorem Hw.sqDoorbell_of_inside {v : W64} (inside : v.toNat % 65536 < h.sqSize r) :
    h.sqDoorbell r v = h.setFld (.ringStatus r) Fld.ringStatus_sqTail (v.toNat % 65536) := by
  rw [Hw.sqDoorbell, if_neg (Hw.ringDead_of_alive enabled alive), if_neg (Nat.not_le.2 inside)]

theorem Hw.sqDoorbell_of_beyond {v : W64} (beyond : h.sqSize r ≤ v.toNat % 65536) : h.sqDoorbell r v = h.ringError r 1 := by
  rw [Hw.sqDoorbell, if_neg (Hw.ringDead_of_alive enabled alive), if_pos beyond]

/-- CQ_HEAD moves to the doorbell's index. -/
theorem Hw.cqDoorbell_of_inside {v : W64} (inside : v.toNat % 65536 < h.cqSize r)
    (written : ringDist (h.cqSize r) (h.ring r).cqHead (v.toNat % 65536) ≤
      ringDist (h.cqSize r) (h.ring r).cqHead (h.fld (.ringStatus r) Fld.ringStatus_cqTail)) :
    ((h.cqDoorbell r v).ring r).cqHead = v.toNat % 65536 ∧ Only [.hst, .out] noRegs h (h.cqDoorbell r v) := by
  have signal (g : Hw) (force : Bool) : ((g.cqSignal r force).ring r).cqHead = (g.ring r).cqHead := by
    unfold Hw.cqSignal
    dsimp only
    split
    · have rings (k : Hw) (n : Nat) : (k.msix n).ring r = k.ring r := by
        unfold Hw.msix
        split <;> rfl
      rw [rings, Hw.ring_setRing]
    · rfl
  unfold Hw.cqDoorbell
  extract_lets c n tail x g
  rw [if_neg (Hw.ringDead_of_alive enabled alive), if_neg (not_or.2 ⟨Nat.not_le.2 inside, Nat.not_lt.2 written⟩)]
  have moved : HostTold noRegs h g := .setRing _ _ _
  have head : (g.ring r).cqHead = c := by rw [Hw.ring_setRing]
  split
  · refine ⟨?_, ((moved.trans (.setRing _ _ _)).trans (.cqSignal _ _ _)).only⟩
    rw [signal, Hw.ring_setRing]
    exact head
  · exact ⟨head, moved.only⟩

theorem Hw.cqDoorbell_of_beyond {v : W64} (beyond : h.cqSize r ≤ v.toNat % 65536 ∨
    ringDist (h.cqSize r) (h.ring r).cqHead (h.fld (.ringStatus r) Fld.ringStatus_cqTail) <
      ringDist (h.cqSize r) (h.ring r).cqHead (v.toNat % 65536)) : h.cqDoorbell r v = h.ringError r 2 := by
  rw [Hw.cqDoorbell, if_neg (Hw.ringDead_of_alive enabled alive), if_pos beyond]

end

/-! ### Starts and stops (R257, R260) -/

/-- A DISABLED pair starts RUNNING and empty. -/
theorem Hw.ringEnable_spec {h : Hw} {r : Nat} (v : W64) (off : h.ringState r = 0) :
    (h.ringEnable r v).ringState r = 1 ∧ (h.ringEnable r v).bit (.ringCtl r) Fld.ringCtl_enable = true ∧
      (∀ f : Fld, f.lo + f.width ≤ 48 → (h.ringEnable r v).fld (.ringStatus r) f = 0) ∧ (h.ringEnable r v).ring r = RingSt.fresh ∧
      (h.ringEnable r v).hst.started = h.hst.started ∧
      Only [.hst] (fun x => x = .ringCtl r ∨ x = .ringStatus r) h (h.ringEnable r v) := by
  rw [Hw.ringEnable, if_neg (not_not.2 off)]
  extract_lets g1 g2
  have started : Only [] (fun x => x = .ringCtl r ∨ x = .ringStatus r) h g2 :=
    ((Only.setReg h _ _ (.inl rfl)).trans (Only.setReg g1 _ 0 (.inr rfl))).trans (Only.setFld _ _ _ _ (.inr rfl))
  have control : g2.reg (.ringCtl r) = g1.reg (.ringCtl r) := by
    show ((g1.setReg (.ringStatus r) 0).setFld (.ringStatus r) Fld.ringStatus_state 1).reg (.ringCtl r) = _
    rw [Hw.reg_setFld_ne _ (by simp), Hw.reg_setReg_ne _ (by simp)]
  refine ⟨?_, ?_, fun f below => ?_, Hw.ring_setRing _ _ _, rfl, ?_⟩
  · exact Hw.fld_setFld_self (g1.setReg _ _) _ 1
  · show g2.bit _ _ = true
    rw [Hw.bit, Hw.fld, control, Hw.reg_setReg_self, Fld.get_put_self _ (by decide)]
    rfl
  · show ((g1.setReg (.ringStatus r) 0).setFld (.ringStatus r) Fld.ringStatus_state 1).fld (.ringStatus r) f = 0
    rw [Hw.fld, Hw.reg_setFld_self, Fld.get_put_ne _ _ (by omega) (.inl below), Hw.reg_setReg_self]
    simp [Fld.get]
  · exact (started.mono (by simp) fun _ => id).trans (.hst _ _ (by simp))

theorem Hw.askStop_only {ps : List Part} {P : Reg → Prop} (h : Hw) (p : Nat → Nat → Bool) (gon : Part.gon ∈ ps) (hst : Part.hst ∈ ps) :
    Only ps P h (h.askStop p) :=
  (Only.hst h (h.askStop p).hst hst).trans (.gon _ _ gon)

theorem Hw.stageDrop_only {ps : List Part} {P : Reg → Prop} (h : Hw) (part : Part.hst ∈ ps) : Only ps P h h.stageDrop := .hst h _ part

/-- A pair that gives up its stage set. -/
def Hw.stageLeft (h : Hw) (r : Nat) : Hw := if h.hst.stageOwner = r then h.stageDrop else h

theorem Hw.stageLeft_only {ps : List Part} {P : Reg → Prop} (h : Hw) (r : Nat) (part : Part.hst ∈ ps) : Only ps P h (h.stageLeft r) := by
  unfold Hw.stageLeft
  split
  · exact h.stageDrop_only part
  · exact .refl _ _ _

theorem Hw.stageLeft_stage {h : Hw} {r : Nat} (owner : h.hst.stageOwner = r) : (h.stageLeft r).hst.stage = [] := by
  rw [Hw.stageLeft, if_pos owner]
  rfl

/-- What becomes of a pair whose ENABLE is cleared: RUNNING or PAUSED it goes STOPPING, in ERROR it goes DISABLED. -/
theorem Hw.ringDisable_spec {h : Hw} {r : Nat} (on : h.ringState r = 1 ∨ h.ringState r = 3 ∨ h.ringState r = 4) :
    (h.ringDisable r).ringState r = (if h.ringState r = 3 then 0 else 2) ∧ (h.ringDisable r).bit (.ringCtl r) Fld.ringCtl_enable = false ∧
      (h.hst.stageOwner = r → (h.ringDisable r).hst.stage = []) ∧
      Only [.gon, .hst, .out] (fun x => x = .ringCtl r ∨ x = .ringStatus r) h (h.ringDisable r) := by
  have cleared (g : Hw) : (g.setFld (.ringCtl r) Fld.ringCtl_enable 0).bit (.ringCtl r) Fld.ringCtl_enable = false := by
    rw [Hw.bit, Hw.fld_setFld_self]
    rfl
  have control {g g' : Hw} {ps : List Part} (only : Only ps (fun x => x = .ringStatus r) g g') :
      g'.bit (.ringCtl r) Fld.ringCtl_enable = g.bit (.ringCtl r) Fld.ringCtl_enable := by rw [Hw.bit, only.fld (by simp), Hw.bit]
  by_cases error : h.ringState r = 3
  · obtain ⟨g, hg⟩ : ∃ g, g = h.askStop fun x _ => x == r := ⟨_, rfl⟩
    obtain ⟨e, he⟩ : ∃ e, e = (((g.setFld (.ringCtl r) Fld.ringCtl_enable 0).setRingState r 0).setFld (.ringStatus r)
      Fld.ringStatus_err 0) := ⟨_, rfl⟩
    have run : h.ringDisable r = { e.stageLeft r with
        hst := { (e.stageLeft r).hst with started := (e.stageLeft r).hst.started.filter fun d => d.ring != r } } := by
      rw [Hw.ringDisable, if_neg (by omega), if_pos error, he, hg]
      rfl
    have left : Only [.hst] noRegs e (h.ringDisable r) := run ▸ (e.stageLeft_only r (by simp)).trans (.hst _ _ (by simp))
    have asked : Only [.gon, .hst] noRegs h g := hg ▸ h.askStop_only _ (by simp) (by simp)
    have status : Only [] (fun x => x = .ringStatus r) (g.setFld (.ringCtl r) Fld.ringCtl_enable 0) e := by
      rw [he]
      exact (Only.setFld (P := fun x => x = .ringStatus r) _ _ _ _ rfl).trans (Only.setFld _ _ _ _ rfl)
    refine ⟨?_, ?_, fun owner => ?_, ?_⟩
    · rw [if_pos error, Hw.ringState, left.fld id, he, Hw.fld_setFld_apart]
      exact Hw.fld_setFld_self _ _ 0
    · rw [Hw.bit, left.fld id, ← Hw.bit, control status, cleared]
    · rw [run]
      refine Hw.stageLeft_stage ?_
      rw [he, hg]
      exact owner
    · refine ((asked.mono (by simp) fun _ none => none.elim).trans ?_).trans (left.mono (by simp) fun _ none => none.elim)
      exact (Only.setFld g _ _ _ (.inl rfl)).trans (status.mono (by simp) fun _ => .inr)
  · obtain ⟨e, he⟩ : ∃ e, e = (h.setFld (.ringCtl r) Fld.ringCtl_enable 0).setRingState r 2 := ⟨_, rfl⟩
    obtain ⟨g, hg⟩ : ∃ g, g = (e.stageLeft r).askStop fun x _ => x == r := ⟨_, rfl⟩
    have run : h.ringDisable r = (g.hst.started.filter fun d => d.ring == r && !d.begun && (opStops d.opcode || opCopies d.opcode)).foldl
        (fun h d => h.finish d 0x06 0) g := by
      rw [Hw.ringDisable, if_pos (by omega), hg, he]
      rfl
    have ended : HostTold (fun x => x = .ringStatus r) g (h.ringDisable r) := by
      rw [run]
      refine .foldl _ _ (fun k d mine => .finish ?_ k 0x06 0) g
      obtain ⟨-, kind⟩ := List.mem_filter.1 mine
      simp only [Bool.and_eq_true, beq_iff_eq] at kind
      obtain ⟨⟨ring, -⟩, -⟩ := kind
      exact congrArg Reg.ringStatus ring
    have asked : Only [.gon, .hst] noRegs e g :=
      (e.stageLeft_only r (by simp)).trans (hg ▸ Hw.askStop_only _ _ (by simp) (by simp))
    refine ⟨?_, ?_, fun owner => ?_, ?_⟩
    · rw [if_neg error, ended.state, Hw.ringState, asked.fld id, he]
      exact Hw.fld_setFld_self _ _ 2
    · rw [control ended.only, Hw.bit, asked.fld id, he, Hw.setRingState, Hw.fld_setFld_ne _ (by simp)]
      exact cleared h
    · rw [ended.host, hg]
      refine Hw.stageLeft_stage (h := e) ?_
      rw [he]
      exact owner
    · refine Only.trans (b := e) ?_ ((asked.mono (by simp) fun _ none => none.elim).trans (ended.only.mono (by simp) fun _ => .inr))
      rw [he]
      exact (Only.setFld h _ _ _ (.inl rfl)).trans (Only.setFld _ _ _ _ (.inr rfl))

/-- Buffers that complete are gone, and nothing is started. -/
theorem Hw.started_of_foldl_finishBuf {x : Desc} (l : List Desc) (h : Hw)
    (left : x ∈ (l.foldl (fun h d => h.finishBuf d 0) h).hst.started) : x ∈ h.hst.started ∧ ∀ d ∈ l, x.ix ≠ d.ix := by
  induction l generalizing h with
  | nil => exact ⟨left, by simp⟩
  | cons d l ih =>
    obtain ⟨there, others⟩ := ih (h.finishBuf d 0) left
    rw [Hw.finishBuf_started, List.mem_filter] at there
    exact ⟨there.1, List.forall_mem_cons.2 ⟨by simpa using there.2, others⟩⟩

/-- A STOPPING pair with only record buffers left ends DISABLED, and none of its descriptors is left. -/
theorem Hw.ringStopComplete_spec {h : Hw} {r : Nat} (stopping : h.ringState r = 2) (may : h.hst.mayRequest = true)
    (buffers : ∀ d ∈ h.hst.started, d.ring = r → d.opcode = 0x070) :
    (h.ringStopComplete r).ringState r = 0 ∧ (∀ d ∈ (h.ringStopComplete r).hst.started, d.ring ≠ r) ∧
      Only [.hst, .out] (fun x => x = .ringStatus r) h (h.ringStopComplete r) := by
  have run : h.ringStopComplete r =
      ((h.hst.started.filter fun d => d.ring == r).foldl (fun h d => h.finishBuf d 0) h).setRingState r 0 := by
    rw [Hw.ringStopComplete, if_neg]
    simpa [stopping, may] using buffers
  rw [run]
  refine ⟨Hw.fld_setFld_self _ _ 0, fun d left mine => ?_, ?_⟩
  · obtain ⟨there, others⟩ := Hw.started_of_foldl_finishBuf _ h left
    exact others d (List.mem_filter.2 ⟨there, by simpa using mine⟩) rfl
  · refine Only.trans (HostTold.foldl _ _ (fun k d mine => .finishBuf ?_ k 0) h).only (Only.setFld _ _ _ _ rfl)
    rw [show d.ring = r by simpa using (List.mem_filter.1 mine).2]

/-! ### Descriptor fetch (R259, R261) -/

/-- A RUNNING pair may fetch: work stands in its SQ, its CQ has room, and the engine has begun what it started. -/
structure Hw.MayFetch (h : Hw) (r : Nat) : Prop where
  running : h.ringState r = 1
  may : h.hst.mayRequest = true
  work : h.fld (.ringStatus r) Fld.ringStatus_sqHead ≠ h.fld (.ringStatus r) Fld.ringStatus_sqTail
  room : h.cqRoom r = true
  begun : h.unbegun r = none

section
variable {h : Hw} {r : Nat} (fetch : h.MayFetch r)
include fetch

theorem Hw.MayFetch.not_idle : ¬(h.ringState r ≠ 1 ∨ h.hst.mayRequest = false ∨
    h.fld (.ringStatus r) Fld.ringStatus_sqHead = h.fld (.ringStatus r) Fld.ringStatus_sqTail ∨ h.cqRoom r = false ∨
      (h.unbegun r).isSome = true) := by
  simp [fetch.running, fetch.may, fetch.work, fetch.room, fetch.begun]

theorem Hw.descriptorFetch_of_failed : h.descriptorFetch r none = h.ringError r 3 := by
  rw [Hw.descriptorFetch, if_neg fetch.not_idle]

/-- A fetched descriptor that the ring may hold joins the started ones, and SQ_HEAD moves on. -/
theorem Hw.descriptorFetch_spec {l : List Byte} {d : Desc} (whole : l.length = 64) (fetched : d = ⟨r, h.hst.nextIx, l, false, [], 0, none⟩)
    (order : d.order = false ∨ h.ringLoad r = 0) (assigned : opAssigned d.opcode = true)
    (kind : opOnRing d.opcode (h.fld (.ringCtl r) Fld.ringCtl_kind) = true) :
    (h.descriptorFetch r (some l)).hst.started = h.hst.started ++ [d] ∧
      (h.descriptorFetch r (some l)).fld (.ringStatus r) Fld.ringStatus_sqHead =
        (h.fld (.ringStatus r) Fld.ringStatus_sqHead + 1) % h.sqSize r % 2 ^ 16 ∧
      Only [.hst] (fun x => x = .ringStatus r) h (h.descriptorFetch r (some l)) := by
  have bytes : (padTo 64 l).take 64 = l := by simp [padTo, whole]
  have waits : ¬(d.order && decide (0 < h.ringLoad r)) = true := by
    rcases order with order | order <;> simp [order]
  obtain ⟨g, hg⟩ : ∃ g, g = h.setFld (.ringStatus r) Fld.ringStatus_sqHead
      ((h.fld (.ringStatus r) Fld.ringStatus_sqHead + 1) % h.sqSize r) := ⟨_, rfl⟩
  have moved : Only [] (fun x => x = .ringStatus r) h g := hg ▸ Only.setFld h _ _ _ rfl
  have run : h.descriptorFetch r (some l) = { g with hst := { g.hst with started := g.hst.started ++ [d], nextIx := g.hst.nextIx + 1 } } := by
    rw [Hw.descriptorFetch, if_neg fetch.not_idle]
    dsimp only
    rw [bytes, ← fetched, ← hg, if_neg waits, if_neg (by simp [assigned]), if_neg]
    rw [Bool.not_eq_false, ← kind]
    exact congrArg _ (moved.fld (by simp) _)
  rw [run]
  refine ⟨congrArg (·.started ++ [d]) (moved.parts .hst (by simp)), ?_, (moved.mono (by simp) fun _ => id).trans (.hst _ _ (by simp))⟩
  exact hg ▸ Hw.fld_setFld_self h _ _

end

/-! ### Interrupts (R271) -/

/-- A message is sent or held. -/
theorem Hw.msix_told (h : Hw) (v : Nat) : .msix v ∈ (h.msix v).out ∨ v ∈ (h.msix v).hst.msixPending := by
  unfold Hw.msix
  split
  · exact .inl (List.mem_cons_self ..)
  · refine .inr ?_
    dsimp only
    split
    · assumption
    · exact List.mem_cons_self ..

/-- The coalescing timer of an armed CQ sends the CQ's message, or leaves it pending. -/
theorem Hw.coalExpire_spec {h : Hw} {r t0 : Nat} (first : (h.ring r).firstAt = some t0)
    (due : t0 + slotsUs * h.fld (.ringCtl r) Fld.ringCtl_coalUs ≤ h.tim.local_) (armed : (h.ring r).armed = true)
    (on : h.bit (.ringCtl r) Fld.ringCtl_irqEn = true) (waits : 0 < (h.ring r).unsignaled) :
    ((h.coalExpire r).ring r).armed = false ∧ ((h.coalExpire r).ring r).unsignaled = 0 ∧
      (.msix (h.fld (.ringCtl r) Fld.ringCtl_vector) ∈ (h.coalExpire r).out ∨
        h.fld (.ringCtl r) Fld.ringCtl_vector ∈ (h.coalExpire r).hst.msixPending) ∧
      Only [.hst, .out] noRegs h (h.coalExpire r) := by
  have run : h.coalExpire r = (h.setRing r { h.ring r with armed := false, waiting := [] }).msix (h.fld (.ringCtl r) Fld.ringCtl_vector) := by
    rw [Hw.coalExpire, first]
    dsimp only
    rw [if_neg (by omega), Hw.cqSignal, if_pos (by simp [armed, on, waits])]
  have ring : (h.coalExpire r).ring r = { h.ring r with armed := false, waiting := [] } := by
    rw [run, Hw.msix]
    split <;> exact Hw.ring_setRing _ _ _
  refine ⟨by rw [ring], by rw [ring]; rfl, ?_, ?_⟩
  · rw [run]
    exact Hw.msix_told _ _
  · rw [run]
    exact ((HostTold.setRing _ _ _).trans (.msix _ _)).only

/-- What pending messages leave: the unmasked ones go out while requests may be started. -/
theorem Hw.sendPending_told {P : Reg → Prop} (h : Hw) : HostTold P h h.sendPending := by
  unfold Hw.sendPending
  split
  · exact .refl h
  · obtain ⟨g, hg⟩ : ∃ g : Hw, g = { h with hst := { h.hst with
      msixPending := h.hst.msixPending.filter fun v => !h.hst.msixOpen.contains v } } := ⟨_, rfl⟩
    have cut : HostTold P h g := hg ▸ ⟨.hst h _ (by simp), rfl, fun _ => rfl, .of_eq rfl⟩
    dsimp only
    rw [← hg]
    exact cut.trans (.foldl _ _ (fun k v _ => .emit k _) g)

theorem Hw.foldl_emit_out {α : Type} (mk : α → Out) (l : List α) (h : Hw) :
    (l.foldl (fun h v => h.emit (mk v)) h).out = (l.map mk).reverse ++ h.out ∧ (l.foldl (fun h v => h.emit (mk v)) h).hst = h.hst := by
  induction l generalizing h with
  | nil => exact ⟨rfl, rfl⟩
  | cons v l ih =>
    obtain ⟨out, hst⟩ := ih (h.emit (mk v))
    exact ⟨by rw [List.foldl_cons, out]; simp, hst⟩

theorem Hw.sendPending_sent {h : Hw} {v : Nat} (may : h.hst.mayRequest = true) (open_ : v ∈ h.hst.msixOpen)
    (pending : v ∈ h.hst.msixPending) : .msix v ∈ h.sendPending.out ∧ v ∉ h.sendPending.hst.msixPending := by
  rw [Hw.sendPending, if_neg (by simp [may])]
  dsimp only
  rw [(Hw.foldl_emit_out Out.msix _ _).1, (Hw.foldl_emit_out Out.msix _ _).2]
  constructor
  · refine List.mem_append_left _ (List.mem_reverse.2 (List.mem_map_of_mem (List.mem_filter.2 ⟨pending, ?_⟩)))
    simpa using open_
  · simp [open_]

theorem Hw.msixUnmask_spec (h : Hw) (v : Nat) :
    v ∈ (h.msixUnmask v).hst.msixOpen ∧
      (h.hst.mayRequest = true → v ∈ h.hst.msixPending → .msix v ∈ (h.msixUnmask v).out ∧ v ∉ (h.msixUnmask v).hst.msixPending) ∧
      Only [.hst, .out] noRegs h (h.msixUnmask v) := by
  obtain ⟨g, hg⟩ : ∃ g : Hw, g = { h with hst := { h.hst with
    msixOpen := if h.hst.msixOpen.contains v then h.hst.msixOpen else v :: h.hst.msixOpen } } := ⟨_, rfl⟩
  have run : h.msixUnmask v = g.sendPending := by rw [hg, Hw.msixUnmask]
  have open_ : v ∈ g.hst.msixOpen := by
    rw [hg]
    dsimp only
    split
    · next listed => simpa using listed
    · exact List.mem_cons_self ..
  have told : HostTold noRegs g g.sendPending := g.sendPending_told
  rw [run]
  refine ⟨by rw [told.host]; exact open_, fun may pending => Hw.sendPending_sent ?_ open_ ?_, Only.trans (b := g) ?_ told.only⟩
  · rw [hg]
    exact may
  · rw [hg]
    exact pending
  · rw [hg]
    exact .hst h _ (by simp)

/-! ### Record buffers (R270) -/

/-- A command that may run before DP_READY runs in its turn (R255). -/
theorem Hw.command_of_early {h : Hw} {r op : Nat} {d : Desc} (next : h.unbegun r = some d) (opcode : d.opcode = op)
    (turn : h.mayTurn r = true) (alive : h.fatalChip = false) (f : Desc → Hw) : h.command r op true f = (f d).tookTurn r := by
  simp [Hw.command, next, opcode, turn, alive]

theorem Hw.started_of_unbegun {h : Hw} {r : Nat} {d : Desc} (next : h.unbegun r = some d) : d ∈ h.hst.started ∧ d.ring = r := by
  obtain ⟨ring, -⟩ : d.ring = r ∧ d.begun = false := by simpa using List.find?_some next
  exact ⟨List.mem_of_find?_eq_some next, ring⟩

theorem Hw.begin_started {h : Hw} {d : Desc} (there : d ∈ h.hst.started) : { d with begun := true } ∈ (h.begin_ d).hst.started := by
  have := List.mem_map_of_mem (f := fun x : Desc => if x.ix = d.ix then { x with begun := true } else x) there
  rwa [if_pos rfl] at this

/-- A buffer completes with its bytes and records, and its bytes go to host memory. -/
theorem Hw.finishBuf_spec (h : Hw) (d : Desc) :
    Completed h (h.finishBuf d 0) d 0 (d.filled.length + 2 ^ 32 * d.nrec) ∧
      (d.filled ≠ [] → .hostWrite d.ring (getLE d.bytes 8 8) d.filled ∈ (h.finishBuf d 0).out) := by
  unfold Hw.finishBuf
  dsimp only
  by_cases empty : d.filled = []
  · rw [if_pos (by simp [empty])]
    exact ⟨Hw.finish_completed h d _ _, fun filled => absurd empty filled⟩
  · rw [if_neg (by simpa using empty)]
    exact ⟨Hw.finish_completed_of (by rfl) (by rfl) _ _, fun _ => (Hw.finish_grows _ _ _ _).subset (List.mem_cons_self ..)⟩

theorem Hw.recordFlush_of_due {h : Hw} {r t0 : Nat} {d : Desc} {rest : List Desc} (buffers : h.recBufs r = d :: rest)
    (first : d.firstAt = some t0) (may : h.hst.mayRequest = true)
    (due : t0 + slotsUs * h.fld .hqCtl Fld.hqCtl_recordFlushUs ≤ h.tim.local_) : h.recordFlush r = h.finishBuf d 0 ∧ d.ring = r := by
  have mine : d ∈ h.recBufs r := buffers ▸ List.mem_cons_self ..
  obtain ⟨-, kind⟩ := List.mem_filter.1 mine
  simp only [Bool.and_eq_true, beq_iff_eq] at kind
  obtain ⟨⟨ring, -⟩, -⟩ := kind
  refine ⟨?_, ring⟩
  rw [Hw.recordFlush, buffers]
  dsimp only
  rw [first]
  dsimp only
  rw [if_neg (by simpa [may] using due)]

/-! ### The statement -/

/-- Settles O54: a lemma above says what each event of a pair does. -/
theorem ringsTakeDoorbellsAndDescriptors : Obligations.RingsTakeDoorbellsAndDescriptors := by
  unfold Obligations.RingsTakeDoorbellsAndDescriptors
  intro r s
  refine ⟨fun v power => ⟨?sqInside, ?sqBeyond, ?dead, ?cqInside, ?cqBeyond⟩, ?noDoorbell, ?enable, ?disable, ?stopped, ?fetch, ?coalesce,
    ?unmask, ?buffer, ?flush⟩
  case sqInside =>
    intro enabled alive inside
    refine ⟨_, next_onLive_of power (Hw.sqDoorbell_of_inside enabled alive inside), ?_, .of_hw (.setFld _ _ _ _ rfl)⟩
    exact (Hw.fld_setFld_self _ _ _).trans (Nat.mod_mod _ _)
  case sqBeyond =>
    intro enabled alive beyond
    obtain ⟨state, cause, raised, -, only⟩ := s.hw.ringError_spec r (e := 1) (by decide)
    exact ⟨_, next_onLive_of power (Hw.sqDoorbell_of_beyond enabled alive beyond), state, cause, raised, .of_hw only⟩
  case dead =>
    intro dead c doorbell
    obtain ⟨counted, only⟩ := s.hw.badDoorbell_spec
    obtain ⟨sq, cq⟩ := Hw.doorbell_of_dead dead v
    rcases doorbell with rfl | rfl
    · exact ⟨_, next_onLive_of power sq, counted, .of_hw only⟩
    · exact ⟨_, next_onLive_of power cq, counted, .of_hw only⟩
  case cqInside =>
    intro enabled alive inside written
    obtain ⟨head, only⟩ := Hw.cqDoorbell_of_inside enabled alive inside written
    exact ⟨_, next_onLive_of power rfl, head, .of_hw only⟩
  case cqBeyond =>
    intro enabled alive beyond
    obtain ⟨state, cause, raised, -, only⟩ := s.hw.ringError_spec r (e := 2) (by decide)
    exact ⟨_, next_onLive_of power (Hw.cqDoorbell_of_beyond enabled alive beyond), state, cause, raised, .of_hw only⟩
  case noDoorbell =>
    intro off size power other
    obtain ⟨counted, only⟩ := s.hw.badDoorbell_spec
    exact ⟨_, next_onLive_of power (if_neg other), counted, .of_hw only⟩
  case enable =>
    intro v power off
    obtain ⟨state, enabled, cleared, ring, started, only⟩ := Hw.ringEnable_spec v off
    exact ⟨_, next_onLive_of power rfl, state, enabled, cleared _ (by decide), cleared _ (by decide), cleared _ (by decide), ring, started,
      .of_hw only⟩
  case disable =>
    intro on
    obtain ⟨state, enabled, stage, only⟩ := Hw.ringDisable_spec on
    exact ⟨_, rfl, state, enabled, stage, .of_hw only⟩
  case stopped =>
    intro stopping may buffers
    obtain ⟨state, gone, only⟩ := Hw.ringStopComplete_spec stopping may buffers
    exact ⟨_, rfl, state, gone, .of_hw only⟩
  case fetch =>
    intro l d running may work room begun
    have fetch : s.hw.MayFetch r := ⟨running, may, work, room, begun⟩
    constructor
    · intro whole fetched order assigned kind
      obtain ⟨started, head, only⟩ := Hw.descriptorFetch_spec fetch whole fetched order assigned kind
      exact ⟨_, rfl, started, head, .of_hw only⟩
    · obtain ⟨state, cause, -, started, only⟩ := s.hw.ringError_spec r (e := 3) (by decide)
      exact ⟨_, next_onHw (Hw.descriptorFetch_of_failed fetch), state, cause, started, .of_hw only⟩
  case coalesce =>
    intro t0 first due armed on waits
    obtain ⟨disarmed, signaled, told, only⟩ := Hw.coalExpire_spec first due armed on waits
    exact ⟨_, rfl, disarmed, signaled, told, .of_hw only⟩
  case unmask =>
    intro v power
    obtain ⟨open_, sent, only⟩ := s.hw.msixUnmask_spec v
    exact ⟨_, next_onLive_of power rfl, open_, sent, .of_hw only⟩
  case buffer =>
    intro d next opcode turn alive aligned least most units
    have taken : ¬(getLE d.bytes 8 8 % 64 ≠ 0 ∨ getLE d.bytes 16 4 < 256 ∨ 1048576 < getLE d.bytes 16 4 ∨ getLE d.bytes 16 4 % 64 ≠ 0) := by
      omega
    refine ⟨_, next_onHw ((Hw.command_of_early next opcode turn alive _).trans (congrArg (Hw.tookTurn · r) (if_neg taken))),
      Hw.begin_started (Hw.started_of_unbegun next).1, .of_hw ?_⟩
    exact (Hw.begin_only s.hw d (by simp)).trans (Hw.tookTurn_only _ r (by simp))
  case flush =>
    intro d rest t0 buffers first may due
    obtain ⟨run, ring⟩ := Hw.recordFlush_of_due buffers first may due
    obtain ⟨completed, written⟩ := s.hw.finishBuf_spec d
    have here : Reg.ringStatus d.ring = .ringStatus r := congrArg Reg.ringStatus ring
    exact ⟨_, next_onHw run, completed, ring ▸ written, .of_hw (HostTold.finishBuf (P := fun x => x = .ringStatus r) here s.hw 0).only⟩

end Sys2Proof.Machine
end

section
/-! PROOFS. The events of the PCI Express side (R252, R273 to R275), the I3C port (R389) and test access (R350, R390): O57. -/

namespace Sys2Proof.Machine

/-! ### Fields with a Cleared-by code (R10) -/

/-- A word after a clearing of the bits of a code. -/
def Reg.cleared (r : Reg) (c : ResetCode) (v : W64) : W64 := (v &&& ~~~r.clr c) ||| (r.reset &&& r.clr c)

theorem Reg.cleared_cleared (r : Reg) (c : ResetCode) (v : W64) : r.cleared c (r.cleared c v) = r.cleared c v := by
  unfold Reg.cleared
  ext i
  simp only [BitVec.getElem_or, BitVec.getElem_and, BitVec.getElem_not]
  cases v[i] <;> cases r.reset[i] <;> cases (r.clr c)[i] <;> rfl

/-- An unlisted register is at its Reset value. -/
theorem RegMap.get_of_unlisted {m : RegMap} {r : Reg} (unlisted : r ∉ m.map (·.1)) : m.get r = r.reset := by
  have absent : m.find r = none := by
    induction m with
    | nil => rfl
    | cons p m ih =>
      obtain ⟨first, rest⟩ := not_or.1 (List.mem_cons.not.1 unlisted)
      rw [RegMap.find, if_neg (Ne.symm first), ih rest]
  rw [RegMap.get, absent]
  rfl

theorem Hw.reg_foldl_cleared (c : ResetCode) (l : List Reg) (h : Hw) (r : Reg) :
    (l.foldl (fun h r => h.setReg r (r.cleared c (h.reg r))) h).reg r = if r ∈ l then r.cleared c (h.reg r) else h.reg r := by
  induction l generalizing h with
  | nil => rfl
  | cons k l ih =>
    have one : (h.setReg k (k.cleared c (h.reg k))).reg r = if r = k then k.cleared c (h.reg k) else h.reg r := Hw.reg_setReg h k r _
    rw [List.foldl_cons, ih, one]
    by_cases same : r = k
    · subst same
      simp [Reg.cleared_cleared]
    · simp [same]

/-- Every register has its fields of the code at their Reset values. -/
theorem Hw.clearCode_reg (h : Hw) (c : ResetCode) (r : Reg) : (h.clearCode c fun _ => true).reg r = r.cleared c (h.reg r) := by
  refine (Hw.reg_foldl_cleared c _ h r).trans ?_
  split
  · rfl
  · next unlisted =>
    have reset : h.reg r = r.reset := RegMap.get_of_unlisted unlisted
    rw [reset, Reg.cleared, W64.clear_reset]

theorem Reg.cleared_of_uncoded {r : Reg} {c : ResetCode} (uncoded : r.clr c = 0) (v : W64) : r.cleared c v = v := by
  have zero : r.reset &&& 0 = v &&& (0 : W64) := by simp
  rw [Reg.cleared, uncoded, zero, W64.clear_reset]

theorem Hw.clearCode_only (h : Hw) (c : ResetCode) : Only [] (fun r => r.clr c ≠ 0) h (h.clearCode c fun _ => true) where
  regs r other := by rw [Hw.clearCode_reg, Reg.cleared_of_uncoded (not_not.1 other)]
  parts := (Only.foldl (P := fun _ => True) (h.regs.map (·.1)) _ (fun g _ => Only.setReg g _ _ trivial) h).parts

/-! ### What an FLR clears (R273) -/

theorem aget_eq_none {κ α : Type} [DecidableEq κ] {k : κ} {l : List (κ × α)} (absent : ∀ p ∈ l, p.1 ≠ k) : aget k l = none := by
  induction l with
  | nil => rfl
  | cons p l ih => rw [aget, if_neg (absent p (List.mem_cons_self ..)), ih fun q there => absent q (List.mem_cons_of_mem _ there)]

/-- Descriptors, pairs, stage set, staging area, MSI-X, Bus Master Enable and D3hot are gone, and configuration space but for the status of
AER. -/
structure Hst.Cleared (t : Hst) : Prop where
  started : t.started = []
  rings : t.rings = []
  stage : t.stage = []
  fwStage : t.fwStage = []
  msixOpen : t.msixOpen = []
  busMaster : t.busMaster = false
  d3hot : t.d3hot = false
  cfg : ∀ i, i ≠ 65 → aget i t.cfg = none

theorem Hw.flr_spec (h : Hw) :
    (∀ r, h.flr.reg r = r.cleared .flr (h.reg r)) ∧ h.flr.hst.Cleared ∧
      Only [.gon, .hst] (fun r => r.clr .flr ≠ 0) h h.flr := by
  have codes := h.clearCode_only .flr
  refine ⟨fun r => h.clearCode_reg .flr r, ⟨rfl, rfl, rfl, rfl, rfl, rfl, rfl, fun i other => aget_eq_none fun p there => ?_⟩,
    ?_⟩
  · have kept : p.1 = 65 := by simpa using (List.mem_filter.1 there).2
    exact fun same => other (same.symm.trans kept)
  · refine ((codes.mono (by simp) fun _ => id).trans (Hw.stageDrop_only _ (by simp))).trans ?_
    exact (Hw.askStop_only _ (fun _ _ => true) (by simp) (by simp)).trans (.hst _ _ (by simp))

/-! ### The link (R274) -/

theorem Hw.pcieLink_hst (h : Hw) (up perst : Bool) : (h.pcieLink up perst).hst = { h.hst with pcieUp := up, perst := perst } := by
  unfold Hw.pcieLink
  dsimp only
  split
  · exact (Hw.icEvent_only _ _).parts .hst (by simp)
  · rfl

theorem Hw.pcieLink_only (h : Hw) (up perst : Bool) : Only [.hst, .mgt] Reg.isNote h (h.pcieLink up perst) := by
  unfold Hw.pcieLink
  dsimp only
  split
  · exact (Only.hst h _ (by simp)).trans ((Hw.icEvent_only _ 77).mono (by simp) fun _ => .inr)
  · exact .hst h _ (by simp)

theorem Hw.rrsFrom_only {P : Reg → Prop} {ps : List Part} (h : Hw) (part : Part.hst ∈ ps) : Only ps P h h.rrsFrom := .hst h _ part

/-- The link returns, with Request Retry Status from now on. -/
theorem Hw.rrsFrom_pcieLink_hst (h : Hw) (up perst : Bool) :
    (h.pcieLink up perst).rrsFrom.hst = { h.hst with pcieUp := up, perst := perst, rrs := true, rrsAt := h.tim.local_ } := by
  have host := h.pcieLink_hst up perst
  have time : (h.pcieLink up perst).tim = h.tim := (h.pcieLink_only up perst).parts .tim (by simp)
  rw [Hw.rrsFrom, host, time]

/-- While the hub's queue has room, a record of a hub event stands in it (R326). -/
theorem Hw.record_tells_hub {h : Hw} {a : RecArgs} (hub : dieQuad a.die = none) (room : h.err.hubQ.length < 1024) :
    ∃ x ∈ (h.record a).err.hubQ, x.Tells a.code a.die a.unit a.d0 := by
  obtain ⟨l, new, queued, x, inL, tells⟩ := queueRec_tells (recInfo a.code).2.2 (h.mkRec a).1 (l := (h.mkRec a).2.err.hubQ) room
  refine ⟨x, ?_, tells⟩
  simp only [Hw.record, hub, queued]
  exact inL

/-- The host side after an event of R273: what an FLR clears is cleared, and events may be noted beside. -/
theorem Hw.flr_then {h g : Hw} (after : Only [.hst, .free, .err, .mgt] Reg.isNote h.flr g) :
    (∀ r, r.isNote ∨ g.reg r = r.cleared .flr (h.reg r)) ∧
      Only [.gon, .hst, .free, .err, .mgt] (fun r => r.clr .flr ≠ 0 ∨ r.isNote) h g := by
  obtain ⟨fields, -, only⟩ := h.flr_spec
  refine ⟨fun r => ?_, (only.mono (by simp) fun _ => .inl).trans (after.mono (by simp) fun _ => .inr)⟩
  by_cases note : r.isNote
  · exact .inl note
  · exact .inr ((after.regs r note).trans (fields r))

/-! ### D3hot and D0 (R252, R275) -/

/-- A pair in state `a` goes to state `b`. -/
def Hw.moveState (a b : Nat) (h : Hw) (r : Nat) : Hw := if h.ringState r = a then h.setRingState r b else h

theorem Hw.moveState_only (a b : Nat) (h : Hw) (r : Nat) : Only [] (fun x => x.isRing = true) h (h.moveState a b r) := by
  unfold Hw.moveState
  split
  · exact Only.setFld (P := fun x => x.isRing = true) h _ _ _ rfl
  · exact .refl _ _ _

theorem Hw.ringState_moveState {a b : Nat} (small : b < 8) (h : Hw) (r x : Nat) :
    (h.moveState a b r).ringState x = if x = r ∧ h.ringState x = a then b else h.ringState x := by
  unfold Hw.moveState
  by_cases here : x = r
  · subst here
    by_cases hit : h.ringState x = a
    · rw [if_pos hit, if_pos ⟨rfl, hit⟩]
      exact (Hw.fld_setFld_self h _ b).trans (Nat.mod_eq_of_lt small)
    · rw [if_neg hit, if_neg fun both => hit both.2]
  · rw [if_neg fun both : x = r ∧ h.ringState x = a => here both.1]
    split
    · exact Hw.fld_setFld_ne h (fun same => here (Reg.ringStatus.inj same)) _ _ b
    · rfl

/-- Of the pairs of a list, those in state `a` go to state `b`. -/
theorem Hw.ringState_foldl_moveState {a b : Nat} (small : b < 8) (moves : b ≠ a) (l : List Nat) (h : Hw) (x : Nat) :
    (l.foldl (Hw.moveState a b) h).ringState x = if x ∈ l ∧ h.ringState x = a then b else h.ringState x := by
  induction l generalizing h with
  | nil => simp
  | cons r l ih =>
    rw [List.foldl_cons, ih, Hw.ringState_moveState small]
    by_cases here : x = r
    · subst here
      by_cases state : h.ringState x = a <;> simp [state, moves]
    · simp [here]

theorem Hw.foldl_moveState_only (a b : Nat) (l : List Nat) (h : Hw) :
    Only [] (fun x => x.isRing = true) h (l.foldl (Hw.moveState a b) h) := .foldl _ _ (Hw.moveState_only a b) h

/-- In D3hot RUNNING pairs read PAUSED. -/
theorem Hw.d3hot_spec {h : Hw} (r : Ring) (awake : h.hst.d3hot = false) (up : h.hst.pcieUp = true) :
    h.d3hot.hst.d3hot = true ∧ h.d3hot.ringState r = (if h.ringState r = 1 then 4 else h.ringState r) ∧
      h.d3hot.hst.started = h.hst.started ∧ Only [.hst] (fun x => x.isRing = true) h h.d3hot := by
  obtain ⟨g, hg⟩ : ∃ g, g = (List.range 256).foldl (Hw.moveState 1 4) h := ⟨_, rfl⟩
  have run : h.d3hot = { g with hst := { g.hst with d3hot := true } } := by
    rw [Hw.d3hot, if_neg (by simp [awake, up]), hg]
    rfl
  have moved : Only [] (fun x => x.isRing = true) h g := hg ▸ h.foldl_moveState_only 1 4 _
  have state : g.ringState r = if h.ringState r = 1 then 4 else h.ringState r := by
    rw [hg, Hw.ringState_foldl_moveState (by decide) (by decide)]
    simp
  rw [run]
  have host : g.hst = h.hst := moved.parts .hst (by simp)
  exact ⟨rfl, state, (congrArg Hst.started host :), (moved.mono (by simp) fun _ => id).trans (.hst _ _ (by simp))⟩

theorem Hw.writeHeld_told (h : Hw) (r : Nat) : HostTold (fun x => x.isRing = true) h (h.writeHeld r) := by
  unfold Hw.writeHeld
  dsimp only
  split
  · exact .refl h
  · exact (HostTold.setRing h r _).trans (.foldl _ _ (fun g _ _ => HostTold.cqWrite (P := fun x => x.isRing = true) rfl g _ _ _) _)

theorem Hw.writeHeld_started (h : Hw) (r : Nat) : (h.writeHeld r).hst.started = h.hst.started := by
  unfold Hw.writeHeld
  dsimp only
  split
  · rfl
  · exact List.foldlRecOn (motive := fun g : Hw => g.hst.started = h.hst.started) _ _ rfl
      fun g kept _ _ => (Hw.cqSignal_started _ _ _).trans kept

theorem Hw.sendPending_started (h : Hw) : h.sendPending.hst.started = h.hst.started := by
  unfold Hw.sendPending
  split
  · rfl
  · dsimp only
    rw [(Hw.foldl_emit_out Out.msix _ _).2]

/-- When requests resume, held completions are written and pending messages sent, and no descriptor starts or ends. -/
theorem Hw.requestsResume_spec (h : Hw) :
    HostTold (fun x => x.isRing = true) h h.requestsResume ∧ h.requestsResume.hst.started = h.hst.started := by
  unfold Hw.requestsResume
  split
  · exact ⟨.refl h, rfl⟩
  · refine ⟨(HostTold.foldl _ _ (fun g r _ => g.writeHeld_told r) h).trans (Hw.sendPending_told _), (Hw.sendPending_started _).trans ?_⟩
    exact List.foldlRecOn (motive := fun g : Hw => g.hst.started = h.hst.started) _ _ rfl
      fun g kept r _ => (g.writeHeld_started r).trans kept

/-- Back in D0 PAUSED pairs run on. -/
theorem Hw.d0_spec {h : Hw} (r : Ring) (asleep : h.hst.d3hot = true) :
    h.d0.hst.d3hot = false ∧ h.d0.ringState r = (if h.ringState r = 4 then 1 else h.ringState r) ∧
      h.d0.hst.started = h.hst.started ∧ Only [.hst, .out] (fun x => x.isRing = true) h h.d0 := by
  obtain ⟨k, hk⟩ : ∃ k : Hw, k = { h with hst := { h.hst with d3hot := false } } := ⟨_, rfl⟩
  obtain ⟨g, hg⟩ : ∃ g, g = (List.range 256).foldl (Hw.moveState 4 1) k := ⟨_, rfl⟩
  have run : h.d0 = g.requestsResume := by
    rw [Hw.d0, if_neg (by simp [asleep]), hg, hk]
    rfl
  have moved : Only [] (fun x => x.isRing = true) k g := hg ▸ k.foldl_moveState_only 4 1 _
  have host : g.hst = k.hst := moved.parts .hst (by simp)
  have state : g.ringState r = if h.ringState r = 4 then 1 else h.ringState r := by
    have same : k.ringState r = h.ringState r := hk ▸ rfl
    rw [hg, Hw.ringState_foldl_moveState (by decide) (by decide), same]
    simp
  obtain ⟨told, started⟩ := g.requestsResume_spec
  rw [run]
  refine ⟨?_, (told.state r).trans state, ?_, Only.trans (b := k) ?_ ((moved.mono (by simp) fun _ => id).trans told.only)⟩
  · rw [told.host, host, hk]
  · rw [started, host, hk]
  · exact hk ▸ .hst h _ (by simp)

/-! ### The status window (R389) -/

/-- A refresh of readings of every die and stack puts them and the power where the window has them. -/
theorem Hw.window_windowRefresh {h : Hw} (power : h.pwr.porHeld = false) (v : Nv) {tj ts : List Byte} (dies : tj.length = 9)
    (perStack : ts.length = 12) (p : BitVec 16) :
    (h.windowRefresh v tj ts p).window.take 9 = tj ∧ ((h.windowRefresh v tj ts p).window.drop 16).take 12 = ts ∧
      ((h.windowRefresh v tj ts p).window.drop 32).take 2 = bytesLE 2 p.toNat := by
  rw [Hw.windowRefresh, if_neg (by simp [power])]
  simp [Hw.window, padTo, dies, perStack, bytesLE, List.drop_append, List.take_of_length_le, List.drop_of_length_le]

theorem Hw.windowRefresh_only (h : Hw) (v : Nv) (tj ts : List Byte) (p : BitVec 16) : Only [.pwr] noRegs h (h.windowRefresh v tj ts p) := by
  unfold Hw.windowRefresh
  split
  · exact .refl _ _ _
  · exact ⟨fun _ _ => rfl, fun part kept => by cases part <;> first | rfl | simp at kept⟩

/-! ### The statement -/

/-- Settles O57: PERST# and a lost link do what an FLR does and then move the link; the lemmas above say what the other events do. -/
theorem boardPortsAnswer : Obligations.BoardPortsAnswer := by
  unfold Obligations.BoardPortsAnswer
  refine ⟨fun c s event => ?cleared, fun s => ⟨fun held => ?deassert, fun free down power => ?return_⟩,
    fun r s => ⟨fun awake up => ?asleep, fun asleep => ?awake⟩, fun off tj ts p s power => ⟨?read, fun dies perStack => ?refresh⟩,
    fun op s => ⟨?idcode, ?bypass, ?closed⟩⟩
  case cleared =>
    obtain ⟨fields, cleared, flr⟩ := s.hw.flr_spec
    obtain ⟨started, rings, stage, fwStage, msixOpen, busMaster, d3hot, cfg⟩ := cleared
    rcases event with rfl | rfl | ⟨rfl, up⟩
    · exact ⟨_, rfl, fun r other => absurd rfl other, fun r _ => fields r, started, rings, stage, fwStage, msixOpen, busMaster, d3hot, cfg,
        nofun, nofun, .of_hw (flr.mono (by simp) fun _ => .inl)⟩
    · obtain ⟨noted, only⟩ := Hw.flr_then ((s.hw.flr.pcieLink_only false true).mono (by simp) fun _ => id)
      refine ⟨s.onHw fun h => h.flr.pcieLink false true, rfl, fun r _ => noted r, nofun, ?_⟩
      rw [State.onHw_hw, s.hw.flr.pcieLink_hst]
      exact ⟨started, rings, stage, fwStage, msixOpen, busMaster, d3hot, cfg, fun _ => ⟨rfl, rfl⟩, nofun, .of_onHw only⟩
    · obtain ⟨g, hg⟩ : ∃ g, g = s.hw.flr.pcieLink false s.hw.hst.perst := ⟨_, rfl⟩
      have link : Only [.hst, .mgt] Reg.isNote s.hw.flr g := hg ▸ s.hw.flr.pcieLink_only false s.hw.hst.perst
      have recorded := g.record_only { code := 0x0703, die := 8, unit := 0 }
      obtain ⟨noted, only⟩ := Hw.flr_then ((link.mono (by simp) fun _ => id).trans (recorded.mono (by simp) fun _ => id))
      refine ⟨{ s with hw := g.record { code := 0x0703, die := 8, unit := 0 } }, next_onHw ?_, fun r _ => noted r, nofun, ?_⟩
      · rw [if_neg (by simp [up]), hg]
      dsimp only
      rw [(recorded.parts .hst (by simp)).trans (hg ▸ s.hw.flr.pcieLink_hst false s.hw.hst.perst)]
      refine ⟨started, rings, stage, fwStage, msixOpen, busMaster, d3hot, cfg, nofun, fun _ => ⟨rfl, fun room => ?_⟩, .of_hw only⟩
      have queue : g.err = s.hw.err := (link.parts .err (by simp)).trans (flr.parts .err (by simp))
      obtain ⟨x, there, tells⟩ := g.record_tells_hub (a := { code := 0x0703, die := 8, unit := 0 }) rfl (by rwa [queue])
      exact ⟨x, there, tells.code, tells.die⟩
  case deassert =>
    refine ⟨_, next_onHw (if_pos held), ?_, .of_hw (((Hw.pcieLink_only _ _ _).mono (by simp) fun _ => id).trans (Hw.rrsFrom_only _ (by simp)))⟩
    exact s.hw.rrsFrom_pcieLink_hst _ false
  case return_ =>
    refine ⟨_, next_onHw (if_neg (by simp [free, down, power])), ?_,
      .of_hw (((Hw.pcieLink_only _ _ _).mono (by simp) fun _ => id).trans (Hw.rrsFrom_only _ (by simp)))⟩
    rw [s.hw.rrsFrom_pcieLink_hst, ← free]
  case asleep =>
    obtain ⟨down, state, started, only⟩ := Hw.d3hot_spec r awake up
    exact ⟨_, rfl, down, state, started, .of_hw only⟩
  case awake =>
    obtain ⟨up, state, started, only⟩ := Hw.d0_spec r asleep
    exact ⟨_, rfl, up, state, started, .of_hw only⟩
  case read => exact ⟨_, next_onHw (if_neg (by simp [power])), rfl, .of_hw (.emit _ _ (by simp))⟩
  case refresh =>
    obtain ⟨tj9, ts12, p2⟩ := Hw.window_windowRefresh power s.nv dies perStack p
    exact ⟨_, rfl, tj9, ts12, p2, .of_hw (Hw.windowRefresh_only _ _ _ _ _)⟩
  case idcode =>
    rintro rfl
    exact ⟨_, _, rfl, rfl, rfl, .of_hw (.emit _ _ (by simp))⟩
  case bypass => rintro (rfl | rfl | rfl) <;> rfl
  case closed => rintro (rfl | rfl | rfl | rfl) <;> rfl

end Sys2Proof.Machine
end

section
/-! PROOFS. The short commands of the rings (R264, R265), the exception and multicast tables (R68, R69, R85), the stage set (R268, R269) and
the directory's lookup (R208): O55. -/

namespace Sys2Proof.Machine

/-! ### The end of a command in its turn (R262, R268) -/

/-- `t` is the chip after a command whose acts left it as `g`, `h` before them: descriptor `d` has completed, and nothing else followed. -/
structure CommandEnds (h g t : Hw) (d : Desc) (status result : Nat) : Prop where
  completed : Completed h t d status result
  told : HostTold (fun x => x.isRing = true) g t

/-- Whatever a command does but to the status of its pair and the right to start requests, it completes as it is told. -/
theorem Hw.finish_ends {h g : Hw} {d : Desc} (state : g.ringState d.ring = h.ringState d.ring)
    (may : g.hst.mayRequest = h.hst.mayRequest) (status result i : Nat) :
    CommandEnds h g ((g.finish d status result).tookTurn i) d status result :=
  ⟨(Hw.finish_completed_of state may status result).tookTurn i, (HostTold.finish (P := fun x => x.isRing = true) rfl g status result).trans (.tookTurn _ i)⟩

namespace CommandEnds

variable {h g t : Hw} {d : Desc} {status result : Nat}

/-- What the command leaves beside its completion. -/
theorem only {ps qs : List Part} {P Q : Reg → Prop} (ends : CommandEnds h g t d status result) (acts : Only ps P h g)
    (parts : ∀ p, p ∈ .hst :: .out :: ps → p ∈ qs := by simp [pathParts, sendParts]) (regs : ∀ r, P r ∨ r.isRing = true → Q r) :
    Only qs Q h t :=
  (acts.mono (fun _ there => parts _ (List.mem_cons_of_mem _ (List.mem_cons_of_mem _ there))) fun r here => regs r (.inl here)).trans
    (ends.told.only.mono (fun p there => parts p (List.mem_cons.2 ((List.mem_cons.1 there).imp_right fun q =>
      List.mem_cons.2 (.inl (List.mem_singleton.1 q))))) fun r here => regs r (.inr here))

/-- What a command leaves that acts in the host interface alone. -/
theorem only_host (ends : CommandEnds h g t d status result) (acts : Only [.hst] noRegs h g) :
    Only [.hst, .out] (fun x => x.isRing = true) h t :=
  (acts.mono (by simp) fun _ none => none.elim).trans ends.told.only

/-- A part of the host interface that completions leave. -/
theorem host {α : Type} (ends : CommandEnds h g t d status result) (f : Hst → α)
    (apart : ∀ x rings pending started round,
      f { x with rings := rings, msixPending := pending, started := started, round := round } = f x := by intros; rfl) :
    f t.hst = f g.hst := by rw [ends.told.host, apart]

theorem fwd (ends : CommandEnds h g t d status result) : t.fwd = g.fwd := ends.told.only.parts .fwd (by simp)

end CommandEnds

theorem Completed.of_result {h t : Hw} {d : Desc} {status n m : Nat} (completed : Completed h t d status n) (same : n = m) :
    Completed h t d status m := same ▸ completed

/-- A command of the engine answers what its acts and its completion leave. -/
theorem next_command {s : State} {r : Ring} {op : Nat} {d : Desc} (runs : Runs s r op d) (early : Bool) {f : Hw → Desc → Hw} {g : Hw}
    (run : f s.hw d = g) : (.next (s.onHw fun h => h.command r op early (f h)) : Host.Outcome State Fault Refusal) =
      .next { s with hw := g.tookTurn r } := next_onHw ((Hw.command_of_runs runs early _).trans (congrArg (Hw.tookTurn · r) run))

theorem Runs.ring {s : State} {r : Ring} {op : Nat} {d : Desc} (runs : Runs s r op d) : d.ring = r := (Hw.started_of_unbegun runs.next).2

/-! ### CANCEL (R265, item 11) -/

theorem Hw.askStop_stops {h : Hw} {p : Nat → Nat → Bool} :
    (∀ l ∈ (h.askStop p).hst.long, longStops l.op = true → p l.ring l.ix = true → l.stop = true) ∧
      ∀ c, ∀ k ∈ (h.askStop p).gon.copies.get c, ∀ n ix, k.from_ = .host n ix → p n ix = true → k.cancelled = true := by
  constructor
  · intro l there stops named
    obtain ⟨x, -, rfl⟩ := List.mem_map.1 there
    by_cases asked : (longStops x.op && p x.ring x.ix) = true
    · simp [asked]
    · rw [if_neg asked] at stops named
      exact absurd (by simp [stops, named]) asked
  · intro c k there n ix source named
    have there' : k ∈ (h.gon.copies.get c).map _ := Four.get_map h.gon.copies _ c ▸ there
    obtain ⟨x, -, rfl⟩ := List.mem_map.1 there'
    cases from_ : x.from_ with
    | host n' ix' =>
      by_cases asked : p n' ix' = true
      · simp [asked]
      · simp_all
    | fabric hdr notify => simp_all

theorem Hw.cmdCancel_of_some {h : Hw} {d x : Desc} (found : (h.hst.started.find? fun x => x.ring == d.ring && x.begun &&
    x.tag == getLE d.bytes 8 4 && (opStops x.opcode || opCopies x.opcode) && x.opcode != 0x061) = some x) :
    h.cmdCancel d = (h.askStop fun _ ix => ix == x.ix).finish d 0 0 := by
  unfold Hw.cmdCancel
  dsimp only
  rw [found]

theorem Hw.cmdCancel_of_unknown {h : Hw} {d : Desc} (unknown : ∀ x ∈ h.hst.started, x.tag ≠ getLE d.bytes 8 4) :
    h.cmdCancel d = h.finish d 0x11 0 := by
  have absent : (h.hst.started.find? fun x => x.ring == d.ring && x.begun && x.tag == getLE d.bytes 8 4 &&
      (opStops x.opcode || opCopies x.opcode) && x.opcode != 0x061) = none :=
    List.find?_eq_none.2 fun x there => by simp [unknown x there]
  unfold Hw.cmdCancel
  dsimp only
  rw [absent]

/-! ### Replicas that the hub reaches (R256) -/

/-- The replica of quadrant `q` is changed, if the hub reaches it. -/
def Hw.reachSet {α : Type} (h : Hw) (f : α → α) (y : Four α) (q : Nat) : Four α := if h.err.hubLost.get q then y else y.set q (f (y.get q))

theorem Hw.get_reachSet {α : Type} {h : Hw} {k : Nat} (reach : h.err.hubLost.get k = false) (f : α → α) (y : Four α) (q : Nat) :
    (h.reachSet f y q).get k = if k % 4 = q % 4 then f (y.get k) else y.get k := by
  unfold Hw.reachSet
  by_cases here : k % 4 = q % 4
  · have same {β : Type} (z : Four β) : z.get q = z.get k := by simp only [Four.get, here]
    rw [same, reach, if_neg Bool.false_ne_true, Four.get_set, same]
  · rw [if_neg here]
    split
    · rfl
    · rw [Four.get_set, if_neg here]

/-- A change of the replicas stands in each that the hub reaches. -/
theorem Hw.mapReach_get {α : Type} {h : Hw} {k : Nat} (small : k < 4) (reach : h.err.hubLost.get k = false) (f : α → α) (x : Four α) :
    (h.mapReach f x).get k = f (x.get k) := by
  show (h.reachSet f (h.reachSet f (h.reachSet f (h.reachSet f x 0) 1) 2) 3).get k = _
  simp only [Hw.get_reachSet reach]
  interval_cases k <;> rfl

/-! ### The exception table (R68, R69) -/

/-- Every replica that the hub reaches has its entries changed, and that of `node` is good there. -/
def Hw.excMap (h : Hw) (f : List ExcEnt → List ExcEnt) (node : Node) : Hw :=
  Hw.excGoodReach { h with fwd := { h.fwd with exc := h.mapReach f h.fwd.exc } } node

theorem Hw.excMap_only {P : Reg → Prop} (h : Hw) (f : List ExcEnt → List ExcEnt) (node : Node) : Only [.fwd] P h (h.excMap f node) :=
  .fwd h _ (by simp)

section
variable {h : Hw} {e : ExcEnt} {w : W64} (word : excOfWord w = some e)
include word

theorem Hw.cmdExcWrite_of_new {o : Bool} (absent : h.excLook e.node = none) (place : h.excPlace e.node = some o) (no : Bool) :
    let g := h.excMap (fun l => (l.filter fun x => x.node != e.node) ++ [h.excNew e o]) e.node
    h.cmdExcWrite w no = (g.reached (.ok 0), g.reroute [nodeKey e.node]) := by
  simp only [Hw.cmdExcWrite, word, absent, place, Hw.excMap]

theorem Hw.cmdExcWrite_of_old {old : ExcEnt} {no : Bool} (listed : h.excLook e.node = some old) (replace : ¬(no = true ∧ old.static = true)) :
    let g := h.excMap (fun l => l.map fun x => if x.node = e.node then { e with ovf := x.ovf, moved := x.moved } else x) e.node
    h.cmdExcWrite w no = (g.reached (.ok 1), g.reroute [nodeKey e.node]) := by
  simp only [Hw.cmdExcWrite, word, listed, Hw.excMap]
  rw [if_neg replace]

end

theorem Hw.cmdExcRemove_of_listed {h : Hw} {node : Node} {e : ExcEnt} (listed : h.excLook node = some e) :
    let g := h.excMap (fun l => l.filter fun x => x.node != node) node
    h.cmdExcRemove node = (g.reached (.ok e.word.toNat), g.reroute [nodeKey node]) := by
  simp only [Hw.cmdExcRemove, listed, Hw.excMap]

/-- Outside a STAGE_COMMIT a change of the exception table is a re-route, which leaves the tables and the host interface. -/
theorem Hw.reroute_excMap {h : Hw} (reach : ∀ q, q < 4 → h.err.hubLost.get q = false) (outside : h.fwd.gathered = none)
    (f : List ExcEnt → List ExcEnt) (node : Node) (ks : List RouteKey) :
    (∀ k, k < 4 → ((h.excMap f node).reroute ks).fwd.exc.get k = f (h.fwd.exc.get k)) ∧
      Only pathParts Reg.isEpoch h ((h.excMap f node).reroute ks) := by
  refine ⟨fun k small => ?_, ?_⟩
  · rw [Hw.reroute_fwd (h := h.excMap f node) outside]
    exact Hw.mapReach_get small (reach k small) f _
  · exact ((h.excMap_only f node).mono (by simp [pathParts]) fun _ => id).trans
      ((Hw.reroute_only _ ks).mono (by simp [pathParts, sendParts]) fun _ => id)

theorem isEpoch_not_isRing {r : Reg} (epoch : r.isEpoch) : ¬r.isRing = true := by
  rcases epoch with rfl | note
  · exact Bool.false_ne_true
  · cases r <;> simp_all [Reg.isNote, Reg.isCnt, Reg.isIcSrc, Reg.isRing]

/-- A command that changes the exception table in every replica, is a re-route, and completes with `n`. -/
theorem Hw.excMap_ends {h : Hw} (reach : ∀ q, q < 4 → h.err.hubLost.get q = false) (outside : h.fwd.gathered = none)
    (f : List ExcEnt → List ExcEnt) (node : Node) (ks : List RouteKey) (d : Desc) (n i : Nat) :
    let g := h.excMap f node
    let t := (Hw.endCmd d (g.reached (.ok n), g.reroute ks)).tookTurn i
    (∀ k, k < 4 → t.fwd.exc.get k = f (h.fwd.exc.get k)) ∧ Completed h t d 0 n ∧
      Only (.hst :: .out :: pathParts) (fun x => x.isEpoch ∨ x.isRing = true) h t := by
  obtain ⟨tables, acts⟩ := Hw.reroute_excMap reach outside f node ks
  have ends := Hw.finish_ends (h := h) (d := d) (acts.fld (fun epoch => isEpoch_not_isRing epoch rfl) _)
    (congrArg Hst.mayRequest (acts.parts .hst (by simp [pathParts, sendParts]))) 0 n i
  have lost : (h.excMap f node).someLost = false := Hw.someLost_of_reach reach
  dsimp only
  rw [Hw.reached_of_all lost]
  refine ⟨fun k small => ?_, ends.completed, ends.only acts (regs := fun _ => id)⟩
  show (((h.excMap f node).reroute ks).finish d 0 n).fwd.exc.get k = _
  rw [← tables k small]
  exact congrArg (fun x : Fwd => x.exc.get k) ends.fwd

/-! ### Multicast groups (R85) -/

/-- The ports of a group after it was written: none where the list is empty. -/
theorem aget_mcastPut (g : Nat) (l : List Nat) (t : List (Nat × List Nat)) :
    (aget g (if l.isEmpty then adel g t else aput g l t)).getD [] = l := by
  cases l with
  | nil => simp [aget_adel_self]
  | cons n l => simp [aget_aput]

theorem Hw.cmdMcastWrite_spec {h : Hw} (reach : ∀ q, q < 4 → h.err.hubLost.get q = false) (g : Nat) (mask : List Byte) :
    ∃ k, h.cmdMcastWrite g mask = (.ok 0, k) ∧ (∀ q, q < 4 → (aget g (k.fwd.mcast.get q)).getD [] = maskPorts mask) ∧
      Only [.fwd] noRegs h k := by
  unfold Hw.cmdMcastWrite
  generalize maskPorts mask = l
  extract_lets ports put was k
  have lost : k.someLost = false := Hw.someLost_of_reach (h := k) reach
  refine ⟨k, by rw [Hw.reached_of_all lost], fun q small => ?_, .fwd h _ (by simp)⟩
  have stands : k.fwd.mcast.get q = put (h.fwd.mcast.get q) := Hw.mapReach_get small (reach q small) put _
  rw [stands]
  exact aget_mcastPut g l _

/-! ### The stage set (R268, R269) -/

theorem Hw.stageAdd_of_free {h : Hw} {r : Nat} (free : h.stageHeld r = false) {l : List StageItem}
    (room : h.hst.stage.length + l.length ≤ 1024) : h.stageAdd r l =
      (.ok (h.hst.stage.length + l.length), { h with hst := { h.hst with stage := h.hst.stage ++ l, stageOwner := r } }) := by
  rw [Hw.stageAdd, if_neg (by simp [free]), if_neg (by omega)]

/-- STAGE_WRITE of good offsets adds its register writes to the set. -/
theorem Hw.cmdStageWrite_of_free {h : Hw} {d : Desc} {r : Nat} (ring : d.ring = r) (free : h.stageHeld r = false) (some_ : d.flags % 4 ≠ 0)
    (good : ∀ i, i < d.flags % 4 → stageAddr (getLE d.bytes (16 + 16 * i) 8) = true)
    (room : h.hst.stage.length + d.flags % 4 ≤ 1024) : h.cmdStageWrite d =
      (.ok (h.hst.stage.length + d.flags % 4), { h with hst := { h.hst with
        stage := h.hst.stage ++ (List.range (d.flags % 4)).map (fun i =>
          .reg (getLE d.bytes (16 + 16 * i) 8) (BitVec.ofNat 64 (getLE d.bytes (24 + 16 * i) 8))), stageOwner := r } }) := by
  rw [Hw.cmdStageWrite, ring]
  dsimp only
  rw [if_neg (by simp [free]), if_neg (by simpa [some_] using good), Hw.stageAdd_of_free free (by simpa using room), List.map_map]
  simp only [List.length_map, List.length_range]
  rfl

/-- An item that the set refuses leaves the tables and the registers. -/
theorem Hw.cmdStageCommit_of_refused {h : Hw} {nv : Nv} {r n : Nat} (free : h.stageHeld r = false) (refused : n ≠ 0)
    (run : (Hw.stageRun nv h.hst.stage { h with fwd := { h.fwd with gathered := some [] } }).1 = n) :
    h.cmdStageCommit nv r = (.fail n, h.stageDrop) := by
  rw [Hw.cmdStageCommit, if_neg (by simp [free])]
  dsimp only
  rw [run, if_pos refused]

/-- The entry of a node in the lowest replica where its parity is good. -/
def Hw.excElsewhere (h : Hw) (node : Node) : Option ExcEnt :=
  ((List.range 4).find? fun k => !h.tblBad k ⟨.exc, node.toNat⟩).bind fun k => h.excFind k node

/-- The entry that a command finds stands in the replica it reads, or in a good one. -/
theorem Hw.excLook_eq (h : Hw) (node : Node) : h.excLook node =
    if h.tblBad h.readDie ⟨.exc, node.toNat⟩ then h.excElsewhere node else (h.excFind h.readDie node).or (h.excElsewhere node) := by
  have counted : (h.parityMiss h.readDie ⟨.exc, node.toNat⟩).fwd = h.fwd := (Hw.parityMiss_send _ _ _).parts .fwd (by simp [sendParts])
  have elsewhere : (h.parityMiss h.readDie ⟨.exc, node.toNat⟩).excElsewhere node = h.excElsewhere node := by
    simp only [Hw.excElsewhere, Hw.tblBad, Hw.excFind, counted]
  unfold Hw.excLook Hw.excForInsert Hw.excRead
  cases found : h.excFind h.readDie node with
  | none => simp [Hw.excElsewhere]
  | some e =>
    by_cases bad : h.tblBad h.readDie ⟨.exc, node.toNat⟩ = true
    · dsimp only
      rw [if_pos bad, if_pos bad]
      exact elsewhere
    · simp [bad]

/-- Whether a STAGE_COMMIT gathers keys does not matter to a lookup. -/
theorem Hw.excLook_gathering (h : Hw) (keys : Option (List (Nat × Node))) (node : Node) :
    Hw.excLook { h with fwd := { h.fwd with gathered := keys } } node = h.excLook node := by
  rw [Hw.excLook_eq, Hw.excLook_eq]
  rfl

/-- A STAGE_COMMIT of one removal takes the entry out before its re-route. -/
theorem Hw.cmdStageCommit_of_removal {h : Hw} (nv : Nv) {r : Nat} {node : Node} {e : ExcEnt}
    (reach : ∀ q, q < 4 → h.err.hubLost.get q = false) (free : h.stageHeld r = false) (stage : h.hst.stage = [.excRemove node])
    (listed : h.excLook node = some e) :
    ∃ g, h.cmdStageCommit nv r =
        (.ok ((g.reroute [nodeKey node]).fld .epochStatus Fld.epochStatus_epoch), g.reroute [nodeKey node]) ∧
      g.fwd.gathered = none ∧ g.hst = { h.hst with stage := [], stageOwner := 0 } ∧
      (∀ k, k < 4 → g.fwd.exc.get k = (h.fwd.exc.get k).filter fun x => x.node != node) ∧ Only [.fwd, .hst] noRegs h g := by
  obtain ⟨k, hk⟩ : ∃ k : Hw, k = { h with fwd := { h.fwd with gathered := some [] } } := ⟨_, rfl⟩
  obtain ⟨m, hm⟩ : ∃ m, m = k.excMap (fun l => l.filter fun x => x.node != node) node := ⟨_, rfl⟩
  have reach' : ∀ q, q < 4 → m.err.hubLost.get q = false := by
    rw [hm, hk]
    exact reach
  have listed' : k.excLook node = some e := by rw [hk, Hw.excLook_gathering, listed]
  have run : Hw.stageRun nv [.excRemove node] k = (0, m.reroute [nodeKey node]) := by
    simp only [Hw.stageRun, Hw.stageApply, Hw.cmdExcRemove_of_listed listed', ← hm, Hw.reached_of_all (Hw.someLost_of_reach reach')]
    rfl
  have gathered : m.reroute [nodeKey node] = { m with fwd := { m.fwd with gathered := some [(0, node)] } } := by
    rw [hm, hk]
    rfl
  obtain ⟨g, hg⟩ : ∃ g, g = Hw.stageDrop { m with fwd := { m.fwd with gathered := none } } := ⟨_, rfl⟩
  have moved : Only [.fwd, .hst] noRegs h g := by
    rw [hg, hm, hk]
    exact (((Only.fwd h _ (by simp)).trans ((Hw.excMap_only _ _ node).mono (by simp) fun _ => id)).trans (.fwd _ _ (by simp))).trans
      (Hw.stageDrop_only _ (by simp))
  have lost : (g.reroute [nodeKey node]).someLost = false := by
    refine Hw.someLost_of_reach fun q small => ?_
    rw [Hw.reroute_hubLost, moved.parts .err (by simp)]
    exact reach q small
  refine ⟨g, ?_, hg ▸ rfl, ?_, fun q small => ?_, moved⟩
  · rw [Hw.cmdStageCommit, if_neg (by simp [free]), stage, ← hk]
    dsimp only
    rw [run, gathered, if_neg (by simp)]
    simp only [Option.getD_some, List.map_cons, List.map_nil]
    rw [← hg]
    exact Prod.ext (Hw.reached_of_all lost _) rfl
  · rw [hg, hm, hk]
    rfl
  · rw [hg, hm]
    exact (Hw.mapReach_get small (by rw [hk]; exact reach q small) _ _).trans (by rw [hk])

/-! ### The directory (R208) -/

/-- A lookup of an entry that the directory holds returns it and changes nothing. -/
theorem Hw.cmdDir_of_lookup {h : Hw} {e y : DirEnt} (reach : ∀ q, q < 4 → h.err.hubLost.get q = false)
    (enable : h.bit .gondolaCfg Fld.gondolaCfg_enable = true) (serves : (h.dirDies e).all h.memServes = true)
    (found : h.gon.dir.find? e.same = some y) : h.cmdDir 1 e .none = (⟨0, 0, y.bytes⟩, h) := by
  have near : ¬((h.dirDies e).any fun c => h.err.hubLost.get c) = true := by
    simp only [Hw.dirDies, List.any_eq_true, List.mem_dedup, not_exists, not_and]
    intro c die
    have small : c < 4 := by
      rcases List.mem_pair.1 die with rfl | rfl <;> exact Nat.mod_lt _ (by decide)
    simp [reach c small]
  have looked : h.dirDo 1 e true .none = ((0, y.bytes), h) := by
    rw [Hw.dirDo, if_neg (by simp [enable, serves]), if_neg (by simp), if_neg (by simp)]
    simp only [Hw.dirError, Hw.dirApply, found]
  rw [Hw.cmdDir, if_neg near, looked]
  rfl

theorem DirEnt.bytes_nonempty (e : DirEnt) : e.bytes.isEmpty = false := by simp [DirEnt.bytes, bytesLE]

/-! ### The statement -/

/-- Settles O55: each command runs in its turn, and a lemma above says what it changes before it completes. -/
theorem commandsChangeTablesWholly : Obligations.CommandsChangeTablesWholly := by
  unfold Obligations.CommandsChangeTablesWholly
  intro r d s reach outside
  have lost : s.hw.someLost = false := Hw.someLost_of_reach reach
  have plain (status result : Nat) := Hw.finish_ends (h := s.hw) (g := s.hw) (d := d) rfl rfl status result r
  refine ⟨fun c op kind next opcode turn alive => ?short, fun runs => ⟨fun x found => ?cancelled, fun unknown => ?unknown⟩, ?write,
    fun e listed => ⟨fun runs now => ?remove, fun runs => ?read⟩, fun l runs may whole now => ?mcast, fun runs may => ?mcastRead,
    fun free => ⟨fun runs some_ good room => ?stageWrite, fun runs => ?discard, fun n runs refused run => ?refused,
      fun node e runs stage listed => ?commit⟩, fun e y runs ent op addr may enable serves found => ?lookup⟩
  case short =>
    rcases kind with ⟨rfl, rfl⟩ | ⟨rfl, rfl⟩
    · exact ⟨_, next_onHw (Hw.command_of_early next opcode turn alive _), (plain 0 0).completed, fun other => absurd other (by decide),
        .of_hw (plain 0 0).told.only⟩
    · have ends := Hw.finish_ends (h := s.hw) (g := { s.hw with hst := { s.hw.hst with fwStage := [] } }) (d := d) rfl rfl 0 0 r
      exact ⟨_, next_onHw (Hw.command_of_early next opcode turn alive _), ends.completed, fun _ => ends.host Hst.fwStage,
        .of_hw (ends.only_host (.hst _ _ (by simp)))⟩
  case cancelled =>
    have ends := Hw.finish_ends (h := s.hw) (g := s.hw.askStop fun _ ix => ix == x.ix) (d := d) rfl rfl 0 0 r
    obtain ⟨longs, copies⟩ := Hw.askStop_stops (h := s.hw) (p := fun _ ix => ix == x.ix)
    refine ⟨_, next_command runs false (Hw.cmdCancel_of_some found), ends.completed, fun l there same stops => ?_, fun c _ k there n source => ?_,
      .of_hw (ends.only (Hw.askStop_only (ps := [.gon, .hst]) (P := noRegs) _ _ (by simp) (by simp)) (regs := by simp [noRegs]))⟩
    · exact longs l (ends.host Hst.long ▸ there) stops (by simp [same])
    · exact copies c k ((ends.told.only.parts .gon (by simp) : _ = _) ▸ there) n x.ix source (by simp)
  case unknown =>
    exact ⟨_, next_command runs false (Hw.cmdCancel_of_unknown unknown), (plain _ 0).completed, .of_hw (plain _ 0).told.only⟩
  case write =>
    rintro e w runs rfl
    refine ⟨fun word now => ⟨fun o absent place => ?new, fun old listed replace => ?old⟩, fun staged free room => ?staged⟩
    case new =>
      have run := Hw.cmdExcWrite_of_new word absent place (bits d.flags 1 1 == 1)
      obtain ⟨tables, completed, only⟩ := Hw.excMap_ends reach outside
        (fun l => (l.filter fun x => x.node != e.node) ++ [s.hw.excNew e o]) e.node [nodeKey e.node] d 0 r
      exact ⟨_, next_command runs false (congrArg (Hw.endCmd d) ((if_neg (by omega)).trans run)), tables, completed, .of_hw only⟩
    case old =>
      have run := Hw.cmdExcWrite_of_old word listed (no := bits d.flags 1 1 == 1) (by simpa using replace)
      obtain ⟨tables, completed, only⟩ := Hw.excMap_ends reach outside
        (fun l => l.map fun x => if x.node = e.node then { e with ovf := x.ovf, moved := x.moved } else x) e.node [nodeKey e.node] d 1 r
      exact ⟨_, next_command runs false (congrArg (Hw.endCmd d) ((if_neg (by omega)).trans run)), tables, completed, .of_hw only⟩
    case staged =>
      have run := Hw.stageAdd_of_free free (l := [.excWrite (BitVec.ofNat 64 (getLE d.bytes 8 8)) (bits d.flags 1 1 == 1)]) room
      have ends := Hw.finish_ends (h := s.hw) (g := { s.hw with hst := { s.hw.hst with
        stage := s.hw.hst.stage ++ [.excWrite (BitVec.ofNat 64 (getLE d.bytes 8 8)) (bits d.flags 1 1 == 1)], stageOwner := r } })
        (d := d) rfl rfl 0 0 r
      exact ⟨_, next_command runs false (congrArg (Hw.endCmd d) ((if_pos staged).trans (congrArg stagedEnd run))),
        ends.host Hst.stage, ends.completed, .of_hw (ends.only_host (.hst _ _ (by simp)))⟩
  case remove =>
    obtain ⟨tables, completed, only⟩ := Hw.excMap_ends reach outside
      (fun l => l.filter fun x => x.node != BitVec.ofNat 24 (getLE d.bytes 8 3)) _ [nodeKey (BitVec.ofNat 24 (getLE d.bytes 8 3))] d e.word.toNat r
    exact ⟨_, next_command runs false (congrArg (Hw.endCmd d) ((if_neg (by omega)).trans (Hw.cmdExcRemove_of_listed listed))),
      tables, completed, .of_hw only⟩
  case read =>
    have run : s.hw.cmdExcRead (BitVec.ofNat 24 (getLE d.bytes 8 3)) = .ok e.word.toNat := by
      rw [Hw.cmdExcRead, listed]
      exact Hw.reached_of_all lost _
    exact ⟨_, next_command runs false (congrArg (fun x => Hw.endCmd d (x, s.hw)) run), (plain 0 _).completed, .of_hw (plain 0 _).told.only⟩
  case mcast =>
    obtain ⟨g, run, masks, acts⟩ := Hw.cmdMcastWrite_spec reach (getLE d.bytes 8 2) (l.take 128)
    have ends := Hw.finish_ends (h := s.hw) (g := g) (d := d) (acts.fld id _) (congrArg Hst.mayRequest (acts.parts .hst (by simp))) 0 0 r
    have given : dmaOf (some l) 128 = some (l.take 128) := if_pos whole
    refine ⟨_, next_command runs false (g := g.finish d 0 0) ?_, fun k small => ?_, ends.completed,
      .of_hw (ends.only acts (regs := by simp [noRegs]))⟩
    · rw [Hw.withHost, if_pos may, given]
      dsimp only
      rw [if_neg (by omega), run]
      rfl
    · rw [← masks k small]
      exact congrArg (fun x : Fwd => (aget (getLE d.bytes 8 2) (x.mcast.get k)).getD []) ends.fwd
  case mcastRead =>
    have run : s.hw.cmdMcastRead (getLE d.bytes 8 2) =
        ⟨0, 0, portsMask ((aget (getLE d.bytes 8 2) (s.hw.fwd.mcast.get s.hw.readDie)).getD [])⟩ := Hw.reached_of_all lost _
    obtain ⟨g, hg⟩ : ∃ g, g = s.hw.emit (.hostWrite r (getLE d.bytes 16 8) (s.hw.cmdMcastRead (getLE d.bytes 8 2)).data) := ⟨_, rfl⟩
    have told : HostTold (fun x => x.isRing = true) s.hw g := hg ▸ .emit _ _
    have ends := Hw.finish_ends (h := s.hw) (g := g) (d := d) (told.state _) (congrArg Hst.mayRequest (hg ▸ rfl)) 0 0 r
    refine ⟨_, next_command runs false (g := g.finish d 0 0) ?_, ends.told.grows.subset ?_, ends.completed, .of_hw (told.trans ends.told).only⟩
    · rw [Hw.withHost, if_pos may, hg, run]
    · rw [hg, run]
      exact List.mem_cons_self ..
  case stageWrite =>
    obtain ⟨l, hl⟩ : ∃ l, l = s.hw.hst.stage ++ (List.range (d.flags % 4)).map (fun i =>
      .reg (getLE d.bytes (16 + 16 * i) 8) (BitVec.ofNat 64 (getLE d.bytes (24 + 16 * i) 8))) := ⟨_, rfl⟩
    have run := Hw.cmdStageWrite_of_free runs.ring free some_ good room
    have ends := Hw.finish_ends (h := s.hw) (g := { s.hw with hst := { s.hw.hst with stage := l, stageOwner := r } }) (d := d) rfl rfl 0
      (s.hw.hst.stage.length + d.flags % 4) r
    rw [← hl] at run ⊢
    exact ⟨_, next_command runs false (congrArg (Hw.endCmd d) run), ends.host Hst.stage, ends.host Hst.stageOwner, ends.completed,
      .of_hw (ends.only_host (.hst _ _ (by simp)))⟩
  case discard =>
    have run : s.hw.cmdStageDiscard r = (.ok s.hw.hst.stage.length, s.hw.stageDrop) := if_neg (by simp [free])
    have ends := Hw.finish_ends (h := s.hw) (g := s.hw.stageDrop) (d := d) rfl rfl 0 s.hw.hst.stage.length r
    exact ⟨_, next_command runs false (congrArg (Hw.endCmd d) run), ends.host Hst.stage, ends.completed,
      .of_hw (ends.only_host (Hw.stageDrop_only _ (by simp)))⟩
  case refused =>
    have ends := Hw.finish_ends (h := s.hw) (g := s.hw.stageDrop) (d := d) rfl rfl n 0 r
    exact ⟨_, next_command runs false (congrArg (Hw.endCmd d) (Hw.cmdStageCommit_of_refused free refused run)), ends.host Hst.stage,
      ends.completed, .of_hw (ends.only_host (Hw.stageDrop_only _ (by simp)))⟩
  case commit =>
    obtain ⟨g, run, gathered, host, tables, moved⟩ := Hw.cmdStageCommit_of_removal s.nv reach free stage listed
    have routed := Hw.reroute_only g [nodeKey node]
    have fwd := Hw.reroute_fwd gathered [nodeKey node]
    have hst : (g.reroute [nodeKey node]).hst = { s.hw.hst with stage := [], stageOwner := 0 } :=
      (routed.parts .hst (by simp [sendParts])).trans host
    have acts : Only (.hst :: pathParts) Reg.isEpoch s.hw (g.reroute [nodeKey node]) :=
      (moved.mono (by simp [pathParts]) fun _ none => none.elim).trans (routed.mono (by simp [pathParts, sendParts]) fun _ => id)
    have ends := Hw.finish_ends (h := s.hw) (d := d) (acts.fld (fun epoch => isEpoch_not_isRing epoch rfl) _)
      (congrArg Hst.mayRequest hst :) 0 ((g.reroute [nodeKey node]).fld .epochStatus Fld.epochStatus_epoch) r
    have epoch := ends.told.only.fld (r := .epochStatus) Bool.false_ne_true Fld.epochStatus_epoch
    refine ⟨_, next_command runs false (congrArg (Hw.endCmd d) run), (ends.host Hst.stage).trans (by rw [hst]),
      (congrArg Fwd.gathered (ends.fwd.trans fwd)).trans gathered, fun k small => ?_, epoch.trans ?_, ?_, .of_hw (ends.only acts (regs := fun _ => id))⟩
    · rw [← tables k small]
      exact congrArg (fun x : Fwd => x.exc.get k) (ends.fwd.trans fwd)
    · rw [Hw.reroute_epoch g gathered, moved.fld id]
    · exact ends.completed.of_result epoch.symm
  case lookup =>
    obtain ⟨g, hg⟩ : ∃ g, g = s.hw.emit (.hostWrite r (getLE d.bytes 8 8) y.bytes) := ⟨_, rfl⟩
    have told : HostTold (fun x => x.isRing = true) s.hw g := hg ▸ .emit _ _
    have ends := Hw.finish_ends (h := s.hw) (g := g) (d := d) (told.state _) told.mayRequest 0 0 r
    refine ⟨_, next_command runs false (g := g.finish d 0 0) ?_, ends.told.grows.subset ?_, ends.completed, .of_hw (told.trans ends.told).only⟩
    · rw [if_neg (by simp [may])]
      dsimp only
      rw [op, ← ent, Hw.cmdDir_of_lookup reach enable serves found]
      dsimp only
      rw [if_neg (by simp [addr, y.bytes_nonempty]), hg]
    · rw [hg]
      exact List.mem_cons_self ..

end Sys2Proof.Machine
end

section
/-! PROOFS. The long operations of the command engine (R264, R265, R267, R268) and the firmware commands (R278, R362): how one begins, ends
and waits, and what a step of each kind does; with them O56. -/

namespace Sys2Proof.Machine

/-! ### The list of running operations -/

/-- No operation of kind `k` runs any more. -/
def Hw.dropLong (h : Hw) (k : LongOp) : Hw := { h with hst := { h.hst with long := h.hst.long.filter fun x => x.op != k } }

theorem Hw.op_of_longOf {h : Hw} {k : LongOp} {l : LongRun} (running : h.longOf k = some l) : l.op = k := by
  simpa using List.find?_some running

theorem Hw.longOf_dropLong (h : Hw) (k : LongOp) : (h.dropLong k).longOf k = none :=
  List.find?_eq_none.2 fun x there => by simpa using (List.mem_filter.1 there).2

theorem Hw.longOf_setLong {h : Hw} {k : LongOp} {l m : LongRun} (running : h.longOf k = some l) (op : m.op = k) :
    (h.setLong m).longOf k = some m := by
  subst op
  show (h.hst.long.map fun x => if x.op = m.op then m else x).find? _ = _
  have found : (h.hst.long.find? fun x => x.op == m.op) = some l := running
  rw [List.find?_map]
  have same : ((fun x : LongRun => x.op == m.op) ∘ fun x => if x.op = m.op then m else x) = fun x => x.op == m.op := by
    funext x
    by_cases kind : x.op = m.op <;> simp [kind]
  rw [same, found, Option.map_some, if_pos (Hw.op_of_longOf running)]

theorem Hw.setLong_only {ps : List Part} {P : Reg → Prop} (h : Hw) (l : LongRun) (part : Part.hst ∈ ps := by simp) : Only ps P h (h.setLong l) :=
  .hst h _ part

theorem Hw.dropLong_only {ps : List Part} {P : Reg → Prop} (h : Hw) (k : LongOp) (part : Part.hst ∈ ps := by simp) :
    Only ps P h (h.dropLong k) := .hst h _ part

/-- An operation whose descriptor stands ends with a completion. -/
theorem Hw.longEnd_of_desc {h : Hw} {l : LongRun} {d : Desc} (desc : h.longDesc l = some d) (status result : Nat) :
    h.longEnd l status result = (h.dropLong l.op).finish d status result := by
  unfold Hw.longEnd
  dsimp only
  rw [desc]
  rfl

/-- One whose descriptor is gone just ends. -/
theorem Hw.longEnd_of_gone {h : Hw} {l : LongRun} (gone : h.longDesc l = none) (status result : Nat) :
    h.longEnd l status result = h.dropLong l.op := by
  unfold Hw.longEnd
  dsimp only
  rw [gone]
  rfl

/-- The end of an operation after acts that left the state of its pair and the right to start requests. -/
theorem Hw.longEnd_ends {h g : Hw} {l : LongRun} {d : Desc} {k : LongOp} (op : l.op = k) (desc : g.longDesc l = some d)
    (state : g.ringState d.ring = h.ringState d.ring) (may : g.hst.mayRequest = h.hst.mayRequest) (status result i : Nat) :
    CommandEnds h (g.dropLong k) ((g.longEnd l status result).tookTurn i) d status result ∧
      ((g.longEnd l status result).tookTurn i).longOf k = none := by
  have ends := Hw.finish_ends (h := h) (g := g.dropLong k) (d := d) state may status result i
  rw [Hw.longEnd_of_desc desc, op]
  refine ⟨ends, Eq.trans ?_ (g.longOf_dropLong k)⟩
  exact congrArg (List.find? fun x => x.op == k) (ends.host Hst.long)

/-- The same after acts outside the host interface. -/
theorem Hw.longEnd_ends_of_only {h g : Hw} {l : LongRun} {d : Desc} {k : LongOp} {ps : List Part} {P : Reg → Prop} (op : l.op = k)
    (desc : h.longDesc l = some d) (acts : Only ps P h g) (apart : Part.hst ∉ ps) (ring : ¬P (.ringStatus d.ring)) (status result i : Nat) :
    CommandEnds h (g.dropLong k) ((g.longEnd l status result).tookTurn i) d status result ∧
      ((g.longEnd l status result).tookTurn i).longOf k = none := by
  have host : g.hst = h.hst := acts.parts .hst apart
  have desc' : g.longDesc l = some d := by rw [Hw.longDesc, host, ← desc, Hw.longDesc]
  exact Hw.longEnd_ends op desc' (acts.fld ring _) (congrArg Hst.mayRequest host) status result i

/-! ### Beginnings (R264, R268) -/

/-- The operation of kind `k` that a command of ring `r` begins. -/
def LongRun.start (k : LongOp) (r : Nat) (d : Desc) : LongRun :=
  ⟨k, r, d.ix, false, 0, if k = .excRehash ∨ k = .dirRehash then [getLE d.bytes 8 4] else [], false⟩

theorem Hw.longBegin_of_good {s : State} {r : Ring} {op : Nat} {d : Desc} (runs : Runs s r op d) {k : LongOp}
    (idle : s.hw.longOf k = none) (early : Bool) {ok : Desc → Bool} (good : ok d = true) :
    s.hw.longBegin r op k early ok = Hw.tookTurn { s.hw.begin_ d with
      hst := { (s.hw.begin_ d).hst with long := s.hw.hst.long ++ [LongRun.start k r d] } } r := by
  rw [Hw.longBegin, Hw.command_of_runs runs, idle, if_neg (by simp), if_neg (by simp [good])]
  rfl

/-- A command whose effect is to begin an operation that may begin. -/
theorem longBegin_answers {s : State} {c : Instr} {r : Ring} {op : Nat} {d : Desc} {k : LongOp} {early : Bool} {ok : Desc → Bool}
    {f : Hw → Hw} (runs : Runs s r op d) (idle : s.hw.longOf k = none) (answers : exec c s = .next (s.onHw f))
    (run : f s.hw = s.hw.longBegin r op k early ok) (good : ok d = true) :
    ∃ t l, exec c s = .next t ∧ t.hw.hst.long = s.hw.hst.long ++ [l] ∧ l.op = k ∧ l.ring = r.val ∧ l.ix = d.ix ∧ l.stop = false ∧
      l.progress = 0 ∧ l.tested = false ∧ OnlyHw [.hst] noRegs s t := by
  refine ⟨_, LongRun.start k r d, answers.trans (next_onHw (run.trans (Hw.longBegin_of_good runs idle early good))), rfl, rfl, rfl, rfl, rfl, rfl,
    rfl, .of_hw ?_⟩
  exact ((Hw.begin_only s.hw d (by simp)).trans (.hst _ _ (by simp))).trans (Hw.tookTurn_only _ r (by simp))

/-- FW_COMMIT of no more than is staged, in the row of its RESTART bit. -/
theorem Hw.fwCommit_of_staged {s : State} {r : Ring} {d : Desc} (runs : Runs s r 0x061 d) {restart : Bool}
    (kind : (bits d.flags 0 1 == 1) = restart) (fits : getLE d.bytes 8 3 ≤ 4194304) (staged : getLE d.bytes 8 3 ≤ s.hw.stagedBytes) :
    s.hw.fwCommit r restart = s.hw.longBegin r 0x061 .fwCommit true fun _ => true := by
  simp only [Hw.fwCommit, runs.next]
  rw [if_neg (by simp [kind]), if_neg (by omega)]

/-! ### Turns (R268) -/

/-- An operation whose turn it is takes its step, and has had its turn. -/
theorem next_longStep {s t : State} {k : LongOp} {l : LongRun} {dma : Option (List Byte)} {ok : Bool} (running : s.hw.longOf k = some l)
    (turn : s.hw.mayTurn (longItem k) = true) (run : s.longRun l dma ok = t) :
    exec (.longOperationStep k dma ok) s = .next { t with hw := t.hw.tookTurn (longItem k) } := by
  have step : s.longStep k dma ok = t.onHw fun h => h.tookTurn (longItem k) := by
    rw [State.longStep, running]
    dsimp only
    rw [if_pos turn, run]
  exact congrArg Host.Outcome.next step

theorem exec_longOperationStep_of_wait {s : State} {k : LongOp} {l : LongRun} (running : s.hw.longOf k = some l)
    (wait : s.hw.mayTurn (longItem k) = false) (dma : Option (List Byte)) (ok : Bool) :
    exec (.longOperationStep k dma ok) s = .next s := by
  have step : s.longStep k dma ok = s := by
    rw [State.longStep, running]
    dsimp only
    rw [if_neg (by simp [wait])]
  exact congrArg Host.Outcome.next step

section
variable {s : State} {l : LongRun} (dma : Option (List Byte)) (ok : Bool)

theorem State.longRun_of_stop (stop : l.stop = true) : s.longRun l dma ok = { s with hw := s.hw.longEnd l 0x06 l.progress } := by
  rw [State.longRun, if_pos stop]
  rfl

theorem State.longRun_of_gone (gone : s.hw.longDesc l = none) (exc : l.op ≠ .excRehash) (dir : l.op ≠ .dirRehash) :
    s.longRun l dma ok = { s with hw := s.hw.dropLong l.op } := by
  have ended : s.onHw (fun h => h.longEnd l 0x06 l.progress) = { s with hw := s.hw.dropLong l.op } := by
    rw [State.onHw, Hw.longEnd_of_gone gone]
  unfold State.longRun
  dsimp only
  split
  · exact ended
  · rw [gone]
    cases op : l.op with
    | excRehash => exact absurd op exc
    | dirRehash => exact absurd op dir
    | excDump | hbmWipe | counterSnapshot | fwStage | fwCommit => rw [op] at ended; exact ended

variable (go : l.stop = false)
include go

theorem State.longRun_excRehash (op : l.op = .excRehash) :
    s.longRun l dma ok = { s with hw := s.hw.excRehash l (BitVec.ofNat 32 (l.latch.headD 0)) } := by
  simp [State.longRun, go, op, State.onHw]

theorem State.longRun_dirRehash (op : l.op = .dirRehash) :
    s.longRun l dma ok = { s with hw := s.hw.dirRehash l (BitVec.ofNat 32 (l.latch.headD 0)) } := by
  simp [State.longRun, go, op, State.onHw]

variable {d : Desc} (desc : s.hw.longDesc l = some d)
include desc

/-- One that moves host data waits while the chip may start no request (R252, R275). -/
theorem State.longRun_of_noRequest (may : s.hw.hst.mayRequest = false)
    (kind : l.op = .excDump ∨ l.op = .fwStage ∨ l.op = .counterSnapshot ∧ l.latch ≠ []) : s.longRun l dma ok = s := by
  rcases kind with op | op | ⟨op, latched⟩
  · simp [State.longRun, go, op, desc, may]
  · simp [State.longRun, go, op, desc, may]
  · simp [State.longRun, go, op, desc, may, latched]

theorem State.longRun_excDump (op : l.op = .excDump) (may : s.hw.hst.mayRequest = true) :
    s.longRun l dma ok = { s with hw := s.hw.dumpStep l d } := by
  simp [State.longRun, go, op, desc, may, State.onHw]

theorem State.longRun_hbmWipe (op : l.op = .hbmWipe) : s.longRun l dma ok = s.wipeStep l d := by
  simp [State.longRun, go, op, desc]

theorem State.longRun_counterSnapshot (op : l.op = .counterSnapshot) (may : s.hw.hst.mayRequest = true ∨ l.latch = []) :
    s.longRun l dma ok = { s with hw := s.hw.snapStep l d } := by
  rcases may with may | empty
  · simp [State.longRun, go, op, desc, may, State.onHw]
  · simp [State.longRun, go, op, desc, empty, State.onHw]

theorem State.longRun_fwStage (op : l.op = .fwStage) (may : s.hw.hst.mayRequest = true) :
    s.longRun l dma ok = { s with hw := s.hw.stageStep l d dma } := by
  simp [State.longRun, go, op, desc, may, State.onHw]

theorem State.longRun_fwCommit (op : l.op = .fwCommit) : s.longRun l dma ok = s.commitStep l d ok := by
  simp [State.longRun, go, op, desc]

end

theorem Hw.status_reached (h : Hw) (n : Nat) : (h.reached (.ok n)).status = if h.someLost then 0x0a else 0 := by
  rw [Hw.reached]
  by_cases lost : h.someLost = true <;> simp [lost, CmdEnd.ok]

/-! ### HBM_WIPE (R265, item 8) -/

/-- The byte or unit at `a` goes with the portion of 2 MiB at `off`: it lies there, in a quadrant that the hub reaches. -/
def Hw.inPortion (h : Hw) (off a : Nat) : Bool := (decide (off ≤ a) && decide (a < off + 2097152)) && !h.err.hubLost.get (offQuad a)

theorem Hw.hubLost_of_reach {h : Hw} (reach : h.someLost = false) (q : Nat) : h.err.hubLost.get q = false := by
  have all : ∀ b ∈ h.err.hubLost.toList, b = false := by simpa [Hw.someLost] using reach
  refine all _ ?_
  unfold Four.get Four.toList
  split <;> simp

/-- The exported memory keeps the bytes that do not go with the portion. -/
theorem Hw.wipe_eq_keep (h : Hw) (m : Mem) (off : Nat) :
    (if h.someLost then m.keep fun a => !((decide (off ≤ a) && decide (a < off + 2097152)) && !h.err.hubLost.get (offQuad a))
      else m.wipe off 2097152) = m.keep fun a => !h.inPortion off a := by
  split
  · rfl
  · next reach => simp [Mem.wipe, Hw.inPortion, Hw.hubLost_of_reach (Bool.not_eq_true _ ▸ reach)]

/-- What the memory reads without the portion. -/
theorem Hw.read_keep_inPortion (h : Hw) (m : Mem) (off a : Nat) : (m.keep fun a => !h.inPortion off a).read a =
    if off ≤ a ∧ a < off + 2097152 ∧ h.err.hubLost.get (offQuad a) = false then 0 else m.read a := by
  have gone : h.inPortion off a = true ↔ off ≤ a ∧ a < off + 2097152 ∧ h.err.hubLost.get (offQuad a) = false := by
    simp [Hw.inPortion, and_assoc]
  rw [Mem.read_keep]
  by_cases here : h.inPortion off a = true
  · rw [if_pos (gone.1 here), here]
    rfl
  · rw [if_neg (gone.not.1 here), if_pos (by simpa using here)]

/-- The chip after a portion: the units under test there are forgotten, and the operation has its new progress. -/
def Hw.afterWipe (h : Hw) (off : Nat) (l : LongRun) : Hw :=
  Hw.setLong { h with gon := { h.gon with planted := h.gon.planted.filter fun x => !h.inPortion off (64 * x.1) } } l

theorem Hw.afterWipe_only {P : Reg → Prop} (h : Hw) (off : Nat) (l : LongRun) : Only [.gon, .hst] P h (h.afterWipe off l) :=
  (Only.gon h { h.gon with planted := h.gon.planted.filter fun x => !h.inPortion off (64 * x.1) } (by simp)).trans (.hst _ _ (by simp))

/-- A step of HBM_WIPE while every quadrant serves. -/
theorem State.wipeStep_spec {s : State} {l : LongRun} {d : Desc} (more : l.progress < getLE d.bytes 16 5)
    (serve : ∀ q, q < 4 → s.hw.memServes q = true) {m : LongRun} (next : m = { l with progress := l.progress + 2097152 }) :
    s.wipeStep l d = { s with
      mem := s.mem.keep fun a => !s.hw.inPortion (getLE d.bytes 8 5 + l.progress) a
      hw := if getLE d.bytes 16 5 ≤ m.progress then
          (s.hw.afterWipe (getLE d.bytes 8 5 + l.progress) m).longEnd m (if s.hw.someLost then 0x0a else 0) m.progress
        else s.hw.afterWipe (getLE d.bytes 8 5 + l.progress) m } := by
  subst next
  rw [State.wipeStep, if_neg (by omega), if_neg (by simpa using serve)]
  have status : ((s.hw.afterWipe (getLE d.bytes 8 5 + l.progress) { l with progress := l.progress + 2097152 }).reached (.ok 0)).status =
      if s.hw.someLost then 0x0a else 0 := Hw.status_reached _ 0
  rw [← status, ← s.hw.wipe_eq_keep s.mem (getLE d.bytes 8 5 + l.progress)]
  rfl

/-! ### EXC_DUMP (R265, item 2) -/

section
variable {h : Hw} {l : LongRun} {d : Desc} {ahead es : List ExcEnt} {n : Nat}
  (sorted : ahead = ((h.fwd.exc.get h.readDie).filter fun e => decide (l.latch.headD 0 ≤ e.node.toNat)).foldr byNode [])
  (portion : es = ahead.take (min 512 (getLE d.bytes 16 4 - l.progress))) (count : n = l.progress + es.length)

/-- The chip after a portion has gone to host memory. -/
def Hw.dumped (h : Hw) (l : LongRun) (d : Desc) (es : List ExcEnt) : Hw :=
  if es.isEmpty then h else h.emit (.hostWrite d.ring (getLE d.bytes 8 8 + 8 * l.progress) (es.flatMap fun e => bytesLE 8 e.word.toNat))

theorem Hw.dumped_told {P : Reg → Prop} (h : Hw) (l : LongRun) (d : Desc) (es : List ExcEnt) : HostTold P h (h.dumped l d es) := by
  unfold Hw.dumped
  split
  · exact .refl h
  · exact .emit h _

theorem Hw.dumped_hst (h : Hw) (l : LongRun) (d : Desc) (es : List ExcEnt) : (h.dumped l d es).hst = h.hst := by
  unfold Hw.dumped
  split <;> rfl

theorem Hw.dumped_out (h : Hw) (l : LongRun) (d : Desc) {es : List ExcEnt} (some_ : es ≠ []) :
    .hostWrite d.ring (getLE d.bytes 8 8 + 8 * l.progress) (es.flatMap fun e => bytesLE 8 e.word.toNat) ∈ (h.dumped l d es).out := by
  rw [Hw.dumped, if_neg (by simpa using some_)]
  exact List.mem_cons_self ..

include sorted portion count

/-- The last portion ends the dump. -/
theorem Hw.dumpStep_of_last (last : es.length = min ahead.length (getLE d.bytes 16 4 - l.progress)) :
    h.dumpStep l d = (h.dumped l d es).longEnd l (if h.someLost then 0x0a else 0) n := by
  have status : ((h.dumped l d es).reached (.ok n)).status = if h.someLost then 0x0a else 0 := by
    rw [Hw.status_reached, Hw.someLost_congr ((h.dumped_told (P := noRegs) l d es).only.parts .err (by simp))]
  have done : decide (es.length < min ahead.length (getLE d.bytes 16 4 - l.progress)) = false := by simp [last]
  have portion' : ahead.take (min stepEntries (getLE d.bytes 16 4 - l.progress)) = es := portion.symm
  simp only [Hw.dumpStep, ← sorted, portion', done, ← count]
  rw [← status, Hw.dumped]
  cases es.getLast? <;> rfl

/-- Any other moves it on to the node number after the portion's last. -/
theorem Hw.dumpStep_of_more (more : es.length < min ahead.length (getLE d.bytes 16 4 - l.progress)) :
    ∃ e, es.getLast? = some e ∧ h.dumpStep l d = (h.dumped l d es).setLong { l with progress := n, latch := [e.node.toNat + 1] } := by
  have full : es.length = 512 := by
    have size : es.length = min (min 512 (getLE d.bytes 16 4 - l.progress)) ahead.length := by rw [portion, List.length_take]
    omega
  obtain ⟨e, last⟩ : ∃ e, es.getLast? = some e := by
    cases found : es.getLast? with
    | none => simp [List.getLast?_eq_none_iff.1 found] at full
    | some e => exact ⟨e, rfl⟩
  have go : decide (es.length < min ahead.length (getLE d.bytes 16 4 - l.progress)) = true := by simp only [more, decide_true]
  have portion' : ahead.take (min stepEntries (getLE d.bytes 16 4 - l.progress)) = es := portion.symm
  refine ⟨e, last, ?_⟩
  simp only [Hw.dumpStep, ← sorted, portion', go, last, ← count]
  rfl

end

/-! ### Moves of a rehash (R265, item 3) -/

section
variable {α : Type} (bucket : α → Nat) (moved inBucket : α → Bool) (put : α → Bool → α)

theorem moveEntries_of_moved (n : Nat) {l : List α} (all : ∀ x ∈ l, moved x = true) : moveEntries bucket moved inBucket put n l = l := by
  cases n with
  | zero => rfl
  | succ n =>
    have none_ : (l.find? fun x => !moved x) = none := List.find?_eq_none.2 fun x there => by simp [all x there]
    rw [moveEntries, none_]

/-- One move puts the first entry that has not moved in its place. -/
theorem moveEntries_succ (n : Nat) {before after : List α} {x : α} (first : ∀ y ∈ before, moved y = true) (unmoved : moved x = false) :
    ∃ o, moveEntries bucket moved inBucket put (n + 1) (before ++ x :: after) =
      moveEntries bucket moved inBucket put n (before ++ put x o :: after) := by
  have none_ : before.find? (fun x => !moved x) = none := List.find?_eq_none.2 fun y there => by simp [first y there]
  have nowhere : before.findIdx? (fun x => !moved x) = none := List.findIdx?_eq_none_iff.2 fun y there => by simp [first y there]
  have found : (before ++ x :: after).find? (fun x => !moved x) = some x := by simp [none_, unmoved]
  have place : (before ++ x :: after).findIdx? (fun x => !moved x) = some before.length := by
    simp [List.findIdx?_append, nowhere, List.findIdx?_cons, unmoved]
  rw [moveEntries, found, place]
  dsimp only
  rw [List.set_append_right _ _ (Nat.le_refl _), Nat.sub_self, List.set_cons_zero]
  exact ⟨_, rfl⟩

/-- What a move leaves of every entry, all moves leave. -/
theorem moveEntries_map {β : Type} (f : α → β) (keeps : ∀ x o, f (put x o) = f x) (n : Nat) (l : List α) :
    (moveEntries bucket moved inBucket put n l).map f = l.map f := by
  induction n generalizing l with
  | zero => rfl
  | succ n ih =>
    cases found : l.find? fun x => !moved x with
    | none => rw [moveEntries_of_moved _ _ _ _ _ fun x there => by simpa using List.find?_eq_none.1 found x there]
    | some x =>
      obtain ⟨unmoved, before, after, rfl, first⟩ := List.find?_eq_some_iff_append.1 found
      obtain ⟨o, step⟩ := moveEntries_succ bucket moved inBucket put n (after := after) (by simpa using first) (by simpa using unmoved)
      rw [step, ih]
      simp [keeps]

/-- Of the entries that have not moved, `n` have moved. -/
theorem moveEntries_left (settles : ∀ x o, moved (put x o) = true) (n : Nat) (l : List α) :
    ((moveEntries bucket moved inBucket put n l).filter fun x => !moved x).length = (l.filter fun x => !moved x).length - n := by
  induction n generalizing l with
  | zero => rfl
  | succ n ih =>
    cases found : l.find? fun x => !moved x with
    | none =>
      have all := List.find?_eq_none.1 found
      rw [moveEntries_of_moved _ _ _ _ _ fun x there => by simpa using all x there, List.filter_eq_nil_iff.2 all]
      exact (Nat.zero_sub _).symm
    | some x =>
      obtain ⟨unmoved, before, after, rfl, first⟩ := List.find?_eq_some_iff_append.1 found
      obtain ⟨o, step⟩ := moveEntries_succ bucket moved inBucket put n (after := after) (by simpa using first) (by simpa using unmoved)
      rw [step, ih]
      have left : (before.filter fun x => !moved x) = [] := List.filter_eq_nil_iff.2 fun y there => by simpa using first y there
      have here : moved x = false := by simpa using unmoved
      simp [List.filter_append, left, settles, here]

end

/-! ### The exception table under a new seed (R265, item 3) -/

/-- The next moves of a table's entries under seed `seed`. -/
def excMoves (seed : BitVec 32) (l : List ExcEnt) : List ExcEnt :=
  moveEntries (fun e => excBucket e.node seed) (·.moved) (!·.ovf) excMoved stepEntries l

theorem excMoves_map (seed : BitVec 32) (l : List ExcEnt) :
    (excMoves seed l).map (fun e => (e.node, e.kind, e.target)) = l.map fun e => (e.node, e.kind, e.target) :=
  moveEntries_map _ _ _ excMoved (fun e : ExcEnt => (e.node, e.kind, e.target)) (fun _ _ => rfl) _ l

theorem excMoves_left (seed : BitVec 32) (l : List ExcEnt) :
    ((excMoves seed l).filter fun e => !e.moved).length = (l.filter fun e => !e.moved).length - 512 :=
  moveEntries_left _ _ _ excMoved (fun _ _ => rfl) _ l

/-- The chip once every entry has moved: the new seed is in force. -/
def Hw.excSeeded (h : Hw) (seed : BitVec 32) : Hw :=
  let g := h.setHubReg .fwdSeed (Fld.fwdSeed_excSeed.put (h.reg .fwdSeed) seed.toNat)
  { g with fwd := { g.fwd with exc := g.mapReach (fun l => l.map excSettled) g.fwd.exc } }

theorem Hw.excSeeded_only (h : Hw) (seed : BitVec 32) : Only [.fwd] (· = .fwdSeed) h (h.excSeeded seed) :=
  (Hw.setHubReg_only (P := (· = .fwdSeed)) h .fwdSeed _ (List.mem_singleton.2 rfl) rfl).trans (.fwd _ _ (List.mem_singleton.2 rfl))

theorem Hw.excSeeded_fld (h : Hw) (seed : BitVec 32) : (h.excSeeded seed).fld .fwdSeed Fld.fwdSeed_excSeed = seed.toNat := by
  have here : (h.excSeeded seed).reg .fwdSeed = Fld.fwdSeed_excSeed.put (h.reg .fwdSeed) seed.toNat := Hw.reg_setHubReg_self ..
  rw [Hw.fld, here, Fld.get_put_self _ (by decide), Nat.mod_eq_of_lt seed.isLt]

theorem Hw.excSeeded_exc {h : Hw} {q : Nat} (small : q < 4) (reach : h.err.hubLost.get q = false) (seed : BitVec 32) :
    (h.excSeeded seed).fwd.exc.get q = (h.fwd.exc.get q).map fun e => { e with moved := false } :=
  Hw.mapReach_get small (h := h.setHubReg .fwdSeed _) reach _ _

section
variable {h : Hw} {l : LongRun} {seed : BitVec 32}

theorem Hw.excRehash_of_fits (untested : l.tested = false)
    (fits : bucketsFit ((h.fwd.exc.get h.readDie).map fun e => excBucket e.node seed) 1 4096 = true) :
    h.excRehash l seed = h.setLong { l with tested := true } := by
  rw [Hw.excRehash, if_pos (by simp [untested]), if_pos fits]

theorem Hw.excRehash_of_unfit (untested : l.tested = false)
    (unfit : bucketsFit ((h.fwd.exc.get h.readDie).map fun e => excBucket e.node seed) 1 4096 = false) :
    h.excRehash l seed = h.longEnd l 0x10 0 := by
  rw [Hw.excRehash, if_pos (by simp [untested]), if_neg (by simp [unfit])]

theorem Hw.excRehash_of_left (tested : l.tested = true) {n : Nat} (count : n = ((h.fwd.exc.get h.readDie).filter fun e => !e.moved).length)
    (some_ : n ≠ 0) : h.excRehash l seed =
      Hw.setLong { h with fwd := { h.fwd with exc := h.mapReach (excMoves seed) h.fwd.exc } } { l with progress := l.progress + min n 512 } := by
  rw [Hw.excRehash, if_neg (by simp [tested]), ← count]
  exact if_neg some_

theorem Hw.excRehash_of_moved (tested : l.tested = true) (all : ((h.fwd.exc.get h.readDie).filter fun e => !e.moved) = []) :
    h.excRehash l seed = (h.excSeeded seed).longEnd l (if h.someLost then 0x0a else 0) l.progress := by
  have status : ((h.excSeeded seed).reached (.ok 0)).status = if h.someLost then 0x0a else 0 := by
    rw [Hw.status_reached, Hw.someLost_congr ((h.excSeeded_only seed).parts .err (by simp))]
  rw [Hw.excRehash, if_neg (by simp [tested]), all, ← status]
  exact if_pos List.length_nil

end

/-! ### The directory under a new seed (R206, R209) -/

/-- The next moves of the directory's entries under seed `seed`. -/
def dirMoves (seed : BitVec 32) (l : List DirEnt) : List DirEnt :=
  moveEntries (fun e => dirBucket e.keyHi e.keyLo seed) (·.moved) (!·.ovf) dirMoved stepEntries l

theorem dirMoves_map (seed : BitVec 32) (l : List DirEnt) :
    (dirMoves seed l).map (fun e => (e.keyLo, e.keyHi, e.locOffset, e.tag)) = l.map fun e => (e.keyLo, e.keyHi, e.locOffset, e.tag) :=
  moveEntries_map _ _ _ dirMoved (fun e : DirEnt => (e.keyLo, e.keyHi, e.locOffset, e.tag)) (fun _ _ => rfl) _ l

theorem dirMoves_left (seed : BitVec 32) (l : List DirEnt) :
    ((dirMoves seed l).filter fun e => !e.moved).length = (l.filter fun e => !e.moved).length - 512 :=
  moveEntries_left _ _ _ dirMoved (fun _ _ => rfl) _ l

/-- The chip once every entry has moved: the new seed is in force. -/
def Hw.dirSeeded (h : Hw) (seed : BitVec 32) : Hw :=
  let g := h.setFld .gondolaSeed Fld.gondolaSeed_dirSeed seed.toNat
  { g with gon := { g.gon with dir := g.gon.dir.map dirSettled } }

theorem Hw.dirSeeded_only (h : Hw) (seed : BitVec 32) : Only [.gon] (· = .gondolaSeed) h (h.dirSeeded seed) :=
  (Only.setFld (P := (· = .gondolaSeed)) h .gondolaSeed _ _ rfl).trans (.gon _ _ (List.mem_singleton.2 rfl))

theorem Hw.dirSeeded_fld (h : Hw) (seed : BitVec 32) : (h.dirSeeded seed).fld .gondolaSeed Fld.gondolaSeed_dirSeed = seed.toNat :=
  (Hw.fld_setFld_self h .gondolaSeed seed.toNat).trans (Nat.mod_eq_of_lt seed.isLt)

section
variable {h : Hw} {l : LongRun} {seed : BitVec 32}

theorem Hw.dirRehash_of_fits (untested : l.tested = false)
    (fits : bucketsFit (h.gon.dir.map fun e => dirBucket e.keyHi e.keyLo seed) 4 16384 = true) :
    h.dirRehash l seed = h.setLong { l with tested := true } := by
  rw [Hw.dirRehash, if_pos (by simp [untested]), if_pos fits]

theorem Hw.dirRehash_of_unfit (untested : l.tested = false)
    (unfit : bucketsFit (h.gon.dir.map fun e => dirBucket e.keyHi e.keyLo seed) 4 16384 = false) :
    h.dirRehash l seed = h.longEnd l 0x49 0 := by
  rw [Hw.dirRehash, if_pos (by simp [untested]), if_neg (by simp [unfit])]

theorem Hw.dirRehash_of_left (tested : l.tested = true) {n : Nat} (count : n = (h.gon.dir.filter fun e => !e.moved).length) (some_ : n ≠ 0) :
    h.dirRehash l seed =
      Hw.setLong { h with gon := { h.gon with dir := dirMoves seed h.gon.dir } } { l with progress := l.progress + min n 512 } := by
  rw [Hw.dirRehash, if_neg (by simp [tested]), ← count]
  exact if_neg some_

theorem Hw.dirRehash_of_moved (tested : l.tested = true) (all : (h.gon.dir.filter fun e => !e.moved) = []) :
    h.dirRehash l seed = (h.dirSeeded seed).longEnd l (if h.someLost then 0x0a else 0) l.progress := by
  have status : ((h.dirSeeded seed).reached (.ok 0)).status = if h.someLost then 0x0a else 0 := by
    rw [Hw.status_reached, Hw.someLost_congr ((h.dirSeeded_only seed).parts .err (by simp))]
  rw [Hw.dirRehash, if_neg (by simp [tested]), all, ← status]
  exact if_pos List.length_nil

end

/-! ### COUNTER_SNAPSHOT (R265, item 9) -/

section
variable {h : Hw} {l : LongRun} {d : Desc}

theorem Hw.snapStep_of_start (start : l.latch = []) :
    ∃ m, h.snapStep l d = h.setLong m ∧ m.op = l.op ∧ m.ix = l.ix ∧ m.latch.headD 0 = h.stamp32.toNat := by
  refine ⟨{ l with latch := h.stamp32.toNat :: (h.snapDies (getLE d.bytes 2 2)).flatMap fun x =>
    (List.range 512).map fun k => h.fld (.cntVal x k) Fld.cntVal_value }, ?_, rfl, rfl, rfl⟩
  rw [Hw.snapStep, if_pos (by simp [start])]

variable (latched : l.latch ≠ [])
include latched

theorem Hw.snapStep_of_page (left : l.progress < (l.latch.length - 1) / 512) :
    h.snapStep l d = (h.emit (.hostWrite d.ring (getLE d.bytes 8 8 + 4096 * l.progress)
      (((l.latch.drop (1 + 512 * l.progress)).take 512).flatMap (bytesLE 8)))).setLong { l with progress := l.progress + 1 } := by
  rw [Hw.snapStep, if_neg (by simp [latched]), if_neg (by omega)]

theorem Hw.snapStep_of_last (done : (l.latch.length - 1) / 512 ≤ l.progress) (reach : h.someLost = false) :
    h.snapStep l d = h.longEnd l 0 (l.latch.headD 0) := by
  have near : ((List.range 8).any fun k => Nat.testBit (getLE d.bytes 2 2) k && h.err.hubLost.get (k % 4)) = false := by
    simp [Hw.hubLost_of_reach reach]
  rw [Hw.snapStep, if_neg (by simp [latched]), if_pos done, near, if_neg Bool.false_ne_true]

end

/-! ### FW_STAGE and FW_COMMIT (R278, R361, R362) -/

/-- The chip after a part of an image has come from host memory. -/
def Hw.partStaged (h : Hw) (off : Nat) (b : List Byte) : Hw := { h with hst := { h.hst with fwStage := h.hst.fwStage ++ [(off, b)] } }

section
variable {h : Hw} {l : LongRun} {d : Desc} {n : Nat} (portion : n = min 65536 (getLE d.bytes 24 3 - l.progress))
include portion

theorem Hw.stageStep_of_given {b : List Byte} (whole : n ≤ b.length) :
    h.stageStep l d (some b) = if getLE d.bytes 24 3 ≤ l.progress + n then
        (h.partStaged (getLE d.bytes 16 3 + l.progress) (b.take n)).longEnd { l with progress := l.progress + n } 0 (getLE d.bytes 24 3)
      else (h.partStaged (getLE d.bytes 16 3 + l.progress) (b.take n)).setLong { l with progress := l.progress + n } := by
  have given : dmaOf (some b) (min stepBytes (getLE d.bytes 24 3 - l.progress)) = some (b.take n) := portion ▸ if_pos (portion ▸ whole)
  rw [Hw.stageStep, given]
  subst portion
  rfl

end

theorem Hw.stageStep_of_failed (h : Hw) (l : LongRun) (d : Desc) : h.stageStep l d none = h.longEnd l 0x05 0 := rfl

section
variable {s : State} {l : LongRun} {d : Desc}

theorem State.commitStep_of_fault {e : Nat} (untested : l.tested = false) (fault : imageFault s.nv (s.hw.stagedImage (getLE d.bytes 8 3)) = some e)
    (ok : Bool) : s.commitStep l d ok = { s with hw := s.hw.longEnd l e 0 } := by
  rw [State.commitStep, if_pos (by simp [untested]), fault]
  rfl

theorem State.commitStep_of_good (untested : l.tested = false) (good : imageFault s.nv (s.hw.stagedImage (getLE d.bytes 8 3)) = none)
    (ok : Bool) : s.commitStep l d ok = { s with hw := s.hw.setLong { l with tested := true } } := by
  rw [State.commitStep, if_pos (by simp [untested]), good]
  rfl

/-- The boot flash with image `img` in it. -/
def Nv.flashed (v : Nv) (img : List Byte) : Nv := { v with flash := img, flashSvn := BitVec.ofNat 32 (getBE img 16 4) }

theorem State.commitStep_of_written (tested : l.tested = true) :
    s.commitStep l d true = { s with
      nv := s.nv.flashed (s.hw.stagedImage (getLE d.bytes 8 3))
      hw := if bits d.flags 0 1 = 1 then (s.hw.longEnd l 0 (getLE d.bytes 8 3)).restart s.nv 1 else s.hw.longEnd l 0 (getLE d.bytes 8 3) } := by
  rw [State.commitStep, if_neg (by simp [tested]), if_pos rfl]
  rfl

/-- A flash write that fails may leave the image, none, or a damaged one, but keeps the other non-volatile stores. -/
theorem State.commitStep_of_failed (tested : l.tested = true) :
    ∃ v : Nv, s.commitStep l d false = { s with nv := v, hw := s.hw.draw.2.longEnd l 0x62 0 } ∧ v.otp = s.nv.otp ∧ v.keys = s.nv.keys := by
  rw [State.commitStep, if_neg (by simp [tested]), if_neg Bool.false_ne_true]
  refine ⟨_, rfl, ?_, ?_⟩ <;> (split_ifs <;> rfl)

end

/-! ### The two ends of a step -/

section
variable {s : State} {k : LongOp} {l : LongRun} {d : Desc} {dma : Option (List Byte)} {ok : Bool} (running : s.hw.longOf k = some l)
  (turn : s.hw.mayTurn (longItem k) = true)
include running turn

/-- A step that changes the operation alone. -/
theorem next_longStep_goes {m : LongRun} (op : m.op = k) (run : s.longRun l dma ok = { s with hw := s.hw.setLong m }) :
    ∃ t, exec (.longOperationStep k dma ok) s = .next t ∧ t.hw.longOf k = some m ∧ OnlyHw [.hst] noRegs s t :=
  ⟨_, next_longStep running turn run, Hw.longOf_setLong running op,
    .of_hw ((Hw.setLong_only s.hw m).trans (Hw.tookTurn_only _ (longItem k) (by simp)))⟩

/-- A step that ends the operation and does nothing else. -/
theorem next_longStep_ends {status result : Nat} (desc : s.hw.longDesc l = some d)
    (run : s.longRun l dma ok = { s with hw := s.hw.longEnd l status result }) :
    ∃ t, exec (.longOperationStep k dma ok) s = .next t ∧ t.hw.longOf k = none ∧ Completed s.hw t.hw d status result ∧
      OnlyHw [.hst, .out] (fun x => x.isRing = true) s t := by
  obtain ⟨ends, ended⟩ := Hw.longEnd_ends (h := s.hw) (Hw.op_of_longOf running) desc rfl rfl status result (longItem k)
  exact ⟨_, next_longStep running turn run, ended, ends.completed, .of_hw (ends.only_host (s.hw.dropLong_only k))⟩

end

/-! ### The obligation -/

/-- Settles O56, by what begins an operation (`longBegin_answers`), by what a step of an operation in its turn is (`next_longStep`), and by
the equation of each kind's step. -/
theorem longOperationsRunInSteps : Obligations.LongOperationsRunInSteps := by
  unfold Obligations.LongOperationsRunInSteps
  refine ⟨fun r d c op k s runs idle good => ?begin_, fun k l dma ok s running => ⟨fun wait => ?wait, fun turn gone exc dir => ?gone⟩,
    fun k l d dma ok s running desc turn => ?step⟩
  case begin_ =>
    rcases good with ⟨rfl, rfl, rfl, addr, low, high⟩ | ⟨rfl, rfl, rfl⟩ | ⟨rfl, rfl, rfl⟩ | ⟨rfl, rfl, rfl, off, size, inside⟩ |
      ⟨rfl, rfl, rfl, addr⟩ | ⟨rfl, rfl, rfl, off, low, high⟩ | ⟨⟨rfl, kind⟩ | ⟨rfl, kind⟩, rfl, rfl, fits, staged⟩
    · exact longBegin_answers runs idle rfl rfl (by simp [addr, low, high])
    · exact longBegin_answers runs idle rfl rfl rfl
    · exact longBegin_answers runs idle rfl rfl rfl
    · exact longBegin_answers runs idle rfl rfl (by simp [off, size, inside])
    · exact longBegin_answers runs idle rfl rfl (by simp [addr])
    · exact longBegin_answers runs idle rfl rfl (by simp [off, low, high])
    · exact longBegin_answers runs idle rfl (Hw.fwCommit_of_staged runs (by simp [kind]) fits staged) rfl
    · exact longBegin_answers runs idle rfl (Hw.fwCommit_of_staged runs (by simp [kind]) fits staged) rfl
  case wait => exact exec_longOperationStep_of_wait running wait dma ok
  case gone =>
    have op : l.op = k := Hw.op_of_longOf running
    subst op
    exact ⟨_, next_longStep running turn (State.longRun_of_gone dma ok gone exc dir), s.hw.longOf_dropLong l.op,
      .of_hw ((s.hw.dropLong_only l.op).trans (Hw.tookTurn_only _ _ (by simp)))⟩
  have op : l.op = k := Hw.op_of_longOf running
  have step {t : State} (run : s.longRun l dma ok = t) := next_longStep running turn run
  refine ⟨fun stop => ?stop, fun go may kind => ?noRequest, fun go => ⟨?wipe, ?dump, ?exc, ?dir, ?snap, ?stage, ?verify, ?write⟩⟩
  case stop => exact next_longStep_ends running turn desc (State.longRun_of_stop dma ok stop)
  case noRequest =>
    exact ⟨_, step (State.longRun_of_noRequest dma ok go desc may (op ▸ kind)), running, rfl, .of_hw (Hw.tookTurn_only _ _ (by simp))⟩
  case wipe =>
    rintro rfl more serve
    obtain ⟨m, next⟩ : ∃ m, m = { l with progress := l.progress + 2097152 } := ⟨_, rfl⟩
    obtain ⟨off, start⟩ : ∃ off, off = getLE d.bytes 8 5 + l.progress := ⟨_, rfl⟩
    have run := (State.longRun_hbmWipe dma ok go desc op).trans (State.wipeStep_spec more serve next)
    rw [← start] at run ⊢
    have acts := s.hw.afterWipe_only (P := noRegs) off m
    have read (a : Nat) := s.hw.read_keep_inPortion s.mem off a
    have progress : m.progress = l.progress + 2097152 := congrArg LongRun.progress next
    rcases Nat.lt_or_ge m.progress (getLE d.bytes 16 5) with left | last
    · rw [if_neg (by omega)] at run
      exact ⟨_, step run, rfl, rfl, read, fun last => by omega, fun _ => next ▸ Hw.longOf_setLong running (next ▸ op),
        (acts.trans (Hw.tookTurn_only _ _ (by simp))).mono (by simp) fun _ none => none.elim⟩
    · rw [if_pos last] at run
      obtain ⟨ends, ended⟩ := Hw.longEnd_ends (h := s.hw) (g := s.hw.afterWipe off m) (l := m) (d := d) (k := .hbmWipe) (next ▸ op)
        (next ▸ desc) rfl rfl (if s.hw.someLost then 0x0a else 0) m.progress (longItem .hbmWipe)
      exact ⟨_, step run, rfl, rfl, read, fun _ => ⟨ended, ends.completed.of_result progress⟩, fun left => by omega,
        ends.only (acts.trans (Hw.dropLong_only _ _)) (regs := by simp [noRegs])⟩
  case dump =>
    rintro ahead es n rfl may sorted portion count
    have told := s.hw.dumped_told (P := fun x => x.isRing = true) l d es
    have host := s.hw.dumped_hst l d es
    have short : es.length ≤ min ahead.length (getLE d.bytes 16 4 - l.progress) := by
      rw [portion, List.length_take]
      omega
    have run := State.longRun_excDump dma ok go desc op may
    rcases Nat.lt_or_ge es.length (min ahead.length (getLE d.bytes 16 4 - l.progress)) with more | last
    · obtain ⟨e, final, moved⟩ := Hw.dumpStep_of_more sorted portion count more
      rw [moved] at run
      refine ⟨_, step run, s.hw.dumped_out l d, fun last => by omega, fun _ => ⟨e, final, Hw.longOf_setLong (l := l) ?_ op⟩, .of_hw ?_⟩
      · rw [Hw.longOf, host]
        exact running
      · exact (told.only.trans (Hw.setLong_only _ _)).trans (Hw.tookTurn_only _ _ (by simp))
    · have last : es.length = min ahead.length (getLE d.bytes 16 4 - l.progress) := Nat.le_antisymm short last
      rw [Hw.dumpStep_of_last sorted portion count last] at run
      have stands : (s.hw.dumped l d es).longDesc l = some d := by
        rw [Hw.longDesc, host]
        exact desc
      obtain ⟨ends, ended⟩ := Hw.longEnd_ends (h := s.hw) op stands
        (told.state _) told.mayRequest (if s.hw.someLost then 0x0a else 0) n (longItem .excDump)
      exact ⟨_, step run, fun some_ => ends.told.grows.subset (s.hw.dumped_out l d some_), fun _ => ⟨ended, ends.completed⟩,
        fun more => by omega, .of_hw ((told.only.trans (Hw.dropLong_only _ _)).trans ends.told.only)⟩
  case exc =>
    rintro rfl
    obtain ⟨seed, new⟩ : ∃ seed, seed = BitVec.ofNat 32 (l.latch.headD 0) := ⟨_, rfl⟩
    have run := State.longRun_excRehash (s := s) dma ok go op
    rw [← new] at run ⊢
    refine ⟨fun untested => ⟨fun fits => ?_, fun unfit => ?_⟩, fun n tested count some_ => ?_, fun tested all => ?_⟩
    · exact next_longStep_goes running turn op (by rw [run, Hw.excRehash_of_fits untested fits])
    · exact next_longStep_ends running turn desc (by rw [run, Hw.excRehash_of_unfit untested unfit])
    · rw [Hw.excRehash_of_left tested count some_] at run
      refine ⟨_, step run, Hw.longOf_setLong running op, fun q small reach => ?_,
        .of_hw (((Only.fwd s.hw _ (by simp)).trans (.hst _ _ (by simp))).trans (Hw.tookTurn_only _ _ (by simp)))⟩
      have table := Hw.mapReach_get small reach (excMoves seed) s.hw.fwd.exc
      exact ⟨(congrArg (List.map fun e => (e.node, e.kind, e.target)) table).trans (excMoves_map seed _),
        (congrArg (fun l => (l.filter fun e => !e.moved).length) table).trans (excMoves_left seed _)⟩
    · rw [Hw.excRehash_of_moved tested all] at run
      have acts := s.hw.excSeeded_only seed
      obtain ⟨ends, ended⟩ := Hw.longEnd_ends_of_only op desc acts (by simp) (by simp) (if s.hw.someLost then 0x0a else 0) l.progress
        (longItem .excRehash)
      refine ⟨_, step run, ended, ?_, fun q small reach => ?_, ends.completed,
        .of_hw (ends.only ((acts.mono (qs := [.fwd, .hst]) (by simp) fun _ => id).trans (Hw.dropLong_only _ _)) (regs := fun _ => id))⟩
      · exact (ends.told.only.fld (r := .fwdSeed) Bool.false_ne_true _).trans ((s.hw.excSeeded_fld seed).trans (new ▸ BitVec.toNat_ofNat _ _))
      · exact (congrArg (fun x : Fwd => x.exc.get q) ends.fwd).trans (Hw.excSeeded_exc small reach seed)
  case dir =>
    rintro rfl
    obtain ⟨seed, new⟩ : ∃ seed, seed = BitVec.ofNat 32 (l.latch.headD 0) := ⟨_, rfl⟩
    have run := State.longRun_dirRehash (s := s) dma ok go op
    rw [← new] at run ⊢
    refine ⟨fun untested => ⟨fun fits => ?_, fun unfit => ?_⟩, fun n tested count some_ => ?_, fun tested all => ?_⟩
    · exact next_longStep_goes running turn op (by rw [run, Hw.dirRehash_of_fits untested fits])
    · exact next_longStep_ends running turn desc (by rw [run, Hw.dirRehash_of_unfit untested unfit])
    · rw [Hw.dirRehash_of_left tested count some_] at run
      exact ⟨_, step run, Hw.longOf_setLong running op, dirMoves_map seed _, count ▸ dirMoves_left seed _,
        .of_hw (((Only.gon s.hw _ (by simp)).trans (.hst _ _ (by simp))).trans (Hw.tookTurn_only _ _ (by simp)))⟩
    · rw [Hw.dirRehash_of_moved tested all] at run
      have acts := s.hw.dirSeeded_only seed
      obtain ⟨ends, ended⟩ := Hw.longEnd_ends_of_only op desc acts (by simp) (by simp) (if s.hw.someLost then 0x0a else 0) l.progress
        (longItem .dirRehash)
      refine ⟨_, step run, ended, ?_, ?_, ends.completed,
        .of_hw (ends.only ((acts.mono (qs := [.gon, .hst]) (by simp) fun _ => id).trans (Hw.dropLong_only _ _)) (regs := fun _ => id))⟩
      · exact (ends.told.only.fld (r := .gondolaSeed) Bool.false_ne_true _).trans
          ((s.hw.dirSeeded_fld seed).trans (new ▸ BitVec.toNat_ofNat _ _))
      · exact congrArg Gon.dir (ends.told.only.parts .gon (by simp))
  case snap =>
    rintro rfl
    refine ⟨fun start => ?_, fun may latched => ⟨fun left => ?_, fun done reach => ?_⟩⟩
    · obtain ⟨m, moved, kind, ix, stamp⟩ := Hw.snapStep_of_start (h := s.hw) (d := d) start
      have run := State.longRun_counterSnapshot dma ok go desc op (.inr start)
      obtain ⟨t, next, now, only⟩ := next_longStep_goes running turn (kind.trans op) (run.trans (by rw [moved]))
      exact ⟨t, m, next, now, ix, stamp, only⟩
    · have run := State.longRun_counterSnapshot dma ok go desc op (.inl may)
      rw [Hw.snapStep_of_page latched left] at run
      exact ⟨_, step run, Hw.longOf_setLong running op, List.mem_cons_self .., .of_hw
        (((Only.emit s.hw _ (by simp)).trans (.hst _ _ (by simp))).trans (Hw.tookTurn_only _ _ (by simp)))⟩
    · have run := State.longRun_counterSnapshot dma ok go desc op (.inl may)
      exact next_longStep_ends running turn desc (by rw [run, Hw.snapStep_of_last latched done reach])
  case stage =>
    rintro n rfl may portion
    have run := State.longRun_fwStage dma ok go desc op may
    refine ⟨fun b given whole => ?_, fun failed => ?_⟩
    · rw [given, Hw.stageStep_of_given portion whole] at run
      have acts : Only [.hst] noRegs s.hw (s.hw.partStaged (getLE d.bytes 16 3 + l.progress) (b.take n)) := .hst s.hw _ (by simp)
      rcases Nat.lt_or_ge (l.progress + n) (getLE d.bytes 24 3) with left | last
      · rw [if_neg (by omega), ← given] at run
        exact ⟨_, step run, rfl, fun last => by omega, fun _ => Hw.longOf_setLong running op,
          .of_hw (((acts.trans (Hw.setLong_only _ _)).trans (Hw.tookTurn_only _ _ (by simp))).mono (by simp) fun _ none => none.elim)⟩
      · rw [if_pos last, ← given] at run
        obtain ⟨ends, ended⟩ := Hw.longEnd_ends (h := s.hw) (g := s.hw.partStaged (getLE d.bytes 16 3 + l.progress) (b.take n))
          (l := { l with progress := l.progress + n }) op desc rfl rfl 0 (getLE d.bytes 24 3) (longItem .fwStage)
        exact ⟨_, step run, ends.host Hst.fwStage, fun _ => ⟨ended, ends.completed⟩, fun left => by omega,
          .of_hw (ends.only_host (acts.trans (Hw.dropLong_only _ _)))⟩
    · exact next_longStep_ends running turn desc (by rw [run, failed, Hw.stageStep_of_failed])
  case verify =>
    rintro rfl untested
    have run := State.longRun_fwCommit dma ok go desc op
    exact ⟨fun e fault => next_longStep_ends running turn desc (run.trans (State.commitStep_of_fault untested fault ok)),
      fun good => next_longStep_goes running turn op (run.trans (State.commitStep_of_good untested good ok))⟩
  case write =>
    rintro rfl tested
    have run := State.longRun_fwCommit dma ok go desc op
    refine ⟨?_, ?_⟩
    · rintro rfl
      rw [State.commitStep_of_written tested] at run
      refine ⟨_, step run, rfl, rfl, rfl, rfl, rfl, rfl, fun plain => ?_⟩
      rw [if_neg (by omega)]
      obtain ⟨ends, -⟩ := Hw.longEnd_ends (h := s.hw) op desc rfl rfl 0 (getLE d.bytes 8 3) (longItem .fwCommit)
      exact ⟨ends.completed, ends.only_host (Hw.dropLong_only _ _)⟩
    · rintro rfl
      obtain ⟨v, failed, otp, keys⟩ := State.commitStep_of_failed (s := s) (d := d) tested
      have acts : Only [.free] noRegs s.hw s.hw.draw.2 := .draw s.hw (by simp)
      obtain ⟨ends, -⟩ := Hw.longEnd_ends_of_only op desc acts (by simp) (by simp [noRegs]) 0x62 0 (longItem .fwCommit)
      exact ⟨_, step (run.trans failed), ends.completed, otp, keys, rfl, rfl,
        ends.only ((acts.mono (qs := [.free, .hst]) (by simp) fun _ => id).trans (Hw.dropLong_only _ _)) (regs := by simp [noRegs])⟩

end Sys2Proof.Machine
end
